-- ==== Sys2Proof/Word.lean ====
section
/-!
DEFINITION. Words and numbers of the PK7240: the byte of a port's frame and the index types of the
numbered collections (00_scope.md section 4). Values the manual only counts, weights or compares are
plain numbers; only what travels as bits is a bit vector.
-/
namespace Sys2Proof

/-- One byte of a request frame or of a reply (R163). -/
abbrev Byte := BitVec 8

/-- A position port, 0 to 3. -/
abbrev PortId := Fin 4

/-- A strip table number, 0 to 159. -/
abbrev StripNo := Fin 160

/-- A bus number: 0 to 15 are the premixes, 16 + s is stem s (R51). -/
abbrev BusNo := Fin 24

/-- A premix number. -/
abbrev PremixNo := Fin 16

/-- A stem number. -/
abbrev StemNo := Fin 8

/-- A channel of a bus. -/
abbrev Channel := Fin 12

/-- An input or output lane. -/
abbrev LaneNo := Fin 8

/-- A slot of a lane. -/
abbrev SlotNo := Fin 16

/-- A coefficient cell number: 12 n + c for cell c of strip n, 1,920 + b for bus b (R33). -/
abbrev CellNo := Fin 1944

/-- A 24-bit signed sample on a lane (R153). -/
abbrev LaneSample := BitVec 24

end Sys2Proof
end

