-- ==== Sys2Proof/Syntax.lean ====
section
/-!
DEFINITION. The commands of the PK7240: one constructor per row of spec/opcode_table.json.
A request carries the bytes of its frame as the wire layouts of R177 to R180 give them, so that a value
outside its range can be sent; the other commands carry what the pins show.
-/
namespace Sys2Proof

/-- The sample rate that the RATE pin selects (R148). -/
inductive SampleRate where
  | k48 | k96
  deriving DecidableEq, Repr

/-- The three stage lines (R92). -/
inductive Line where
  | roll | rev | punch
  deriving DecidableEq, Repr

/-- The 13-byte value of MOVE and of a cue, and the 13-byte pan field (R178, R180). -/
abbrev Value13 := Vector Byte 13

/-- A source field: kind, lane or premix, slot or channel (R178). -/
structure SourceField where
  kind : Byte
  first : Byte
  second : Byte
  deriving DecidableEq, Repr

/-- A destination field: kind, premix or stem number (R178). -/
structure DestField where
  kind : Byte
  number : Byte
  deriving DecidableEq, Repr

/-- The 19 bytes of a cue (R180). -/
structure CueField where
  frame : BitVec 32
  strip : Byte
  field : Byte
  value : Value13
  deriving DecidableEq, Repr

/-- The 4 bytes of a patch entry (R180). -/
structure PatchField where
  kind : Byte
  first : Byte
  second : Byte
  flags : Byte
  deriving DecidableEq, Repr

/-- The levels of ROLL, REV and PUNCH at a sample period, `true` for high (R92). -/
structure LineLevels where
  roll : Bool
  rev : Bool
  punch : Bool
  deriving DecidableEq, Repr

/-- The commands. `p` is the port that sends a request. -/
inductive Instr where
  /-- RESET or power-up, with the rate that RATE selects and the presence lines that are active. -/
  | deviceReset (rate : SampleRate) (present : Vector Bool 4)
  /-- The presence line of port `p` rises. -/
  | attach (p : PortId)
  /-- The presence line of port `p` falls. -/
  | detach (p : PortId)
  /-- SEL of port `p` is asserted. -/
  | transactionBegin (p : PortId)
  /-- SEL of port `p` falls after these bits were clocked in, first bit first. -/
  | frameRejected (p : PortId) (bits : List Bool)
  | null (p : PortId)
  | move (p : PortId) (posted : Bool) (surface field op index : Byte) (value : Value13)
  | flags (p : PortId) (posted : Bool) (start count op selection valueSet : Byte)
  | setRoute (p : PortId) (surface : Byte) (source : SourceField) (dest : DestField) (panCarried : Byte) (pan : Value13)
  | setStrip (p : PortId) (surface : Byte) (source : SourceField) (polarity : Byte) (dest : DestField)
      (fader : BitVec 16) (mute : Byte) (pan : Value13) (mode linePunch : Byte)
  | setMode (p : PortId) (surface mode : Byte)
  | readRun (p : PortId) (start count : Byte)
  | readNext (p : PortId) (count : Byte)
  | readCells (p : PortId) (kind number : Byte)
  | setRamp (p : PortId) (length : BitVec 16)
  | setBus (p : PortId) (bus selection width : Byte) (gain : BitVec 16) (mute print : Byte)
  | setMaster (p : PortId) (width : Byte)
  | busRead (p : PortId) (first count : Byte)
  | clearClip (p : PortId) (clearSet : BitVec 32)
  | meterRead (p : PortId)
  | meterConfig (p : PortId) (hold : Byte)
  | claim (p : PortId) (kind first count : Byte)
  | release (p : PortId) (kind first count : Byte)
  | yield (p : PortId) (kind number target : Byte)
  | touch (p : PortId) (surface : Byte)
  | untouch (p : PortId) (surface : Byte)
  | watchAdd (p : PortId) (surface : Byte)
  | watchRemove (p : PortId) (surface : Byte)
  | watchRead (p : PortId)
  | signal (p : PortId) (target flag : Byte)
  | clearSignal (p : PortId) (clearSet : Byte)
  | save (p : PortId) (surface : Byte)
  | recallStrip (p : PortId)
  | lineConfig (p : PortId) (line polarity filter : Byte)
  | locate (p : PortId) (frame : BitVec 32)
  | loopSet (p : PortId) (start stop : BitVec 32) (enable : Byte)
  | timelineConfig (p : PortId) (rate : Byte)
  | timelineRead (p : PortId)
  | openPass (p : PortId) (low high : BitVec 16)
  | closePass (p : PortId)
  | cue (p : PortId) (cues : List CueField)
  | passRead (p : PortId)
  | take (p : PortId) (count : Byte)
  | patchSet (p : PortId) (first : Byte) (entries : List PatchField)
  | patchRead (p : PortId) (first count : Byte)
  | laneRead (p : PortId)
  | status (p : PortId)
  | enable (p : PortId) (set : BitVec 16)
  | clear (p : PortId) (set : BitVec 16)
  | windowSet (p : PortId) (window enabled first last base viewOnly : Byte)
  | windowRead (p : PortId)
  /-- The internal reference completes a period T. -/
  | samplePeriodReference
  /-- A rising edge of WCLK, `elapsed` after the reference point of the rule concerned: the last edge
  while FREE, the start of the last sample period while LOCKED (R149). -/
  | wclkEdge (elapsed : Nat)
  /-- WCLK has shown no edge for more than 33/32 T after its last one. -/
  | wclkTimeout
  /-- The window after the start of the last sample period closes without an edge. -/
  | missingEdge
  /-- The WCLK edge that ends the 256th good period. -/
  | syncLock
  /-- The fourth missing edge. -/
  | syncLoss
  /-- Lane `l` takes its frame: whether its framing marker is good, and its slots. -/
  | laneFrame (l : LaneNo) (good : Bool) (slots : Vector LaneSample 16)
  /-- Lane `l` takes the frame of its 16th good marker. -/
  | laneUp (l : LaneNo) (slots : Vector LaneSample 16)
  | engineSamplePeriod
  /-- The engine's sample period at which cell `c` settles. -/
  | cellSettle (c : CellNo)
  /-- The engine's sample period that is a meter tick. -/
  | meterTick
  | outputFrame
  | timelineSamplePeriod (levels : LineLevels)
  /-- The timeline's sample period at which stage line `l` changes. -/
  | lineChange (l : Line) (levels : LineLevels)
  /-- The timeline's sample period at which the settle ends. -/
  | settleEnd (levels : LineLevels)
  /-- The timeline's sample period that is a frame boundary. -/
  | frameBoundary (levels : LineLevels)
  deriving DecidableEq, Repr

/-- The port that sends a request, and `none` for a command that is no request of a port. -/
def Instr.sender : Instr → Option PortId
  | .null p | .move p .. | .flags p .. | .setRoute p .. | .setStrip p .. | .setMode p .. | .readRun p ..
  | .readNext p .. | .readCells p .. | .setRamp p .. | .setBus p .. | .setMaster p .. | .busRead p ..
  | .clearClip p .. | .meterRead p | .meterConfig p .. | .claim p .. | .release p .. | .yield p ..
  | .touch p .. | .untouch p .. | .watchAdd p .. | .watchRemove p .. | .watchRead p | .signal p ..
  | .clearSignal p .. | .save p .. | .recallStrip p | .lineConfig p .. | .locate p .. | .loopSet p ..
  | .timelineConfig p .. | .timelineRead p | .openPass p .. | .closePass p | .cue p .. | .passRead p
  | .take p .. | .patchSet p .. | .patchRead p .. | .laneRead p | .status p | .enable p .. | .clear p ..
  | .windowSet p .. | .windowRead p => some p
  | .deviceReset .. | .attach _ | .detach _ | .transactionBegin _ | .frameRejected .. | .samplePeriodReference
  | .wclkEdge _ | .wclkTimeout | .missingEdge | .syncLock | .syncLoss | .laneFrame .. | .laneUp ..
  | .engineSamplePeriod | .cellSettle _ | .meterTick | .outputFrame | .timelineSamplePeriod _ | .lineChange ..
  | .settleEnd _ | .frameBoundary _ => none

end Sys2Proof
end

