-- ==== Sys2Proof/Config.lean ====
section
/-!
DEFINITION. What the device fixes: the figures of 00_scope.md section 4 that the rules cite.
Nothing of the PK7240 is left to an implementation, so this file holds no free value.
-/
namespace Sys2Proof.Config

/-- Unity of faders, trims, gains and the greatest pan weight (R1). -/
def unity : Nat := 16384

/-- The greatest fader, trim, gain and count on 16 bits (R1, R51). -/
def max16 : Nat := 65535

/-- The greatest frame number (R96). -/
def maxFrame : Nat := 16777215

/-- The longest ramp (R40). -/
def maxRamp : Nat := 1024

/-- The cue queue and the take queue hold this many (R114, R141). -/
def queueSize : Nat := 1024

/-- The longest request frame in bytes (R164). -/
def maxFrameBytes : Nat := 1024

/-- The longest run (R22, R75, R160, R170). -/
def maxRun : Nat := 16

/-- Entries of a watch list (R82). -/
def watchSize : Nat := 4

/-- Snapshots of a recall stack (R88). -/
def recallSize : Nat := 8

/-- Good WCLK periods that lock the monitor (R151). -/
def lockPeriods : Nat := 256

/-- Missing edges that free it (R152). -/
def lossEdges : Nat := 4

/-- Good markers that bring a lane UP (R154). -/
def upMarkers : Nat := 16

/-- The sample range (R30). -/
def sampleMin : Int := -8388608

/-- The sample range (R30). -/
def sampleMax : Int := 8388607

end Sys2Proof.Config
end

