-- ==== Sys2Proof/WellFormed.lean ====
section
/-!
DEFINITION. Which commands a port can carry. Every operand is as wide as its field on the wire, so the one
thing left to check is that a request with a list fits a request frame: 4 header bytes and the payload are
at most 1,024 bytes (R164, R177).
-/
namespace Sys2Proof

/-- The payload length in bytes of a CUE that carries `n` cues (R177). -/
def cuePayload (n : Nat) : Nat := 1 + 19 * n

/-- The payload length in bytes of a PATCH-SET that carries `n` entries (R177). -/
def patchPayload (n : Nat) : Nat := 2 + 4 * n

/-- Whether a payload of this length fits a request frame (R164, step 2). -/
def fitsFrame (payload : Nat) : Bool := 4 + payload ≤ Config.maxFrameBytes

/-- A command whose frame, if it is a request, fits the 1,024 bytes of a request frame. -/
def Instr.wellFormed : Instr → Bool
  | .cue _ cues => fitsFrame (cuePayload cues.length)
  | .patchSet _ _ entries => fitsFrame (patchPayload entries.length)
  | .deviceReset .. | .attach _ | .detach _ | .transactionBegin _ | .frameRejected .. | .null _ | .move ..
  | .flags .. | .setRoute .. | .setStrip .. | .setMode .. | .readRun .. | .readNext .. | .readCells ..
  | .setRamp .. | .setBus .. | .setMaster .. | .busRead .. | .clearClip .. | .meterRead _ | .meterConfig ..
  | .claim .. | .release .. | .yield .. | .touch .. | .untouch .. | .watchAdd .. | .watchRemove ..
  | .watchRead _ | .signal .. | .clearSignal .. | .save .. | .recallStrip _ | .lineConfig .. | .locate ..
  | .loopSet .. | .timelineConfig .. | .timelineRead _ | .openPass .. | .closePass _ | .passRead _ | .take ..
  | .patchRead .. | .laneRead _ | .status _ | .enable .. | .clear .. | .windowSet .. | .windowRead _
  | .samplePeriodReference | .wclkEdge _ | .wclkTimeout | .missingEdge | .syncLock | .syncLoss | .laneFrame ..
  | .laneUp .. | .engineSamplePeriod | .cellSettle _ | .meterTick | .outputFrame | .timelineSamplePeriod _
  | .lineChange .. | .settleEnd _ | .frameBoundary _ => true

end Sys2Proof
end

