-- ==== Sys2Proof/Decode.lean ====
section
/-!
DEFINITION. Request frames: the framing checks of R164 and the payload layouts of R177, R178 and R180, as a
total reader of the bytes a transaction collected, and the writer of a request's frame. Values of more than
one byte are big-endian (R178).

The table of commands gives no bits for any row, so `decodeTableWord` reads nothing (log 22).
-/
namespace Sys2Proof

/-- Two bytes, big-endian. -/
def bytes2 (w : BitVec 16) : List Byte := [w.extractLsb' 8 8, w.extractLsb' 0 8]

/-- Four bytes, big-endian. -/
def bytes4 (w : BitVec 32) : List Byte :=
  [w.extractLsb' 24 8, w.extractLsb' 16 8, w.extractLsb' 8 8, w.extractLsb' 0 8]

/-- The 16-bit value of two bytes. -/
def join2 (a b : Byte) : BitVec 16 := a ++ b

/-- The 32-bit value of four bytes. -/
def join4 (a b c d : Byte) : BitVec 32 := (a ++ b) ++ (c ++ d)

/-- Thirteen bytes as a value field, and nothing else. -/
def toValue13 (l : List Byte) : Option Value13 :=
  if h : l.length = 13 then some ⟨l.toArray, by simpa using h⟩ else none

/-- The clocked bits as bytes, most significant bit first; a final byte of fewer than eight bits is
discarded (R163, R164). -/
def bytesOfBits : List Bool → List Byte
  | b7 :: b6 :: b5 :: b4 :: b3 :: b2 :: b1 :: b0 :: rest =>
    BitVec.ofBoolListBE [b7, b6, b5, b4, b3, b2, b1, b0] :: bytesOfBits rest
  | _ => []

/-- What R164 makes of a frame: a request that is taken, or one of the three refusals of the port. -/
inductive FrameRead where
  | request (i : Instr)
  | framing
  | length
  | unknown
  deriving DecidableEq, Repr

/-- The cues of a CUE payload, 19 bytes each. -/
def readCues : Nat → List Byte → Option (List CueField)
  | 0, [] => some []
  | n + 1, f3 :: f2 :: f1 :: f0 :: strip :: field :: rest =>
    match toValue13 (rest.take 13), readCues n (rest.drop 13) with
    | some value, some more => some ({ frame := join4 f3 f2 f1 f0, strip, field, value } :: more)
    | _, _ => none
  | _, _ => none

/-- The entries of a PATCH-SET payload, 4 bytes each. -/
def readPatches : Nat → List Byte → Option (List PatchField)
  | 0, [] => some []
  | n + 1, kind :: first :: second :: flags :: rest =>
    (readPatches n rest).map ({ kind, first, second, flags } :: ·)
  | _, _ => none

/-- Whether a code is in the catalogue (R164 step 4, R177). -/
def knownCode (code : Byte) : Bool :=
  let c := code.toNat
  c ≤ 0x09 || (0x10 ≤ c && c ≤ 0x15) || (0x20 ≤ c && c ≤ 0x2B) || (0x30 ≤ c && c ≤ 0x34)
    || (0x40 ≤ c && c ≤ 0x44) || (0x50 ≤ c && c ≤ 0x52) || (0x60 ≤ c && c ≤ 0x64)

/-- The request that a payload carries under a code of the catalogue, and `none` when its length is not
the code's (R164 step 5, R177). `posted` is bit 0 of the flags byte, which only MOVE and FLAGS use. -/
def readPayload (p : PortId) (code : Byte) (posted : Bool) (payload : List Byte) : Option Instr :=
  match code.toNat, payload with
  | 0x00, [] => some (.null p)
  | 0x01, surface :: field :: op :: index :: value =>
    (toValue13 value).map (.move p posted surface field op index ·)
  | 0x02, [start, count, op, selection, valueSet] => some (.flags p posted start count op selection valueSet)
  | 0x03, surface :: sk :: s1 :: s2 :: dk :: dn :: carried :: pan =>
    (toValue13 pan).map (.setRoute p surface ⟨sk, s1, s2⟩ ⟨dk, dn⟩ carried ·)
  | 0x04, surface :: sk :: s1 :: s2 :: polarity :: dk :: dn :: f1 :: f0 :: mute :: rest =>
    match toValue13 (rest.take 13), rest.drop 13 with
    | some pan, [mode, linePunch] =>
      some (.setStrip p surface ⟨sk, s1, s2⟩ polarity ⟨dk, dn⟩ (join2 f1 f0) mute pan mode linePunch)
    | _, _ => none
  | 0x05, [surface, mode] => some (.setMode p surface mode)
  | 0x06, [start, count] => some (.readRun p start count)
  | 0x07, [count] => some (.readNext p count)
  | 0x08, [kind, number] => some (.readCells p kind number)
  | 0x09, [a, b] => some (.setRamp p (join2 a b))
  | 0x10, [bus, selection, width, g1, g0, mute, print] =>
    some (.setBus p bus selection width (join2 g1 g0) mute print)
  | 0x11, [width] => some (.setMaster p width)
  | 0x12, [first, count] => some (.busRead p first count)
  | 0x13, [a, b, c, d] => some (.clearClip p (join4 a b c d))
  | 0x14, [] => some (.meterRead p)
  | 0x15, [hold] => some (.meterConfig p hold)
  | 0x20, [kind, first, count] => some (.claim p kind first count)
  | 0x21, [kind, first, count] => some (.release p kind first count)
  | 0x22, [kind, number, target] => some (.yield p kind number target)
  | 0x23, [surface] => some (.touch p surface)
  | 0x24, [surface] => some (.untouch p surface)
  | 0x25, [surface] => some (.watchAdd p surface)
  | 0x26, [surface] => some (.watchRemove p surface)
  | 0x27, [] => some (.watchRead p)
  | 0x28, [target, flag] => some (.signal p target flag)
  | 0x29, [set] => some (.clearSignal p set)
  | 0x2A, [surface] => some (.save p surface)
  | 0x2B, [] => some (.recallStrip p)
  | 0x30, [line, polarity, filter] => some (.lineConfig p line polarity filter)
  | 0x31, [a, b, c, d] => some (.locate p (join4 a b c d))
  | 0x32, [a, b, c, d, e, f, g, h, enable] => some (.loopSet p (join4 a b c d) (join4 e f g h) enable)
  | 0x33, [rate] => some (.timelineConfig p rate)
  | 0x34, [] => some (.timelineRead p)
  | 0x40, [a, b, c, d] => some (.openPass p (join2 a b) (join2 c d))
  | 0x41, [] => some (.closePass p)
  | 0x42, count :: rest => (readCues count.toNat rest).map (.cue p ·)
  | 0x43, [] => some (.passRead p)
  | 0x44, [count] => some (.take p count)
  | 0x50, first :: count :: rest => (readPatches count.toNat rest).map (.patchSet p first ·)
  | 0x51, [first, count] => some (.patchRead p first count)
  | 0x52, [] => some (.laneRead p)
  | 0x60, [] => some (.status p)
  | 0x61, [a, b] => some (.enable p (join2 a b))
  | 0x62, [a, b] => some (.clear p (join2 a b))
  | 0x63, [window, enabled, first, last, base, viewOnly] =>
    some (.windowSet p window enabled first last base viewOnly)
  | 0x64, [] => some (.windowRead p)
  | _, _ => none

/-- The five checks of R164, in order, on the bytes a transaction of port `p` collected. -/
def readFrame (p : PortId) : List Byte → FrameRead
  | code :: flags :: l1 :: l0 :: rest =>
    let len := (join2 l1 l0).toNat
    if 4 + len > Config.maxFrameBytes then .length
    else if rest.length < len then .framing
    else if !knownCode code then .unknown
    else match readPayload p code (flags.getLsbD 0) (rest.take len) with
      | some i => .request i
      | none => .length
  | _ => .framing

/-- The code of a request (R177); 00 for a command that is no request. -/
def Instr.code : Instr → Byte
  | .null _ => 0x00 | .move .. => 0x01 | .flags .. => 0x02 | .setRoute .. => 0x03 | .setStrip .. => 0x04
  | .setMode .. => 0x05 | .readRun .. => 0x06 | .readNext .. => 0x07 | .readCells .. => 0x08 | .setRamp .. => 0x09
  | .setBus .. => 0x10 | .setMaster .. => 0x11 | .busRead .. => 0x12 | .clearClip .. => 0x13 | .meterRead _ => 0x14
  | .meterConfig .. => 0x15 | .claim .. => 0x20 | .release .. => 0x21 | .yield .. => 0x22 | .touch .. => 0x23
  | .untouch .. => 0x24 | .watchAdd .. => 0x25 | .watchRemove .. => 0x26 | .watchRead _ => 0x27 | .signal .. => 0x28
  | .clearSignal .. => 0x29 | .save .. => 0x2A | .recallStrip _ => 0x2B | .lineConfig .. => 0x30 | .locate .. => 0x31
  | .loopSet .. => 0x32 | .timelineConfig .. => 0x33 | .timelineRead _ => 0x34 | .openPass .. => 0x40
  | .closePass _ => 0x41 | .cue .. => 0x42 | .passRead _ => 0x43 | .take .. => 0x44 | .patchSet .. => 0x50
  | .patchRead .. => 0x51 | .laneRead _ => 0x52 | .status _ => 0x60 | .enable .. => 0x61 | .clear .. => 0x62
  | .windowSet .. => 0x63 | .windowRead _ => 0x64
  | .deviceReset .. | .attach _ | .detach _ | .transactionBegin _ | .frameRejected .. | .samplePeriodReference
  | .wclkEdge _ | .wclkTimeout | .missingEdge | .syncLock | .syncLoss | .laneFrame .. | .laneUp ..
  | .engineSamplePeriod | .cellSettle _ | .meterTick | .outputFrame | .timelineSamplePeriod _ | .lineChange ..
  | .settleEnd _ | .frameBoundary _ => 0x00

/-- The bytes of a cue (R180). -/
def CueField.bytes (c : CueField) : List Byte := bytes4 c.frame ++ [c.strip, c.field] ++ c.value.toList

/-- The bytes of a patch entry (R180). -/
def PatchField.bytes (e : PatchField) : List Byte := [e.kind, e.first, e.second, e.flags]

/-- The payload of a request (R177); empty for a command that is no request. -/
def Instr.payload : Instr → List Byte
  | .move _ _ surface field op index value => [surface, field, op, index] ++ value.toList
  | .flags _ _ start count op selection valueSet => [start, count, op, selection, valueSet]
  | .setRoute _ surface src dst carried pan =>
    [surface, src.kind, src.first, src.second, dst.kind, dst.number, carried] ++ pan.toList
  | .setStrip _ surface src polarity dst fader mute pan mode linePunch =>
    [surface, src.kind, src.first, src.second, polarity, dst.kind, dst.number] ++ bytes2 fader ++ [mute]
      ++ pan.toList ++ [mode, linePunch]
  | .setMode _ surface mode => [surface, mode]
  | .readRun _ start count => [start, count]
  | .readNext _ count => [count]
  | .readCells _ kind number => [kind, number]
  | .setRamp _ length => bytes2 length
  | .setBus _ bus selection width gain mute print => [bus, selection, width] ++ bytes2 gain ++ [mute, print]
  | .setMaster _ width => [width]
  | .busRead _ first count => [first, count]
  | .clearClip _ set => bytes4 set
  | .meterConfig _ hold => [hold]
  | .claim _ kind first count => [kind, first, count]
  | .release _ kind first count => [kind, first, count]
  | .yield _ kind number target => [kind, number, target]
  | .touch _ surface => [surface]
  | .untouch _ surface => [surface]
  | .watchAdd _ surface => [surface]
  | .watchRemove _ surface => [surface]
  | .signal _ target flag => [target, flag]
  | .clearSignal _ set => [set]
  | .save _ surface => [surface]
  | .lineConfig _ line polarity filter => [line, polarity, filter]
  | .locate _ frame => bytes4 frame
  | .loopSet _ start stop on => bytes4 start ++ bytes4 stop ++ [on]
  | .timelineConfig _ rate => [rate]
  | .openPass _ low high => bytes2 low ++ bytes2 high
  | .cue _ cues => BitVec.ofNat 8 cues.length :: cues.flatMap CueField.bytes
  | .take _ count => [count]
  | .patchSet _ first entries => first :: BitVec.ofNat 8 entries.length :: entries.flatMap PatchField.bytes
  | .patchRead _ first count => [first, count]
  | .enable _ set => bytes2 set
  | .clear _ set => bytes2 set
  | .windowSet _ window enabled first last base viewOnly => [window, enabled, first, last, base, viewOnly]
  | .null _ | .meterRead _ | .watchRead _ | .recallStrip _ | .timelineRead _ | .closePass _ | .passRead _
  | .laneRead _ | .status _ | .windowRead _ => []
  | .deviceReset .. | .attach _ | .detach _ | .transactionBegin _ | .frameRejected .. | .samplePeriodReference
  | .wclkEdge _ | .wclkTimeout | .missingEdge | .syncLock | .syncLoss | .laneFrame .. | .laneUp ..
  | .engineSamplePeriod | .cellSettle _ | .meterTick | .outputFrame | .timelineSamplePeriod _ | .lineChange ..
  | .settleEnd _ | .frameBoundary _ => []

/-- Whether a request carries POSTED: MOVE and FLAGS alone heed it (R172). -/
def Instr.posted : Instr → Bool
  | .move _ posted .. => posted
  | .flags _ posted .. => posted
  | _ => false

/-- The frame of a request: code, flags byte with POSTED in bit 0, payload length, payload (R164). -/
def encodeFrame (i : Instr) : List Byte :=
  [i.code, if i.posted then 1 else 0] ++ bytes2 (BitVec.ofNat 16 i.payload.length) ++ i.payload

/-- The command that a word of the table's bits spells: the table gives no row any bits, so none. -/
def decodeTableWord (_nbits _w : Nat) : Option Instr := none

end Sys2Proof
end

