-- ==== Sys2Proof/Machine/State.lean ====
section
/-!
DEFINITION. The state of the PK7240, block by block as 00_scope.md section 3 lists the owners, and its value
after device reset. Plain data throughout.
-/
namespace Sys2Proof.Machine

/-! ### Strip table (R1) -/

/-- Where a strip reads its sample (R1). -/
inductive Source where
  | none
  | input (lane : LaneNo) (slot : SlotNo)
  | premix (bus : PremixNo) (channel : Channel)
  deriving DecidableEq, Repr

/-- The bus a strip feeds (R1). -/
inductive Dest where
  | none
  | premix (bus : PremixNo)
  | stem (stem : StemNo)
  deriving DecidableEq, Repr

/-- One entry of a pan list (R1). -/
structure PanEntry where
  channel : Channel
  weight : Nat
  deriving DecidableEq, Repr

/-- Automation mode (R1). -/
inductive Mode where
  | live | playback | write | touch | latch | trim
  deriving DecidableEq, Repr

/-- Write state (R126). -/
inductive WriteState where
  | off | wait | ready | writing | latched
  deriving DecidableEq, Repr

/-- A strip record (R1). -/
structure Strip where
  source : Source
  /-- Polarity INVERTED. -/
  inverted : Bool
  dest : Dest
  fader : Nat
  mute : Bool
  pan : List PanEntry
  mode : Mode
  linePunch : Bool
  trim : Nat
  shadowFader : Option Nat
  shadowMute : Option Bool
  shadowPan : Option (List PanEntry)
  writeState : WriteState
  holder : Option PortId
  toucher : Option PortId
  deriving DecidableEq, Repr

/-! ### Summing engine (R33, R40, R46) -/

/-- A coefficient cell (R33). -/
structure Cell where
  current : Nat
  start : Nat
  target : Nat
  length : Nat
  step : Nat
  deriving DecidableEq, Repr

structure Engine where
  stripCells : Vector (Vector Cell 12) 160
  gainCells : Vector Cell 24
  rampLength : Nat
  /-- The accumulators as the last sample period formed them (R42, R44). -/
  accumulators : Vector (Vector Int 12) 24
  deriving DecidableEq, Repr

/-! ### Bus table (R51, R53, R63) -/

/-- The fields every bus record holds (R51). -/
structure Bus where
  gain : Nat
  mute : Bool
  holder : Option PortId
  clip : Bool
  deriving DecidableEq, Repr

/-- A peak meter (R63). -/
structure Meter where
  value : Nat
  hold : Nat
  deriving DecidableEq, Repr

structure BusTable where
  buses : Vector Bus 24
  premixWidth : Vector Nat 16
  /-- The print flags of the stems. -/
  print : Vector Bool 8
  masterWidth : Nat
  masterClip : Bool
  /-- Meter 12 s + c serves stem s channel c. -/
  stemMeters : Vector Meter 96
  masterMeters : Vector Meter 12
  holdSetting : Nat
  tickCounter : Nat
  deriving DecidableEq, Repr

/-! ### Ports (R70, R163 to R176) -/

/-- A status code (section 9.6). -/
inductive Status where
  | ok | held | touched | automated | range | unmapped | view | full | empty | order | busy | undrained
  | notPass | inUse | duplicate | absent | self | shape | length | unknown | framing | late | rolling | none
  deriving DecidableEq, Repr

/-- An attention reason (R173). -/
inductive Reason where
  | watch | signal | claim | detach | clip | safe | stream | low | high | lost | refused | loop
  deriving DecidableEq, Repr

/-- A reply waiting in a reply slot (R165, R166). -/
structure Reply where
  status : Status
  code : Byte
  payload : List Byte
  deriving DecidableEq, Repr

/-- Whether SEL is asserted, and if so whether the transaction is taken (R163, R71). -/
inductive Transaction where
  /-- SEL is not asserted. -/
  | idle
  /-- SEL was asserted while the port was ATTACHED, and no detach has come since. -/
  | opened
  /-- SEL is asserted, and the transaction is ignored whole. -/
  | ignored
  deriving DecidableEq, Repr

/-- A surface window (R168). -/
structure Window where
  enabled : Bool
  first : Nat
  last : Nat
  base : StripNo
  viewOnly : Bool
  deriving DecidableEq, Repr

/-- An entry of a watch list (R82). -/
structure Watch where
  strip : StripNo
  hit : Bool
  mover : Option PortId
  deriving DecidableEq, Repr

/-- A snapshot of a recall stack (R88). -/
structure Snapshot where
  strip : StripNo
  fader : Nat
  mute : Bool
  pan : List PanEntry
  inverted : Bool
  deriving DecidableEq, Repr

/-- The state of one port (R70). -/
structure PortState where
  attached : Bool
  transaction : Transaction
  replySlot : Option Reply
  /-- The reply that the transaction in progress shifts out; what leaves SDO is `State.sdo`. -/
  shiftOut : List Byte
  windows : Vector Window 4
  pointer : Nat
  /-- The pending set, bit b for reason b. -/
  pendingSet : BitVec 12
  /-- The enable set, bit b for reason b. -/
  enableSet : BitVec 12
  refusals : Nat
  watches : List Watch
  signals : Vector Bool 4
  /-- The recall stack, newest first. -/
  recallStack : List Snapshot
  deriving DecidableEq, Repr

/-! ### Timeline (R92, R96) -/

/-- A line record (R92). -/
structure LineRecord where
  /-- Raw level, `true` for high. -/
  raw : Bool
  /-- Polarity ACTIVE-LOW. -/
  activeLow : Bool
  filter : Nat
  count : Nat
  /-- Filtered state, `true` for active. -/
  filtered : Bool
  deriving DecidableEq, Repr

/-- The frame rates (R96). -/
inductive FrameRate where
  | fps24 | fps25 | fps30
  deriving DecidableEq, Repr

structure Timeline where
  counter : Nat
  phase : Nat
  rate : FrameRate
  /-- Direction REVERSE. -/
  reverse : Bool
  settle : Nat
  counting : Bool
  loopStart : Nat
  loopEnd : Nat
  loopEnabled : Bool
  roll : LineRecord
  rev : LineRecord
  punch : LineRecord
  deriving DecidableEq, Repr

/-! ### Playback and writing (R108, R114, R140, R143) -/

/-- The value of one written field: the field it belongs to is its constructor (R114, R140). -/
inductive FieldValue where
  | fader (v : Nat)
  | mute (on : Bool)
  | pan (l : List PanEntry)
  | trim (v : Nat)
  deriving DecidableEq, Repr

/-- A cue (R114); its value is a fader, a mute or a pan list. -/
structure Cue where
  frame : Nat
  strip : StripNo
  value : FieldValue
  deriving DecidableEq, Repr

structure Playback where
  /-- The pass is OPEN. -/
  passOpen : Bool
  passPort : Option PortId
  /-- The cue queue, head first. -/
  cues : List Cue
  lowMark : Nat
  highMark : Nat
  stale : Nat
  deriving DecidableEq, Repr

/-- Why a strip punched out (R139). -/
inductive PunchReason where
  | release | rollStop | locate | loop | direction | modeChange | passClose
  deriving DecidableEq, Repr

/-- A take record (R140). -/
inductive TakeRecord where
  | punchIn (frame : Nat) (strip : StripNo) (port : Option PortId) (mode : Mode) (fader : Nat) (mute : Bool)
      (pan : List PanEntry) (trim : Option Nat)
  | move (frame : Nat) (strip : StripNo) (port : PortId) (value : FieldValue)
  | punchOut (frame : Nat) (strip : StripNo) (reason : PunchReason)
  deriving DecidableEq, Repr

structure Writing where
  /-- The take queue, oldest first. -/
  takes : List TakeRecord
  takePort : Option PortId
  lost : Nat
  deriving DecidableEq, Repr

/-! ### Audio interface (R148 to R159) -/

/-- An input lane (R153). -/
structure Lane where
  up : Bool
  markers : Nat
  slots : Vector Int 16
  deriving DecidableEq, Repr

/-- What an output slot carries (R157). -/
inductive Selection where
  | silent
  | master (channel : Channel)
  | stem (stem : StemNo) (channel : Channel)
  | premix (bus : PremixNo) (channel : Channel)
  | input (lane : LaneNo) (slot : SlotNo)
  deriving DecidableEq, Repr

/-- An entry of the output patch (R157). -/
structure PatchEntry where
  selection : Selection
  safe0 : Bool
  safe1 : Bool
  deriving DecidableEq, Repr

/-- The values that stage 9 hands to the output patch (R48). -/
structure Handed where
  premix : Vector (Vector Int 12) 16
  stem : Vector (Vector Int 12) 8
  master : Vector Int 12
  raw : Vector (Vector Int 16) 8
  deriving DecidableEq, Repr

structure Audio where
  rate : SampleRate
  /-- The sync state is LOCKED. -/
  locked : Bool
  lockCount : Nat
  missing : Nat
  /-- A WCLK edge is held from which the next spacing is measured (log 11). -/
  measuring : Bool
  lanes : Vector Lane 8
  patch : Vector PatchEntry 128
  /-- The values of the last stage 9. -/
  handed : Handed
  /-- The values of the stage 9 before it. -/
  handedBefore : Handed
  /-- The engine has taken the sample period in progress (log 14). -/
  engineTaken : Bool
  /-- The frames on the output lanes. -/
  outFrames : Vector (Vector Int 16) 8
  deriving DecidableEq, Repr

/-! ### The whole part -/

/-- The state of the PK7240, and the queue of commands that wait. -/
structure State where
  strips : Vector Strip 160
  engine : Engine
  busTable : BusTable
  ports : Vector PortState 4
  timeline : Timeline
  playback : Playback
  writing : Writing
  audio : Audio
  pending : List Instr
  deriving DecidableEq, Repr

/-- Reasons the machine could stop with. The spec stops the part nowhere, so there is none: no command faults. -/
inductive Fault where
  deriving DecidableEq, Repr

/-- Reasons the model gives no meaning. -/
inductive Refusal where
  /-- Raised by an arm of `exec` whose command has no meaning yet; no arm does. Safe: the run stops. -/
  | notModelled (mnemonic : String)
  deriving DecidableEq, Repr

/-! ### Device reset -/

/-- A strip record after device reset (R2). -/
def Strip.reset : Strip :=
  { source := .none, inverted := false, dest := .none, fader := Config.unity, mute := true,
    pan := [{ channel := 0, weight := Config.unity }], mode := .live, linePunch := false, trim := Config.unity,
    shadowFader := none, shadowMute := none, shadowPan := none, writeState := .off, holder := none,
    toucher := none }

/-- A cell settled at `v` with the reset ramp length (R33). -/
def Cell.settledAt (v : Nat) : Cell := { current := v, start := v, target := v, length := 64, step := 64 }

/-- The summing engine after device reset (R33, R40, R42). -/
def Engine.reset : Engine :=
  { stripCells := Vector.replicate 160 (Vector.replicate 12 (Cell.settledAt 0)),
    gainCells := Vector.replicate 24 (Cell.settledAt Config.unity),
    rampLength := 64,
    accumulators := Vector.replicate 24 (Vector.replicate 12 0) }

/-- The bus table after device reset (R52, R53, R63). -/
def BusTable.reset : BusTable :=
  { buses := Vector.replicate 24 { gain := Config.unity, mute := false, holder := none, clip := false },
    premixWidth := Vector.replicate 16 6,
    print := Vector.replicate 8 true,
    masterWidth := 12, masterClip := false,
    stemMeters := Vector.replicate 96 { value := 0, hold := 0 },
    masterMeters := Vector.replicate 12 { value := 0, hold := 0 },
    holdSetting := 100, tickCounter := 0 }

/-- Window 0 at the attach values (R168). -/
def Window.first0 : Window := { enabled := true, first := 0, last := 159, base := 0, viewOnly := false }

/-- Windows 1 to 3 at the attach values (R168). -/
def Window.disabled : Window := { enabled := false, first := 0, last := 0, base := 0, viewOnly := false }

/-- The per-port state at the values of device reset and attach, with the port attached or not and its
transaction as given (R70). -/
def PortState.fresh (attached : Bool) (transaction : Transaction) : PortState :=
  { attached, transaction, replySlot := none, shiftOut := [],
    windows := #v[Window.first0, Window.disabled, Window.disabled, Window.disabled],
    pointer := 0, pendingSet := 0, enableSet := 0, refusals := 0, watches := [],
    signals := Vector.replicate 4 false, recallStack := [] }

/-- A line record after device reset (R92). -/
def LineRecord.reset : LineRecord :=
  { raw := false, activeLow := false, filter := 32, count := 0, filtered := false }

/-- The timeline after device reset (R96). -/
def Timeline.reset : Timeline :=
  { counter := 0, phase := 0, rate := .fps24, reverse := false, settle := 0, counting := false,
    loopStart := 0, loopEnd := 0, loopEnabled := false,
    roll := LineRecord.reset, rev := LineRecord.reset, punch := LineRecord.reset }

/-- Playback after device reset (R108). -/
def Playback.reset : Playback :=
  { passOpen := false, passPort := none, cues := [], lowMark := 64, highMark := 960, stale := 0 }

/-- Writing after device reset (R141, R143). -/
def Writing.reset : Writing := { takes := [], takePort := none, lost := 0 }

/-- An input lane that is DOWN (R153, R155). -/
def Lane.down : Lane := { up := false, markers := 0, slots := Vector.replicate 16 0 }

/-- The selection of the default patch at entry 16 × lane + slot (R157). -/
def defaultSelection (i : Fin 128) : Selection :=
  if h : i.val < 12 then .master ⟨i.val, h⟩
  else if i.val < 16 then .silent
  else if h : i.val < 112 then .stem ⟨(i.val - 16) / 12, by omega⟩ ⟨(i.val - 16) % 12, by omega⟩
  else .silent

/-- Nothing handed yet: every value 0 (R48). -/
def Handed.zero : Handed :=
  { premix := Vector.replicate 16 (Vector.replicate 12 0), stem := Vector.replicate 8 (Vector.replicate 12 0),
    master := Vector.replicate 12 0, raw := Vector.replicate 8 (Vector.replicate 16 0) }

/-- The audio interface after device reset at a sample rate (R148, R149, R153, R157, R48). -/
def Audio.reset (rate : SampleRate) : Audio :=
  { rate, locked := false, lockCount := 0, missing := 0, measuring := false,
    lanes := Vector.replicate 8 Lane.down,
    patch := Vector.ofFn fun i => { selection := defaultSelection i, safe0 := false, safe1 := false },
    handed := Handed.zero, handedBefore := Handed.zero, engineTaken := false,
    outFrames := Vector.replicate 8 (Vector.replicate 16 0) }

/-- The part after a device reset with these port states and this sample rate, nothing waiting. -/
def State.afterReset (rate : SampleRate) (ports : Vector PortState 4) : State :=
  { strips := Vector.replicate 160 Strip.reset, engine := Engine.reset, busTable := BusTable.reset, ports,
    timeline := Timeline.reset, playback := Playback.reset, writing := Writing.reset, audio := Audio.reset rate,
    pending := [] }

/-- The part after device reset with RATE selecting 48 kHz, every presence line active and SEL asserted at no port, so
that no transaction is in progress: DESIGN CHOICE, unsafe (log 2). -/
def State.reset : State := State.afterReset .k48 (Vector.replicate 4 (PortState.fresh true .idle))

end Sys2Proof.Machine
end

