-- ==== Sys2Proof/Machine/Ops.lean ====
section
/-!
DEFINITION. The named operations over the state that several blocks share: reading and updating strips and
ports, raising attention reasons (R173), the transactions and replies of a port (R163 to R166), and the
refusal checks of a request.
-/
namespace Sys2Proof.Machine

/-! ### Collections -/

/-- The vector with entry `i` changed by `f`. -/
def upd {α : Type} {n : Nat} (v : Vector α n) (i : Fin n) (f : α → α) : Vector α n := v.set i (f v[i])

/-- Strip record `n`. -/
def State.strip (s : State) (n : StripNo) : Strip := s.strips[n]

/-- The state with strip record `n` changed by `f`. -/
def State.modStrip (s : State) (n : StripNo) (f : Strip → Strip) : State :=
  { s with strips := upd s.strips n f }

/-- The state with strip record `n` replaced. -/
def State.setStrip (s : State) (n : StripNo) (r : Strip) : State := s.modStrip n fun _ => r

/-- Bus record `b`. -/
def State.bus (s : State) (b : BusNo) : Bus := s.busTable.buses[b]

/-- The state with bus record `b` changed by `f`. -/
def State.modBus (s : State) (b : BusNo) (f : Bus → Bus) : State :=
  { s with busTable := { s.busTable with buses := upd s.busTable.buses b f } }

/-- The state of port `p`. -/
def State.port (s : State) (p : PortId) : PortState := s.ports[p]

/-- The state with port `p` changed by `f`. -/
def State.modPort (s : State) (p : PortId) (f : PortState → PortState) : State :=
  { s with ports := upd s.ports p f }

/-- The state with every port changed by `f`, which sees the port's number. -/
def State.mapPorts (s : State) (f : PortId → PortState → PortState) : State :=
  { s with ports := Vector.ofFn fun p => f p s.ports[p] }

/-- `f` at every strip, in strip number order (R135). -/
def eachStrip (f : StripNo → State → State) (s : State) : State :=
  (List.finRange 160).foldl (fun t n => f n t) s

/-- A count that stays at `top` when increased further (00_scope.md section 7.2). -/
def saturate (top n : Nat) : Nat := min top n

/-! ### Attention reasons (R173) -/

/-- The bit of a reason in the pending and enable sets (R173). -/
def Reason.bit : Reason → Nat
  | .watch => 0 | .signal => 1 | .claim => 2 | .detach => 3 | .clip => 4 | .safe => 5 | .stream => 6
  | .low => 7 | .high => 8 | .lost => 9 | .refused => 10 | .loop => 11

/-- The set that holds one reason. -/
def Reason.set (r : Reason) : BitVec 12 := BitVec.twoPow 12 r.bit

/-- A port with `r` raised: a reason is raised at an ATTACHED port only (R173). -/
def PortState.raised (r : Reason) (q : PortState) : PortState :=
  if q.attached then { q with pendingSet := q.pendingSet ||| r.set } else q

/-- `r` raised at port `p`. -/
def raiseAt (r : Reason) (p : PortId) (s : State) : State := s.modPort p (PortState.raised r)

/-- `r` raised at the port that holds a role, if any does. -/
def raiseAtRole (r : Reason) : Option PortId → State → State
  | some p, s => raiseAt r p s
  | none, s => s

/-- `r` raised at every ATTACHED port. -/
def raiseEverywhere (r : Reason) (s : State) : State := s.mapPorts fun _ q => q.raised r

/-- `r` raised at every ATTACHED port but `p`. -/
def raiseElsewhere (r : Reason) (p : PortId) (s : State) : State :=
  s.mapPorts fun q qs => if q = p then qs else qs.raised r

/-- The reasons that are both pending and enabled (R166, R174). -/
def PortState.summary (q : PortState) : BitVec 12 := q.pendingSet &&& q.enableSet

/-! ### Transactions and replies (R163 to R166) -/

/-- The status codes of section 9.6. -/
def Status.code : Status → Byte
  | .ok => 0x00 | .held => 0x01 | .touched => 0x02 | .automated => 0x03 | .range => 0x04 | .unmapped => 0x05
  | .view => 0x06 | .full => 0x07 | .empty => 0x08 | .order => 0x09 | .busy => 0x0A | .undrained => 0x0B
  | .notPass => 0x0C | .inUse => 0x0D | .duplicate => 0x0E | .absent => 0x0F | .self => 0x10 | .shape => 0x11
  | .length => 0x12 | .unknown => 0x13 | .framing => 0x14 | .late => 0x15 | .rolling => 0x16 | .none => 0xFF

/-- The idle reply: status NONE, code 00, no payload (R163). -/
def Reply.idle : Reply := { status := .none, code := 0, payload := [] }

/-- A reply as it leaves the port: the six-byte header with the attention summary, then the payload (R166). -/
def Reply.bytes (r : Reply) (summary : BitVec 12) : List Byte :=
  [r.status.code, r.code] ++ bytes2 (BitVec.ofNat 16 r.payload.length) ++ bytes2 (summary.setWidth 16) ++ r.payload

/-- SEL is asserted. An attached port takes its reply slot, or an idle reply, for shifting out and empties the
slot (R163); a detached port ignores the transaction whole (R71). SEL that is asserted already stays so. -/
def PortState.selRises (q : PortState) : PortState :=
  match q.transaction with
  | .idle =>
    if q.attached then
      { q with transaction := .opened, replySlot := none, shiftOut := (q.replySlot.getD Reply.idle).bytes q.summary }
    else { q with transaction := .ignored }
  | .opened | .ignored => q

/-- The byte that leaves a port as byte `k` of a transaction: the reply, then 0 for every byte clocked beyond its
end; a port that ignores SEL shifts nothing out (R163). -/
def PortState.outByte (q : PortState) (k : Nat) : Option Byte :=
  match q.transaction with
  | .opened => some (q.shiftOut.getD k 0)
  | .idle | .ignored => none

/-- The bits on SDO of port `p` over `clocks` clocked bits of the transaction in progress, most significant bit of each
byte first (R163, log 8). -/
def State.sdo (s : State) (p : PortId) (clocks : Nat) : List Bool :=
  (List.range clocks).filterMap fun i => ((s.port p).outByte (i / 8)).map fun b => b.getLsbD (7 - i % 8)

/-- SEL falls: the transaction is over. -/
def PortState.selFalls (q : PortState) : PortState := { q with transaction := .idle, shiftOut := [] }

/-- Whether a request that ends now on this port is taken: the port is ATTACHED and the transaction is not
one that began before the attach (R71, R72). With SEL not asserted the request stands for its whole
transaction (log 6). -/
def PortState.takes (q : PortState) : Bool := q.attached && q.transaction != .ignored

/-- The port after the transaction that carries a request: SEL asserted if it was not, then fallen. -/
def PortState.transacted (q : PortState) : PortState := q.selRises.selFalls

/-- SEL of port `p` falls on a request whose effect is `f` (R165). -/
def request (p : PortId) (f : State → State) (s : State) : Host.Outcome State Fault Refusal :=
  let t := s.modPort p PortState.transacted
  .next (if (s.port p).takes then f t else t)

/-- A reply placed in the reply slot of port `p` (R165). -/
def answer (p : PortId) (code : Byte) (status : Status) (payload : List Byte) (s : State) : State :=
  s.modPort p fun q => { q with replySlot := some { status, code, payload } }

/-! ### Checks -/

/-- A check that fails with `st` when `b` holds. -/
def failIf (b : Bool) (st : Status) : Option Status := if b then some st else none

/-- The first failure of checks run in order (R11). -/
def firstFailure : List (Option Status) → Option Status
  | [] => none
  | some st :: _ => some st
  | none :: rest => firstFailure rest

/-- Whether a holder or toucher field names a port other than `p` (R12). -/
def otherPort (p : PortId) : Option PortId → Bool
  | some q => q != p
  | none => false

/-- Steps 2 and 3 of the acceptance checks: the strip is held, then touched, by another port (R12). -/
def handFailure (p : PortId) (r : Strip) : Option Status :=
  firstFailure [failIf (otherPort p r.holder) .held, failIf (otherPort p r.toucher) .touched]

end Sys2Proof.Machine
end

