-- ==== Sys2Proof/Machine/Flags.lean ====
section
/-!
DEFINITION. The flags that follow other state: the ATTN lines (R174), the safe triggers with the SAFE reason
(R156), the clip flags with the CLIP reason (R61), and the clip set (R178).
-/
namespace Sys2Proof.Machine

/-- The ATTN line of port `p` is asserted: a reason is pending and enabled there (R174). -/
def State.attn (s : State) (p : PortId) : Bool := (s.port p).summary != 0

/-! ### Safe triggers (R156) -/

/-- Trigger 0 is active while the sync state is FREE. -/
def Audio.trigger0 (a : Audio) : Bool := !a.locked

/-- Trigger 1 is active while one or more input lanes are DOWN. -/
def Audio.trigger1 (a : Audio) : Bool := a.lanes.any fun l => !l.up

/-- Whether a trigger is active in `new` that was inactive in `old`. -/
def triggerRose (old new : Audio) : Bool :=
  (!old.trigger0 && new.trigger0) || (!old.trigger1 && new.trigger1)

/-- A change of the audio interface, with SAFE raised once at every attached port when a trigger rises. -/
def withAudio (a : Audio) (s : State) : State :=
  let t := { s with audio := a }
  if triggerRose s.audio a then raiseEverywhere .safe t else t

/-! ### Clip flags (R61, R62) -/

/-- The buses, and the master, that saturated at a sample period (R47). -/
structure Saturated where
  buses : Vector Bool 24
  master : Bool
  deriving DecidableEq, Repr

/-- Whether some clip flag that is clear is set by this hand-off. -/
def clipRises (t : BusTable) (sat : Saturated) : Bool :=
  (List.finRange 24).any (fun b => sat.buses[b] && !t.buses[b].clip) || (sat.master && !t.masterClip)

/-- The bus table with the clip flags of the saturated buses set (R61). -/
def setClips (sat : Saturated) (t : BusTable) : BusTable :=
  { t with
    buses := Vector.ofFn fun b => { t.buses[b] with clip := t.buses[b].clip || sat.buses[b] },
    masterClip := t.masterClip || sat.master }

/-- Stage 8's clip flags: set where a bus saturated, CLIP raised at every attached port when one rises (R61). -/
def takeSaturation (sat : Saturated) (s : State) : State :=
  let t := { s with busTable := setClips sat s.busTable }
  if clipRises s.busTable sat then raiseEverywhere .clip t else t

/-- The bus table with the clip flags of a clear set cleared: bit b for bus b, bit 24 for the master (R62). -/
def clearClips (set : BitVec 32) (t : BusTable) : BusTable :=
  { t with
    buses := Vector.ofFn fun b => { t.buses[b] with clip := t.buses[b].clip && !set.getLsbD b.val },
    masterClip := t.masterClip && !set.getLsbD 24 }

/-- The clip set: bits 0 to 23 for the buses, bit 24 for the master (R178). -/
def BusTable.clipSet (t : BusTable) : BitVec 32 :=
  BitVec.ofBoolListLE ((List.finRange 24).map (fun b => t.buses[b].clip) ++ [t.masterClip]) |>.setWidth 32

end Sys2Proof.Machine
end

