-- ==== Sys2Proof/Machine/Operands.lean ====
section
/-!
DEFINITION. Reading the operands of a request: window translation (R168, R169), two-valued bytes and the
enumerations (R178), sources, destinations, pan fields, deltas and cue values (R178, R180).
-/
namespace Sys2Proof.Machine

/-! ### Surface numbers (R169) -/

/-- Whether an enabled window contains surface number `n`. -/
def Window.covers (w : Window) (n : Nat) : Bool := w.enabled && decide (w.first ≤ n) && decide (n ≤ w.last)

/-- The strip a surface number reaches, and whether through a view-only window. -/
structure Reached where
  strip : StripNo
  viewOnly : Bool
  deriving DecidableEq, Repr

/-- Translation of surface number `n` by a port's windows (R169): the lowest-numbered enabled window that
contains it decides. -/
def translate (q : PortState) (n : Nat) : Except Status Reached :=
  if 255 < n then .error .range
  else match q.windows.toList.find? (·.covers n) with
    | none => .error .unmapped
    | some w =>
      if h : w.base.val + (n - w.first) < 160 then .ok { strip := ⟨w.base.val + (n - w.first), h⟩, viewOnly := w.viewOnly }
      else .error .range

/-- Translation for a request that a view-only window permits (R169). -/
def reach (q : PortState) (n : Nat) : Except Status StripNo :=
  match translate q n with
  | .ok r => .ok r.strip
  | .error st => .error st

/-- Translation for a change: a view-only window refuses it with VIEW (R169). -/
def reachForChange (q : PortState) (n : Nat) : Except Status StripNo :=
  match translate q n with
  | .ok r => if r.viewOnly then .error .view else .ok r.strip
  | .error st => .error st

/-! ### Enumerations (R178) -/

/-- A two-valued byte. -/
def readFlag (b : Byte) : Option Bool :=
  match b.toNat with
  | 0 => some false
  | 1 => some true
  | _ => none

/-- A number below `n`. -/
def readIndex (n : Nat) (b : Byte) : Option (Fin n) := if h : b.toNat < n then some ⟨b.toNat, h⟩ else none

def readMode (b : Byte) : Option Mode :=
  match b.toNat with
  | 0 => some .live | 1 => some .playback | 2 => some .write | 3 => some .touch | 4 => some .latch
  | 5 => some .trim | _ => none

def Mode.code : Mode → Nat
  | .live => 0 | .playback => 1 | .write => 2 | .touch => 3 | .latch => 4 | .trim => 5

def WriteState.code : WriteState → Nat
  | .off => 0 | .wait => 1 | .ready => 2 | .writing => 3 | .latched => 4

def readLine (b : Byte) : Option Line :=
  match b.toNat with
  | 0 => some .roll | 1 => some .rev | 2 => some .punch | _ => none

/-- The fields of MOVE (R178). -/
inductive MoveField where
  | fader | mute | pan | panEntry
  deriving DecidableEq, Repr

def readMoveField (b : Byte) : Option MoveField :=
  match b.toNat with
  | 0 => some .fader | 1 => some .mute | 2 => some .pan | 3 => some .panEntry | _ => none

/-- The operations of MOVE (R178). -/
inductive MoveOp where
  | replace | add
  deriving DecidableEq, Repr

def readMoveOp (b : Byte) : Option MoveOp :=
  match b.toNat with
  | 0 => some .replace | 1 => some .add | _ => none

/-- The operations of FLAGS (R178). -/
inductive FlagsOp where
  | set | clear | replace
  deriving DecidableEq, Repr

def readFlagsOp (b : Byte) : Option FlagsOp :=
  match b.toNat with
  | 0 => some .set | 1 => some .clear | 2 => some .replace | _ => none

/-- The kinds of object that a request names (R178). -/
inductive ObjectKind where
  | strip | bus
  deriving DecidableEq, Repr

def readObjectKind (b : Byte) : Option ObjectKind :=
  match b.toNat with
  | 0 => some .strip | 1 => some .bus | _ => none

def readFrameRate (b : Byte) : Option FrameRate :=
  match b.toNat with
  | 24 => some .fps24 | 25 => some .fps25 | 30 => some .fps30 | _ => none

/-! ### Routes (R14, R178) -/

/-- A source, and `none` when its kind or a number of it is outside its range. -/
def readSource (f : SourceField) : Option Source :=
  match f.kind.toNat with
  | 0 => some .none
  | 1 => match readIndex 8 f.first, readIndex 16 f.second with
    | some l, some t => some (.input l t)
    | _, _ => none
  | 2 => match readIndex 16 f.first, readIndex 12 f.second with
    | some b, some c => some (.premix b c)
    | _, _ => none
  | _ => none

/-- A destination, and `none` when its kind or number is outside its range. -/
def readDest (f : DestField) : Option Dest :=
  match f.kind.toNat with
  | 0 => some .none
  | 1 => (readIndex 16 f.number).map .premix
  | 2 => (readIndex 8 f.number).map .stem
  | _ => none

/-- A patch selection, and `none` when its kind or a parameter is outside its range (R160, R180). -/
def readSelection (e : PatchField) : Option Selection :=
  match e.kind.toNat with
  | 0 => some .silent
  | 1 => (readIndex 12 e.first).map .master
  | 2 => match readIndex 8 e.first, readIndex 12 e.second with
    | some st, some c => some (.stem st c)
    | _, _ => none
  | 3 => match readIndex 16 e.first, readIndex 12 e.second with
    | some b, some c => some (.premix b c)
    | _, _ => none
  | 4 => match readIndex 8 e.first, readIndex 16 e.second with
    | some l, some t => some (.input l t)
    | _, _ => none
  | _ => none

/-- A patch entry (R180). -/
def readPatch (e : PatchField) : Option PatchEntry :=
  (readSelection e).map fun sel => { selection := sel, safe0 := e.flags.getLsbD 0, safe1 := e.flags.getLsbD 1 }

/-! ### Values (R14, R178, R180) -/

/-- The 16-bit value at offsets 0 and 1. -/
def valueWord (v : Value13) : Nat := (join2 v[0] v[1]).toNat

/-- The signed delta at offsets 0 to 3. -/
def valueDelta (v : Value13) : Int := (join4 v[0] v[1] v[2] v[3]).toInt

/-- A weight as it is stored: above 16,384 it is taken as 16,384 (R14). -/
def clampWeight (w : Nat) : Nat := min w Config.unity

/-- A pan entry, its weight clamped, and `none` when the channel is above 11 (R14). -/
def readEntry (channel : Byte) (weight : BitVec 16) : Option PanEntry :=
  (readIndex 12 channel).map fun c => { channel := c, weight := clampWeight weight.toNat }

/-- Entries one by one, and `none` when any channel is above 11. -/
def readEntries : List (Byte × BitVec 16) → Option (List PanEntry)
  | [] => some []
  | (c, w) :: rest =>
    match readEntry c w, readEntries rest with
    | some e, some es => some (e :: es)
    | _, _ => none

/-- A pan field: its count byte, and the entries that the count covers, at most the four the field has
(R178, log 16). -/
structure PanField where
  count : Nat
  entries : Option (List PanEntry)
  deriving DecidableEq, Repr

/-- Reading a pan field (R178). -/
def readPan (v : Value13) : PanField :=
  { count := v[0].toNat,
    entries := readEntries (([(v[1], join2 v[2] v[3]), (v[4], join2 v[5] v[6]), (v[7], join2 v[8] v[9]),
      (v[10], join2 v[11] v[12])]).take v[0].toNat) }

/-- Whether no two entries name one channel (R6). -/
def distinctChannels (l : List PanEntry) : Bool := decide (l.map (·.channel)).Nodup

/-- The shape of a pan list: 1 to 4 entries with distinct channels (R6). -/
def panShaped (l : List PanEntry) : Bool := decide (1 ≤ l.length) && decide (l.length ≤ 4) && distinctChannels l

/-- The entries of a pan field, none when a channel is out of range. -/
def PanField.list (f : PanField) : List PanEntry := f.entries.getD []

/-- Whether a pan field has the shape of a pan list; its count is the list's length when it is 4 or less. -/
def PanField.shaped (f : PanField) : Bool := decide (f.count ≤ 4) && panShaped f.list

/-- Whether a carried pan equals a pan list, entry by entry in order after clamping (R23, R24). -/
def PanField.equals (f : PanField) (l : List PanEntry) : Bool := f.count == l.length && f.entries == some l

end Sys2Proof.Machine
end

