-- ==== Sys2Proof/Machine/Cells.lean ====
section
/-!
DEFINITION. Used values of strips (R7, R8) and coefficient cells: targets, ramps, retargets and cuts
(R33 to R41), and the hand-offs of the strip table and the bus table to the summing engine (R9, R10, R35).
-/
namespace Sys2Proof.Machine

/-! ### Used values -/

/-- The values the mix takes from a strip (R7). -/
structure Used where
  fader : Nat
  mute : Bool
  pan : List PanEntry
  deriving DecidableEq, Repr

/-- The trimmed fader: base times trim, rounded half upward at 16,384, clamped to 65,535 (R8). -/
def trimmed (base trim : Nat) : Nat := min Config.max16 ((base * trim + 8192) / 16384)

/-- The live values of a strip. -/
def Strip.live (r : Strip) : Used := { fader := r.fader, mute := r.mute, pan := r.pan }

/-- Shadow or live, each field on its own (R7). -/
def Strip.shadowed (r : Strip) : Used :=
  { fader := r.shadowFader.getD r.fader, mute := r.shadowMute.getD r.mute, pan := r.shadowPan.getD r.pan }

/-- WRITING or LATCHED. -/
def WriteState.punched : WriteState → Bool
  | .writing | .latched => true
  | .off | .wait | .ready => false

/-- The used values under a pass that is OPEN or not (R7). -/
def Strip.used (passOpen : Bool) (r : Strip) : Used :=
  if !passOpen then r.live
  else match r.mode with
    | .live => r.live
    | .playback => r.shadowed
    | .write | .touch | .latch => if r.writeState.punched then r.live else r.shadowed
    | .trim => { r.shadowed with fader := trimmed r.shadowed.fader r.trim }

/-- The used values of strip `n`. -/
def State.used (s : State) (n : StripNo) : Used := (s.strip n).used s.playback.passOpen

/-! ### Targets -/

/-- The width of a destination, `none` for NONE (R6). -/
def BusTable.destWidth (t : BusTable) : Dest → Option Nat
  | .none => none
  | .premix b => some t.premixWidth[b]
  | .stem _ => some t.masterWidth

/-- The width of bus `b`: the premix's own, or the master width for a stem (R51). -/
def BusTable.busWidth (t : BusTable) (b : BusNo) : Nat :=
  if h : b.val < 16 then t.premixWidth[b.val] else t.masterWidth

/-- The print flag of bus `b`, off for a premix (R69). -/
def BusTable.busPrint (t : BusTable) (b : BusNo) : Bool :=
  if b.val < 16 then false else t.print[b.val - 16]

/-- Whether every channel of a pan list is below the destination's width (R6). -/
def BusTable.panFits (t : BusTable) (d : Dest) (l : List PanEntry) : Bool :=
  match t.destWidth d with
  | none => true
  | some w => l.all fun e => decide (e.channel.val < w)

/-- Fader times weight, rounded half upward at 16,384 (R34). -/
def weighted (fader weight : Nat) : Nat := (fader * weight + 8192) / 16384

/-- The target of cell `c` for used values on a destination of width `w` (R34). -/
def targetOf (u : Used) (width : Option Nat) (c : Channel) : Nat :=
  if u.mute then 0
  else match width with
    | none => 0
    | some w =>
      if w ≤ c.val then 0
      else match u.pan.find? (·.channel == c) with
        | none => 0
        | some e => weighted u.fader e.weight

/-- The target of cell `c` of strip `n` (R34). -/
def State.target (s : State) (n : StripNo) (c : Channel) : Nat :=
  targetOf (s.used n) (s.busTable.destWidth (s.strip n).dest) c

/-- The target of the gain cell of bus `b` (R35). -/
def Bus.gainTarget (b : Bus) : Nat := if b.mute then 0 else b.gain

/-! ### Ramps -/

/-- A retarget to `t` with ramp length `len`; a cell whose target is `t` already is left (R36, R37). -/
def Cell.retarget (len t : Nat) (c : Cell) : Cell :=
  if c.target = t then c else { current := c.current, start := c.current, target := t, length := len, step := 0 }

/-- A cut to `t`: settled there at once, the ramp length left (R39). -/
def Cell.cut (t : Nat) (c : Cell) : Cell := { c with current := t, start := t, target := t, step := c.length }

/-- The step of stage 2: `start + trunc((target − start) × k / L)` at the next k; a settled cell keeps its
values (R38). -/
def Cell.advance (c : Cell) : Cell :=
  if c.step < c.length then
    { c with
      step := c.step + 1,
      current := ((c.start : Int) + Int.tdiv (((c.target : Int) - c.start) * (c.step + 1)) c.length).toNat }
  else c

/-- The twelve cells of strip `n`. -/
def State.cells (s : State) (n : StripNo) : Vector Cell 12 := s.engine.stripCells[n]

/-- The state with the cells of strip `n` changed by `f`, which sees the cell number. -/
def State.modCells (s : State) (n : StripNo) (f : Channel → Cell → Cell) : State :=
  { s with engine := { s.engine with
      stripCells := upd s.engine.stripCells n fun v => Vector.ofFn fun c => f c v[c] } }

/-- A retarget of strip `n`: every cell whose target changed starts a new ramp (R36). -/
def retargetStrip (n : StripNo) (s : State) : State :=
  s.modCells n fun c => Cell.retarget s.engine.rampLength (s.target n c)

/-- A cut of strip `n`: the cells given, each at the target that the record forms (R39). -/
def cutStrip (n : StripNo) (cells : Vector Cell 12) (s : State) : State :=
  s.modCells n fun c _ => Cell.cut (s.target n c) cells[c]

/-- A retarget of the gain cell of bus `b`, when its target changed (R35). -/
def retargetGain (b : BusNo) (s : State) : State :=
  { s with engine := { s.engine with
      gainCells := upd s.engine.gainCells b (Cell.retarget s.engine.rampLength (s.bus b).gainTarget) } }

/-- The hand-off of R9: a retarget of strip `n` when a used value differs from `before`. -/
def handRetarget (before : State) (n : StripNo) (s : State) : State :=
  if s.used n = before.used n then s else retargetStrip n s

/-- Whether source, destination or polarity differ (R10). -/
def routeChanged (old new : Strip) : Bool :=
  old.source != new.source || old.dest != new.dest || old.inverted != new.inverted

/-- The hand-off of R10 at the end of a request: where it changed the route or polarity of strip `n` the cells
that stood before it are cut to the targets of the record as it stands after it, in place of every retarget that
the request handed. -/
def handCut (before : State) (n : StripNo) (s : State) : State :=
  if routeChanged (before.strip n) (s.strip n) then cutStrip n (before.cells n) s else s

/-- The hand-off of every strip whose used values differ from `before`, in strip number order (R110, R111). -/
def handEvery (before : State) (s : State) : State := eachStrip (handRetarget before) s

/-- A width change: every strip that `concerns` is retargeted under the new width (R36, R49). -/
def retargetWhere (concerns : Dest → Bool) (s : State) : State :=
  eachStrip (fun n t => if concerns (t.strip n).dest then retargetStrip n t else t) s

end Sys2Proof.Machine
end

