-- ==== Sys2Proof/Machine/Writing.lean ====
section
/-!
DEFINITION. Automation writing: the take queue (R140 to R142), arming and triggers (R126, R127, R129), the
write state machine (R132 to R134), punch-in and punch-out (R136, R137, R139), a mode change (R26, R130,
R131), watch reports (R84), and the effects of an accepted change of a strip (R15).
-/
namespace Sys2Proof.Machine

/-! ### The take queue -/

/-- A take record queued at the tail, or dropped at a full queue with the lost count and LOST raised; HIGH is
raised when the append crosses the high mark (R141, R142). -/
def appendTake (r : TakeRecord) (s : State) : State :=
  let w := s.writing
  if w.takes.length < Config.queueSize then
    let t := { s with writing := { w with takes := w.takes ++ [r] } }
    if w.takes.length < s.playback.highMark ∧ s.playback.highMark ≤ w.takes.length + 1 then
      raiseAtRole .high w.takePort t
    else t
  else
    raiseAtRole .lost w.takePort { s with writing := { w with lost := saturate Config.max16 (w.lost + 1) } }

/-! ### Arming and triggers -/

/-- WRITE, TOUCH, LATCH or TRIM (R126). -/
def Mode.writes : Mode → Bool
  | .write | .touch | .latch | .trim => true
  | .live | .playback => false

/-- Strip `n` is armed: the pass is OPEN and its mode writes (R126). -/
def State.armed (s : State) (n : StripNo) : Bool := s.playback.passOpen && (s.strip n).mode.writes

/-- The trigger of strip `n` (R127). -/
def State.trigger (s : State) (n : StripNo) : Bool :=
  match (s.strip n).mode with
  | .write => s.timeline.counting
  | .touch | .latch | .trim =>
    (s.strip n).toucher.isSome || ((s.strip n).linePunch && s.timeline.punch.filtered)
  | .live | .playback => false

/-- The state with the write state of strip `n` set. -/
def setWriteState (n : StripNo) (ws : WriteState) (s : State) : State :=
  s.modStrip n fun r => { r with writeState := ws }

/-- The write state a strip takes as its trigger stands: WAIT or READY (R129, R134). -/
def State.armedState (s : State) (n : StripNo) : WriteState := if s.trigger n then .wait else .ready

/-! ### Punching in and out -/

/-- The pan that a punch-in loads: the used pan less its entries at or beyond the destination width; when all
are left out, the live pan keeps its value (R6, R136). -/
def loadedPan (width : Option Nat) (live used : List PanEntry) : List PanEntry :=
  match width with
  | none => used
  | some w =>
    let kept := used.filter fun e => decide (e.channel.val < w)
    if kept.isEmpty then live else kept

/-- The strip record as a punch-in loads it (R136). -/
def State.loaded (s : State) (n : StripNo) : Strip :=
  let r := s.strip n
  let u := s.used n
  { r with
    fader := u.fader, mute := u.mute, pan := loadedPan (s.busTable.destWidth r.dest) r.pan u.pan,
    writeState := .writing }

/-- The PUNCH-IN record of strip `n` with record `r` (R137). -/
def punchInRecord (frame : Nat) (n : StripNo) (r : Strip) : TakeRecord :=
  .punchIn frame n (if r.mode = .write then none else r.toucher) r.mode r.fader r.mute r.pan
    (if r.mode = .trim then some Config.unity else none)

/-- Strip `n` punches in: live fields loaded, WRITING, PUNCH-IN queued, a retarget where a used value changed
(R136, R137). -/
def punchIn (n : StripNo) (s : State) : State :=
  let r := s.loaded n
  handRetarget s n (appendTake (punchInRecord s.timeline.counter n r) (s.setStrip n r))

/-- Steps 1 to 3 of a punch-out of a punch made in `mode`: PUNCH-OUT queued, a TRIM strip's trim returned, the
write state set (R139). -/
def endPunch (reason : PunchReason) (mode : Mode) (n : StripNo) (ws : WriteState) (s : State) : State :=
  (appendTake (.punchOut s.timeline.counter n reason) s).modStrip n fun r =>
    { r with trim := if mode = .trim then Config.unity else r.trim, writeState := ws }

/-- A punch-out of strip `n` with its retarget (R139). -/
def punchOut (reason : PunchReason) (n : StripNo) (ws : WriteState) (s : State) : State :=
  handRetarget s n (endPunch reason (s.strip n).mode n ws s)

/-! ### The write state machine -/

/-- The trigger of armed strip `n` becomes active (R132). -/
def triggerRise (n : StripNo) (s : State) : State :=
  match (s.strip n).writeState with
  | .ready => if s.timeline.counting then punchIn n s else setWriteState n .wait s
  | .latched => if s.timeline.counting then setWriteState n .writing s else s
  | .off | .wait | .writing => s

/-- The trigger of armed strip `n` becomes inactive by a touch or line change (R133). -/
def triggerFall (n : StripNo) (s : State) : State :=
  match (s.strip n).writeState, (s.strip n).mode with
  | .wait, _ => setWriteState n .ready s
  | .writing, .touch | .writing, .trim => punchOut .release n .ready s
  | .writing, .latch => setWriteState n .latched s
  | _, _ => s

/-- A hand-off of an input of the trigger of strip `n`, which stood as in `before`: the writing block acts only
when the strip is armed and its trigger differs (R127). -/
def triggerChange (before : State) (n : StripNo) (s : State) : State :=
  if s.armed n && before.trigger n != s.trigger n then
    if s.trigger n then triggerRise n s else triggerFall n s
  else s

/-- A fall of counting reaches strip `n` (R134). -/
def fallStrip (reason : PunchReason) (n : StripNo) (s : State) : State :=
  if s.armed n then
    match (s.strip n).writeState with
    | .writing | .latched => punchOut reason n (s.armedState n) s
    | .wait => if (s.strip n).mode = .write then setWriteState n .ready s else s
    | .off | .ready => s
  else s

/-- A rise of counting reaches strip `n` (R134). -/
def riseStrip (n : StripNo) (s : State) : State :=
  if s.armed n && decide ((s.strip n).mode = .write) && decide ((s.strip n).writeState = .ready) then punchIn n s
  else s

/-- The toucher of strip `n` becomes `t`, with the trigger change that follows (R81). -/
def changeToucher (n : StripNo) (t : Option PortId) (s : State) : State :=
  triggerChange s n (s.modStrip n fun r => { r with toucher := t })

/-- The mode of strip `n` becomes `m`: a punch in progress ends with MODE-CHANGE, the strip is armed afresh or
goes OFF, and its used values are recomputed under the new mode (R26, R130, R131, R139). -/
def changeMode (n : StripNo) (m : Mode) (s : State) : State :=
  let old := s.strip n
  if old.mode = m then s
  else
    let s1 := s.modStrip n fun r => { r with mode := m }
    let ws := if s1.armed n then s1.armedState n else .off
    let s2 := if s.armed n && old.writeState.punched then endPunch .modeChange old.mode n ws s1
      else setWriteState n ws s1
    handRetarget s n s2

/-! ### Accepted changes (R15) -/

/-- A watch list after a report of a change of strip `n` by port `p` (R84). -/
def hitWatches (p : PortId) (n : StripNo) (l : List Watch) : List Watch :=
  l.map fun w => if w.strip = n then { w with hit := true, mover := some p } else w

/-- A port other than the requester takes a report (R84). -/
def PortState.reported (p : PortId) (n : StripNo) (q : PortState) : PortState :=
  if q.attached && q.watches.any (fun w => decide (w.strip = n)) then
    PortState.raised .watch { q with watches := hitWatches p n q.watches }
  else q

/-- The report of a change of strip `n` by port `p` to the position state (R84). -/
def report (p : PortId) (n : StripNo) (s : State) : State :=
  s.mapPorts fun q qs => if q = p then qs else qs.reported p n

/-- The MOVE records of the written fields, in order, when the strip was punched in (R138). -/
def recordMoves (p : PortId) (n : StripNo) (written : List FieldValue) (s : State) : State :=
  written.foldl (fun t v => appendTake (.move t.timeline.counter n p v) t) s

/-- The effects of an accepted change by port `p` of strip `n` to record `r`, but for a cut: the record is written,
the engine is handed a retarget, MOVE records of the written automated fields are queued while the strip is WRITING
or LATCHED, the change is reported, and the trigger change follows (R15, log 21).

DEDUCED, unsafe (log 21): the trigger change comes after the record is written, so where a line punch turned on
punches in a READY strip, R136 then loads the live fields from the used values. That holds for SET-STRIP too, of which
R25 says that a read returns the carried values. -/
def writeChange (p : PortId) (n : StripNo) (r : Strip) (written : List FieldValue) (reported : Bool) (s : State) :
    State :=
  let s1 := handRetarget s n (s.setStrip n r)
  let s2 := if (s.strip n).writeState.punched then recordMoves p n written s1 else s1
  let s3 := if reported then report p n s2 else s2
  triggerChange s n s3

/-- A whole request that changes strip `n` and leaves its mode: the change, and the cut of a changed route or
polarity to the record after it (R10, R15). -/
def commit (p : PortId) (n : StripNo) (r : Strip) (written : List FieldValue) (reported : Bool) (s : State) : State :=
  handCut s n (writeChange p n r written reported s)

end Sys2Proof.Machine
end

