-- ==== Sys2Proof/Machine/Playing.lean ====
section
/-!
DEFINITION. Automation playback: applying cues (R118), the arrival and boundary scans (R117, R119, R120),
flushes (R122), the examination of a cue (R116), and the opening, closing and discarding of a pass
(R109 to R113, R145).
-/
namespace Sys2Proof.Machine

/-- The state with another cue queue. -/
def State.withCues (s : State) (q : List Cue) : State := { s with playback := { s.playback with cues := q } }

/-- Frame `f` is behind frame `g` in the current direction (R116). -/
def behind (reverse : Bool) (f g : Nat) : Bool := if reverse then decide (g < f) else decide (f < g)

/-- The stale count increased by one (R124). -/
def countStale (s : State) : State :=
  { s with playback := { s.playback with stale := saturate Config.max16 (s.playback.stale + 1) } }

/-- A strip record with one shadow field set (R118). A cue has no TRIM value. -/
def Strip.setShadow (v : FieldValue) (r : Strip) : Strip :=
  match v with
  | .fader f => { r with shadowFader := some f }
  | .mute m => { r with shadowMute := some m }
  | .pan l => { r with shadowPan := some l }
  | .trim _ => r

/-- A cue applied: one shadow field set, and a retarget where a used value changed (R3, R118). -/
def applyCue (c : Cue) (s : State) : State :=
  handRetarget s c.strip (s.modStrip c.strip (Strip.setShadow c.value))

/-- The arrival scan over the queue `q` (R117). -/
def arrivalScan : List Cue → State → State
  | [], s => s.withCues []
  | c :: rest, s =>
    if c.frame = s.timeline.counter then arrivalScan rest (applyCue c s) else s.withCues (c :: rest)

/-- The boundary scan over the queue `q` (R119). -/
def boundaryHeads : List Cue → State → State
  | [], s => s.withCues []
  | c :: rest, s =>
    if behind s.timeline.reverse c.frame s.timeline.counter then boundaryHeads rest (countStale s)
    else if c.frame = s.timeline.counter then boundaryHeads rest (applyCue c s)
    else s.withCues (c :: rest)

/-- The boundary scan, with LOW raised when it takes the count from at or above the low mark to below it
(R119, R120). -/
def boundaryScan (s : State) : State :=
  let t := boundaryHeads s.playback.cues s
  if s.playback.lowMark ≤ s.playback.cues.length ∧ t.playback.cues.length < s.playback.lowMark then
    raiseAtRole .low s.playback.passPort t
  else t

/-- A flush from the timeline: the queue emptied, STREAM at the pass port while the pass is OPEN (R122). -/
def flushFromTimeline (s : State) : State :=
  let t := s.withCues []
  if s.playback.passOpen then raiseAtRole .stream s.playback.passPort t else t

/-! ### Cues on arrival -/

/-- A cue as read from its bytes, and whether a pan value has the shape of a pan list. -/
structure ReadCue where
  cue : Cue
  shaped : Bool
  deriving DecidableEq, Repr

/-- The value of a cue, and `none` when its field code, mute or a pan channel is out of range (R116 step 1,
R180); the flag tells whether a pan has the shape of a pan list. -/
def readCueValue (field : Byte) (v : Value13) : Option (FieldValue × Bool) :=
  match field.toNat with
  | 0 => some (.fader (valueWord v), true)
  | 1 => (readFlag v[0]).map fun m => (.mute m, true)
  | 2 => (readPan v).entries.map fun l => (.pan l, (readPan v).shaped)
  | _ => none

/-- Step 1 of the examination of a cue (R116). -/
def readCue (c : CueField) : Option ReadCue :=
  if c.frame.toNat ≤ Config.maxFrame then
    match readIndex 160 c.strip, readCueValue c.field c.value with
    | some n, some (v, shaped) => some { cue := { frame := c.frame.toNat, strip := n, value := v }, shaped }
    | _, _ => none
  else none

/-- What R116 makes of one cue of a CUE: refused or dropped with a status, or taken. -/
def examineCue (c : CueField) (s : State) : Option Status :=
  match readCue c with
  | none => some .range
  | some rc =>
    let q := s.playback.cues
    firstFailure
      [ failIf (match q.getLast? with
          | some tail => behind s.timeline.reverse rc.cue.frame tail.frame
          | none => false) .order,
        failIf (q.isEmpty && behind s.timeline.reverse rc.cue.frame s.timeline.counter) .late,
        failIf (!rc.shaped) .shape,
        failIf (decide (Config.queueSize ≤ q.length)) .full ]

/-- A cue appended at the tail, then the arrival scan (R116 step 6, R117). -/
def queueCue (c : Cue) (s : State) : State := arrivalScan (s.playback.cues ++ [c]) s

/-- The cues of a CUE examined in order: the status of the request, the number taken, and the state (R115,
R116). The first cue refused or dropped ends the request; a LATE drop counts as stale. -/
def takeCues : List CueField → Nat → State → Status × Nat × State
  | [], taken, s => (.ok, taken, s)
  | c :: rest, taken, s =>
    match examineCue c s, readCue c with
    | none, some rc => takeCues rest (taken + 1) (queueCue rc.cue s)
    | some .late, _ => (.late, taken, countStale s)
    | some st, _ => (st, taken, s)
    | none, none => (.range, taken, s)

/-! ### The pass -/

/-- The opening of the pass reaches strip `n`: a strip whose mode writes is armed (R110, R129). -/
def armStrip (n : StripNo) (s : State) : State :=
  if s.armed n then setWriteState n (s.armedState n) s else s

/-- An accepted OPEN-PASS by port `p` (R109, R110, R143). -/
def openPassBy (p : PortId) (low high : Nat) (s : State) : State :=
  let t := { s with
    playback := { s.playback with
      passOpen := true, passPort := some p, lowMark := min low Config.queueSize,
      highMark := min high Config.queueSize, stale := 0 },
    writing := { s.writing with takePort := some p, lost := 0 } }
  handEvery s (eachStrip armStrip t)

/-- The close reaches strip `n`: an armed strip punches out with PASS-CLOSE if it is writing, and goes to OFF;
its used values wait for the closed pass (R111 step 2, R130, R139). -/
def disarmStrip (n : StripNo) (s : State) : State :=
  if s.armed n then
    if (s.strip n).writeState.punched then endPunch .passClose (s.strip n).mode n .off s
    else setWriteState n .off s
  else s

/-- The take port after a close or a TAKE: none once the queue of a closed pass is empty (R112, R144). -/
def Writing.settled (w : Writing) : Writing := if w.takes.isEmpty then { w with takePort := none } else w

/-- The close of the pass (R111, R112). -/
def closePassNow (s : State) : State :=
  let s1 := eachStrip disarmStrip (s.withCues [])
  let s2 := { s1 with writing := s1.writing.settled }
  let s3 := { s2 with playback := { s2.playback with passOpen := false, passPort := none } }
  handEvery s s3

/-- The take queue discarded, each record counted lost, and the take port none (R113, R145). -/
def discardTakes (s : State) : State :=
  { s with writing :=
      { takes := [], takePort := none, lost := saturate Config.max16 (s.writing.lost + s.writing.takes.length) } }

end Sys2Proof.Machine
end

