-- ==== Sys2Proof/Machine/Moving.lean ====
section
/-!
DEFINITION. The timeline: line filters (R93), counting (R97), locates, loop wraps and direction changes
(R100, R102, R104), frame boundaries (R99), and the timeline's sample period (R98).
-/
namespace Sys2Proof.Machine

/-- Samples per frame (R96, R148). -/
def samplesPerFrame : SampleRate → FrameRate → Nat
  | .k48, .fps24 => 2000 | .k48, .fps25 => 1920 | .k48, .fps30 => 1600
  | .k96, .fps24 => 4000 | .k96, .fps25 => 3840 | .k96, .fps30 => 3200

/-- SPF at the rates in force. -/
def State.spf (s : State) : Nat := samplesPerFrame s.audio.rate s.timeline.rate

/-- The state with the timeline changed by `f`. -/
def State.modTimeline (s : State) (f : Timeline → Timeline) : State := { s with timeline := f s.timeline }

/-- The sensed state of a line at a level (R92). -/
def LineRecord.sensed (l : LineRecord) (level : Bool) : Bool := level != l.activeLow

/-- A line takes its level at a sample period and filters it (R93). -/
def LineRecord.sample (level : Bool) (l : LineRecord) : LineRecord :=
  if l.sensed level = l.filtered then { l with raw := level, count := 0 }
  else if l.count + 1 < l.filter then { l with raw := level, count := l.count + 1 }
  else { l with raw := level, count := 0, filtered := l.sensed level }

/-- Whether the filtered state of a line changes at a sample period with this level (R93). -/
def LineRecord.changes (level : Bool) (l : LineRecord) : Bool := (l.sample level).filtered != l.filtered

/-- Counting recomputed from filtered ROLL and the settle, a rise or a fall with its reason handed to the
writing block (R97, R134). -/
def recount (reason : PunchReason) (s : State) : State :=
  let c := s.timeline.roll.filtered && s.timeline.settle == 0
  if c = s.timeline.counting then s
  else
    let t := s.modTimeline fun tl => { tl with counting := c }
    if c then eachStrip riseStrip t else eachStrip (fallStrip reason) t

/-- A locate to a frame: counter, phase and settle set, the cue queue flushed, and the fall of counting handed
with its reason (R100, R102, R104, R182). -/
def locateTo (frame : Nat) (reason : PunchReason) (s : State) : State :=
  recount reason (flushFromTimeline
    (s.modTimeline fun tl => { tl with counter := frame, phase := 0, settle := 2 * s.spf }))

/-- A direction change: the direction follows filtered REV, then a locate to the frame held (R104). -/
def turn (s : State) : State :=
  locateTo s.timeline.counter .direction (s.modTimeline fun tl => { tl with reverse := tl.rev.filtered })

/-- The counter one frame on in the current direction, held at its ends (R99). -/
def nextFrame (reverse : Bool) (counter : Nat) : Nat :=
  if reverse then counter - 1 else min Config.maxFrame (counter + 1)

/-- Whether a frame boundary would be a loop wrap (R100). -/
def Timeline.wraps (t : Timeline) : Bool := !t.reverse && t.loopEnabled && t.counter == t.loopEnd

/-- A frame boundary: a loop wrap (R100), or a move of one frame that is handed to the cue queue (R99). -/
def boundary (s : State) : State :=
  if s.timeline.wraps then raiseEverywhere .loop (locateTo s.timeline.loopStart .loop s)
  else boundaryScan (s.modTimeline fun tl => { tl with phase := 0, counter := nextFrame tl.reverse tl.counter })

/-- Step 4 of the timeline's sample period, when no direction change was made (R98). -/
def advanceTimeline (s : State) : State :=
  if 0 < s.timeline.settle then
    recount .rollStop (s.modTimeline fun tl => { tl with settle := tl.settle - 1 })
  else if s.timeline.roll.filtered then
    if s.spf ≤ s.timeline.phase + 1 then boundary s
    else s.modTimeline fun tl => { tl with phase := tl.phase + 1 }
  else s

/-- A change of filtered PUNCH reaches strip `n`: an armed strip in TOUCH, LATCH or TRIM mode whose line punch
is on (R95, R127). `before` holds the line as it stood. -/
def punchLineStrip (before : State) (n : StripNo) (s : State) : State :=
  if (s.strip n).linePunch && decide ((s.strip n).mode ≠ .write) then
    triggerChange { s with timeline := before.timeline } n s
  else s

/-- Step 5: filtered PUNCH takes its new state, and the change is handed to the writing block (R95, R98). -/
def handPunch (filtered : Bool) (s : State) : State :=
  eachStrip (punchLineStrip s) (s.modTimeline fun tl => { tl with punch := { tl.punch with filtered } })

/-- Step 1: the lines take their levels and filter them. The filtered state of PUNCH is handed at step 5, so
until then the writing block sees it as it stood (R98). -/
def filterLines (v : LineLevels) (t : Timeline) : Timeline :=
  { t with
    roll := t.roll.sample v.roll, rev := t.rev.sample v.rev,
    punch := { t.punch.sample v.punch with filtered := t.punch.filtered } }

/-- The timeline's sample period (R98). -/
def timelinePeriod (v : LineLevels) (s : State) : State :=
  let old := s.timeline
  let s1 := s.modTimeline (filterLines v)
  let s2 := if old.rev.changes v.rev then turn s1 else s1
  let s3 := if old.roll.changes v.roll then recount .rollStop s2 else s2
  let s4 := if old.rev.changes v.rev then s3 else advanceTimeline s3
  if old.punch.changes v.punch then handPunch (old.punch.sample v.punch).filtered s4 else s4

/-- Whether the settle ends at a sample period with these levels (R98 step 4, R103). -/
def settleEnds (v : LineLevels) (t : Timeline) : Bool := !t.rev.changes v.rev && t.settle == 1

/-- Whether a sample period with these levels is a frame boundary (R98 step 4, R99). -/
def reachesBoundary (v : LineLevels) (s : State) : Bool :=
  !s.timeline.rev.changes v.rev && s.timeline.settle == 0 && (s.timeline.roll.sample v.roll).filtered
    && decide (s.spf ≤ s.timeline.phase + 1)

/-- The record of a stage line. -/
def Timeline.line (t : Timeline) : Line → LineRecord
  | .roll => t.roll | .rev => t.rev | .punch => t.punch

/-- The timeline with the record of a stage line replaced. -/
def Timeline.setLine (t : Timeline) (l : Line) (r : LineRecord) : Timeline :=
  match l with
  | .roll => { t with roll := r } | .rev => { t with rev := r } | .punch => { t with punch := r }

/-- The level of a stage line. -/
def levelOf (v : LineLevels) : Line → Bool
  | .roll => v.roll | .rev => v.rev | .punch => v.punch

end Sys2Proof.Machine
end

