-- ==== Sys2Proof/Machine/Wire.lean ====
section
/-!
DEFINITION. The bytes of replies: the records and read replies of R178 to R181.
-/
namespace Sys2Proof.Machine

/-- A value on one byte. -/
def w1 (n : Nat) : Byte := BitVec.ofNat 8 n

/-- A value on two bytes, big-endian. -/
def w2 (n : Nat) : List Byte := bytes2 (BitVec.ofNat 16 n)

/-- A value on three bytes, big-endian. -/
def w3 (n : Nat) : List Byte := [BitVec.ofNat 8 (n / 65536), BitVec.ofNat 8 (n / 256), BitVec.ofNat 8 n]

/-- A value on four bytes, big-endian. -/
def w4 (n : Nat) : List Byte := bytes4 (BitVec.ofNat 32 n)

/-- A two-valued field. -/
def wFlag (b : Bool) : Byte := if b then 1 else 0

/-- A port field: FF for none (R178). -/
def wPort : Option PortId → Byte
  | some p => w1 p.val
  | none => 0xFF

/-- A list of bytes with 0 for its unused bytes, up to `n` (R178). -/
def padded (n : Nat) (l : List Byte) : List Byte := (l ++ List.replicate n 0).take n

/-- Flags as a bit field in one byte, bit 0 first. -/
def wBits (l : List Bool) : Byte := (BitVec.ofBoolListLE l).setWidth 8

/-- A pan field of 13 bytes (R178). -/
def wPan (l : List PanEntry) : List Byte :=
  padded 13 (w1 l.length :: l.flatMap fun e => w1 e.channel.val :: w2 e.weight)

/-- A source field (R178). -/
def wSource : Source → List Byte
  | .none => [0, 0, 0]
  | .input l t => [1, w1 l.val, w1 t.val]
  | .premix b c => [2, w1 b.val, w1 c.val]

/-- A destination field (R178). -/
def wDest : Dest → List Byte
  | .none => [0, 0]
  | .premix b => [1, w1 b.val]
  | .stem t => [2, w1 t.val]

/-- The 13-byte value of a field (R180). -/
def wValue : FieldValue → List Byte
  | .fader v => padded 13 (w2 v)
  | .trim v => padded 13 (w2 v)
  | .mute m => padded 13 [wFlag m]
  | .pan l => wPan l

/-- The strip record of READ-RUN and READ-NEXT, 43 bytes (R179). -/
def wStrip (n : StripNo) (r : Strip) : List Byte :=
  [wBits [true, r.shadowFader.isSome, r.shadowMute.isSome, r.shadowPan.isSome, r.mute, r.shadowMute.getD false,
      r.inverted, r.linePunch], w1 n.val]
    ++ wSource r.source ++ wDest r.dest ++ w2 r.fader ++ w2 r.trim ++ w2 (r.shadowFader.getD 0)
    ++ [w1 r.mode.code, w1 r.writeState.code, wPort r.holder, wPort r.toucher] ++ wPan r.pan
    ++ (match r.shadowPan with
      | some l => wPan l
      | none => List.replicate 13 0)

/-- The empty record: every byte 0 (R171). -/
def wNoStrip : List Byte := List.replicate 43 0

/-- The record that surface number `n` reads through the windows of a port (R171). -/
def wSurface (s : State) (q : PortState) (n : Nat) : List Byte :=
  match reach q n with
  | .ok k => wStrip k (s.strip k)
  | .error _ => wNoStrip

/-- A cell, 10 bytes (R179). -/
def wCell (c : Cell) : List Byte := w2 c.current ++ w2 c.start ++ w2 c.target ++ w2 c.length ++ w2 c.step

/-- A bus record, 9 bytes (R179). -/
def wBus (t : BusTable) (b : BusNo) : List Byte :=
  [w1 b.val, if b.val < 16 then 0 else 1, w1 (t.busWidth b)] ++ w2 t.buses[b].gain
    ++ [wFlag t.buses[b].mute, wFlag (t.busPrint b), wPort t.buses[b].holder, wFlag t.buses[b].clip]

/-- A watch entry, 3 bytes (R179). -/
def wWatch (w : Watch) : List Byte := [w1 w.strip.val, wFlag w.hit, wPort w.mover]

/-- The four windows, 6 bytes each (R168, R179). -/
def wWindows (q : PortState) : List Byte :=
  (List.finRange 4).flatMap fun i =>
    let w := q.windows[i]
    [w1 i.val, wFlag w.enabled, w1 w.first, w1 w.last, w1 w.base.val, wFlag w.viewOnly]

/-- The code of a stage line (R178). -/
def lineCode : Line → Nat
  | .roll => 0 | .rev => 1 | .punch => 2

/-- A line record, 6 bytes (R179). -/
def wLine (t : Timeline) (l : Line) : List Byte :=
  let r := t.line l
  [w1 (lineCode l), wFlag r.raw, wFlag r.activeLow, w1 r.filter, w1 r.count, wFlag r.filtered]

/-- Frames per second. -/
def FrameRate.fps : FrameRate → Nat
  | .fps24 => 24 | .fps25 => 25 | .fps30 => 30

/-- The sample rate in kHz. -/
def kiloHertz : SampleRate → Nat
  | .k48 => 48 | .k96 => 96

/-- The timeline reply, 39 bytes (R181). -/
def wTimeline (s : State) : List Byte :=
  let t := s.timeline
  w4 t.counter ++ w2 t.phase ++ [w1 t.rate.fps, w1 (kiloHertz s.audio.rate), wFlag t.counting] ++ w2 t.settle
    ++ [wFlag t.reverse] ++ w4 t.loopStart ++ w4 t.loopEnd ++ [wFlag t.loopEnabled]
    ++ wLine t .roll ++ wLine t .rev ++ wLine t .punch

/-- A frame that may be absent: a presence byte, then the frame or 0 (R181). -/
def wFrame : Option Cue → List Byte
  | some c => 1 :: w4 c.frame
  | none => 0 :: w4 0

/-- The pass reply, 25 bytes (R181). -/
def wPass (s : State) : List Byte :=
  let b := s.playback
  [wFlag b.passOpen, wPort b.passPort, wPort s.writing.takePort] ++ w2 b.cues.length ++ w2 s.writing.takes.length
    ++ w2 b.lowMark ++ w2 b.highMark ++ w2 b.stale ++ w2 s.writing.lost ++ wFrame b.cues.head? ++ wFrame b.cues.getLast?

/-- The field code of a value (R178). -/
def FieldValue.code : FieldValue → Nat
  | .fader _ => 0 | .mute _ => 1 | .pan _ => 2 | .trim _ => 3

/-- The code of a punch-out reason (R178). -/
def PunchReason.code : PunchReason → Nat
  | .release => 0 | .rollStop => 1 | .locate => 2 | .loop => 3 | .direction => 4 | .modeChange => 5 | .passClose => 6

/-- A take record, 28 bytes (R180). -/
def wTake : TakeRecord → List Byte
  | .punchIn frame n port mode fader mute pan trim =>
    [1] ++ w4 frame ++ [w1 n.val, wPort port, w1 mode.code] ++ w2 fader ++ [wFlag mute, wFlag trim.isSome]
      ++ w2 (trim.getD 0) ++ wPan pan ++ [0]
  | .move frame n port value =>
    padded 28 ([2] ++ w4 frame ++ [w1 n.val, w1 port.val, w1 value.code] ++ wValue value)
  | .punchOut frame n reason => padded 28 ([3] ++ w4 frame ++ [w1 n.val, 0xFF, w1 reason.code])

/-- A patch entry, 4 bytes (R180). -/
def wPatch (e : PatchEntry) : List Byte :=
  (match e.selection with
    | .silent => [0, 0, 0]
    | .master c => [1, w1 c.val, 0]
    | .stem t c => [2, w1 t.val, w1 c.val]
    | .premix b c => [3, w1 b.val, w1 c.val]
    | .input l t => [4, w1 l.val, w1 t.val])
    ++ [wBits [e.safe0, e.safe1]]

/-- Entries of the patch from number `first`, each with its number, after their count (R160, R161). -/
def wPatches (patch : Vector PatchEntry 128) (first count : Nat) : List Byte :=
  w1 count :: (List.range' first count).flatMap fun i =>
    if h : i < 128 then w1 i :: wPatch patch[i] else []

/-- A meter: value on three bytes, hold count on one (R181). -/
def wMeter (m : Meter) : List Byte := w3 m.value ++ [w1 m.hold]

/-- The clip set on four bytes (R178). -/
def wClips (t : BusTable) : List Byte := bytes4 t.clipSet

/-- The meter reply, 438 bytes (R181). -/
def wMeters (t : BusTable) : List Byte :=
  [w1 t.masterWidth, w1 t.holdSetting] ++ t.stemMeters.toList.flatMap wMeter ++ t.masterMeters.toList.flatMap wMeter
    ++ wClips t

/-- The lane reply, 22 bytes (R181). -/
def wLanes (a : Audio) : List Byte :=
  [w1 (kiloHertz a.rate), wFlag a.locked, w1 a.lockCount, w1 a.missing]
    ++ a.lanes.toList.flatMap (fun l => [wFlag l.up, w1 l.markers]) ++ [wFlag a.trigger0, wFlag a.trigger1]

/-- A set of reasons on two bytes (R178). -/
def wReasons (r : BitVec 12) : List Byte := bytes2 (r.setWidth 16)

end Sys2Proof.Machine
end

