-- ==== Sys2Proof/Machine/Strips.lean ====
section
/-!
DEFINITION. The requests of the strip table and the cells: MOVE, FLAGS, SET-ROUTE, SET-STRIP, SET-MODE,
READ-RUN, READ-NEXT, READ-CELLS and SET-RAMP.
-/
namespace Sys2Proof.Machine

/-! ### Acceptance (R12 to R14) -/

/-- Whether automated fields go to the live values: the first three rows of R13. -/
def liveOpen (passOpen : Bool) (r : Strip) : Bool :=
  !passOpen || r.mode == .live || (r.writeState.punched && (r.mode == .write || r.mode == .touch || r.mode == .latch))

/-- Whether a MOVE of FADER goes to the trim: the TRIM row of R13. -/
def trimOpen (passOpen : Bool) (r : Strip) : Bool := passOpen && r.mode == .trim && r.writeState == .writing

/-- A fader or trim plus a delta, clamped to 0 to 65,535 (R16, R17). -/
def clampAdd (v : Nat) (d : Int) : Nat := min Config.max16 ((v : Int) + d).toNat

/-- The strip record with one field written. -/
def Strip.write (v : FieldValue) (r : Strip) : Strip :=
  match v with
  | .fader f => { r with fader := f }
  | .mute m => { r with mute := m }
  | .pan l => { r with pan := l }
  | .trim t => { r with trim := t }

/-- A pan list as a result: SHAPE unless it is a pan list that fits the destination (R14). -/
def checkedPan (t : BusTable) (d : Dest) (l : List PanEntry) : Except Status FieldValue :=
  if panShaped l && t.panFits d l then .ok (.pan l) else .error .shape

/-! ### MOVE (R16 to R20) -/

/-- Whether a posted change was refused counts at its port: the posted refusal count rises and REFUSED is
raised (R172). -/
def countRefusal (p : PortId) (s : State) : State :=
  s.modPort p fun q => PortState.raised .refused { q with refusals := saturate 255 (q.refusals + 1) }

/-- Step 4 for a MOVE (R13). -/
def moveAutomated (passOpen : Bool) (r : Strip) (field : Option MoveField) : Bool :=
  match field with
  | none => false
  | some .fader => !(liveOpen passOpen r || trimOpen passOpen r)
  | some _ => !liveOpen passOpen r

/-- A MOVE of FADER writes the live fader, or the trim where R17 applies. -/
def faderWrite (passOpen : Bool) (r : Strip) (f : Nat → Nat) : FieldValue :=
  if trimOpen passOpen r then .trim (f r.trim) else .fader (f r.fader)

/-- The result of a MOVE of PAN-ENTRY (R19). -/
def panEntryResult (t : BusTable) (r : Strip) (k : Nat) (value : Value13) : Except Status FieldValue :=
  if 3 < k ∨ r.pan.length < k then .error .range
  else match readFlag value[3] with
    | none => .error .range
    | some true =>
      if k = r.pan.length then .error .range
      else if r.pan.length = 1 then .error .shape
      else .ok (.pan (r.pan.eraseIdx k))
    | some false =>
      match readEntry value[0] (join2 value[1] value[2]) with
      | none => .error .range
      | some e => checkedPan t r.dest (if k < r.pan.length then r.pan.set k e else r.pan ++ [e])

/-- Step 5 of a MOVE with REPLACE (R14, R16, R18, R19). -/
def moveReplace (passOpen : Bool) (t : BusTable) (r : Strip) (field : MoveField) (index : Byte) (value : Value13) :
    Except Status FieldValue :=
  match field with
  | .fader => .ok (faderWrite passOpen r fun _ => valueWord value)
  | .mute => match readFlag value[0] with
    | some m => .ok (.mute m)
    | none => .error .range
  | .pan =>
    let f := readPan value
    if f.entries.isNone then .error .range
    else if f.shaped then checkedPan t r.dest f.list else .error .shape
  | .panEntry => panEntryResult t r index.toNat value

/-- Step 5 of a MOVE with ADD: the delta is checked for its range, then every field but FADER is refused with
SHAPE (R14, R16, R18, R180; log 17). -/
def moveAdd (passOpen : Bool) (r : Strip) (field : MoveField) (index : Byte) (value : Value13) :
    Except Status FieldValue :=
  let d := valueDelta value
  if d < -65535 ∨ 65535 < d then .error .range
  else match field with
    | .fader => .ok (faderWrite passOpen r fun v => clampAdd v d)
    | .panEntry => if 3 < index.toNat ∨ r.pan.length < index.toNat then .error .range else .error .shape
    | .mute | .pan => .error .shape

/-- Step 5 of a MOVE: the value to write, or RANGE or SHAPE (R14). -/
def moveResult (passOpen : Bool) (t : BusTable) (r : Strip) (field op index : Byte) (value : Value13) :
    Except Status FieldValue :=
  match readMoveField field, readMoveOp op with
  | some f, some .replace => moveReplace passOpen t r f index value
  | some f, some .add => moveAdd passOpen r f index value
  | _, _ => .error .range

/-- The checks of a MOVE on the strip it reaches, and the value to write (R11). -/
def moveChecked (p : PortId) (s : State) (n : StripNo) (field op index : Byte) (value : Value13) :
    Except Status FieldValue :=
  let r := s.strip n
  match firstFailure [handFailure p r,
      failIf (moveAutomated s.playback.passOpen r (readMoveField field)) .automated] with
  | some st => .error st
  | none => moveResult s.playback.passOpen s.busTable r field op index value

/-- What a MOVE does: its status, the field it wrote, and the state (R11, R15). -/
def moveDone (p : PortId) (surface field op index : Byte) (value : Value13) (s : State) :
    Except Status (FieldValue × State) :=
  match reachForChange (s.port p) surface.toNat with
  | .error st => .error st
  | .ok n => match moveChecked p s n field op index value with
    | .error st => .error st
    | .ok v => .ok (v, commit p n ((s.strip n).write v) [v] true s)

/-- MOVE: one field of one strip (R16 to R20); posted, it leaves no reply and counts a refusal (R172). -/
def execMove (p : PortId) (posted : Bool) (surface field op index : Byte) (value : Value13) (s : State) :
    Host.Outcome State Fault Refusal :=
  request p (fun s => match moveDone p surface field op index value s with
    | .ok (v, t) => if posted then t else answer p 0x01 .ok (wValue v) t
    | .error st => if posted then countRefusal p s else answer p 0x01 st [] s) s

/-! ### FLAGS (R21, R22) -/

/-- The new value of one flag (R21). -/
def flagAfter (op : FlagsOp) (selected inSet old : Bool) : Bool :=
  if selected then match op with
    | .set => true
    | .clear => false
    | .replace => inSet
  else old

/-- The strip record with the selected flags written: bit 0 MUTE, bit 1 POLARITY, bit 2 LINE-PUNCH (R21, R178). -/
def writeFlags (op : FlagsOp) (sel set : Byte) (r : Strip) : Strip :=
  { r with
    mute := flagAfter op (sel.getLsbD 0) (set.getLsbD 0) r.mute,
    inverted := flagAfter op (sel.getLsbD 1) (set.getLsbD 1) r.inverted,
    linePunch := flagAfter op (sel.getLsbD 2) (set.getLsbD 2) r.linePunch }

/-- One run position of FLAGS at surface number `n`: refused with a status, or applied (R21).

DESIGN CHOICE, unsafe (log 17): an unknown operation is refused with RANGE after these checks whatever the selection,
the empty one too, of which R21 says that its positions are applied when they pass steps 1 to 3.
DESIGN CHOICE, unsafe (log 18): an applied position that selects no flag is reported. -/
def flagsAt (p : PortId) (n : Nat) (op sel set : Byte) (s : State) : Except Status State :=
  match reachForChange (s.port p) n with
  | .error st => .error st
  | .ok k =>
    let r := s.strip k
    match firstFailure [handFailure p r, failIf (sel.getLsbD 0 && !liveOpen s.playback.passOpen r) .automated],
        readFlagsOp op with
    | some st, _ => .error st
    | none, none => .error .range
    | none, some o =>
      let r' := writeFlags o sel set r
      .ok (commit p k r' (if sel.getLsbD 0 then [.mute r'.mute] else []) true s)

/-- The outcome of a FLAGS run: one status per position, `none` where it was applied. -/
structure FlagsRun where
  results : List (Option Status)
  state : State

/-- The run positions of FLAGS in order (R21). -/
def flagsRun (p : PortId) (op sel set : Byte) : List Nat → State → FlagsRun
  | [], s => { results := [], state := s }
  | n :: rest, s =>
    match flagsAt p n op sel set s with
    | .ok t => let run := flagsRun p op sel set rest t
      { run with results := none :: run.results }
    | .error st => let run := flagsRun p op sel set rest s
      { run with results := some st :: run.results }

/-- The surface, bus or entry numbers of a run. -/
def runNumbers (first count : Byte) : List Nat := List.range' first.toNat count.toNat

/-- Whether a count lies in 1 to 16. -/
def countOk (count : Byte) : Bool := decide (1 ≤ count.toNat) && decide (count.toNat ≤ Config.maxRun)

/-- FLAGS over a run (R21, R22): refused whole with RANGE for a bad count. -/
def flagsDone (p : PortId) (start count op sel set : Byte) (s : State) : Status × FlagsRun :=
  if countOk count then
    let run := flagsRun p op sel set (runNumbers start count) s
    ((firstFailure run.results).getD .ok, run)
  else (.range, { results := [], state := s })

/-- The FLAGS reply: the number of positions applied and the refusal mask (R22, R177). -/
def wFlagsReply (results : List (Option Status)) : List Byte :=
  w1 (results.countP (·.isNone)) :: bytes2 ((BitVec.ofBoolListLE (results.map (·.isSome))).setWidth 16)

/-- FLAGS (R21, R22); posted, it leaves no reply and counts once when anything was refused (R172). -/
def execFlags (p : PortId) (posted : Bool) (start count op sel set : Byte) (s : State) :
    Host.Outcome State Fault Refusal :=
  request p (fun s =>
    let (st, run) := flagsDone p start count op sel set s
    if posted then if st = .ok then run.state else countRefusal p run.state
    else answer p 0x02 st (wFlagsReply run.results) run.state) s

/-! ### SET-ROUTE (R23) -/

/-- The rule of sources: a strip fed by a premix feeds no premix (R5). -/
def routeAllowed : Source → Dest → Bool
  | .premix _ _, .premix _ => false
  | _, _ => true

/-- The pan that a SET-ROUTE carries, when it carries one. A pan-carried byte other than 00 and 01 carries none at
step 4, so it is never refused with AUTOMATED, and is refused with RANGE at step 5: the model's choice, DESIGN CHOICE,
unsafe (log 26). -/
def carriedPan (carried : Byte) (pan : Value13) : Option PanField :=
  if carried.toNat = 1 then some (readPan pan) else none

/-- Step 5 of SET-ROUTE: the resulting source, destination and pan (R14, R23). -/
def routeResult (t : BusTable) (r : Strip) (source : SourceField) (dest : DestField) (carried : Byte) (pan : Value13) :
    Except Status Strip :=
  match readSource source, readDest dest, readFlag carried with
  | some src, some dst, some c =>
    if c then
      if (readPan pan).entries.isNone then .error .range
      else if (readPan pan).shaped && t.panFits dst (readPan pan).list && routeAllowed src dst then
        .ok { r with source := src, dest := dst, pan := (readPan pan).list }
      else .error .shape
    else if t.panFits dst r.pan && routeAllowed src dst then .ok { r with source := src, dest := dst }
    else .error .shape
  | _, _, _ => .error .range

/-- SET-ROUTE on the strip it reaches: its checks, then the change (R11, R23). A carried pan equal to the live
one is no write of PAN. -/
def setRouteDone (p : PortId) (surface : Byte) (source : SourceField) (dest : DestField) (carried : Byte)
    (pan : Value13) (s : State) : Except Status State :=
  match reachForChange (s.port p) surface.toNat with
  | .error st => .error st
  | .ok n =>
    let r := s.strip n
    let writesPan := match carriedPan carried pan with
      | some f => !f.equals r.pan
      | none => false
    match firstFailure [handFailure p r, failIf (writesPan && !liveOpen s.playback.passOpen r) .automated] with
    | some st => .error st
    | none => match routeResult s.busTable r source dest carried pan with
      | .error st => .error st
      | .ok r' => .ok (commit p n r' (if writesPan then [.pan r'.pan] else []) (r' != r) s)

/-- SET-ROUTE: source, destination and optionally the pan list of a strip (R23). -/
def execSetRoute (p : PortId) (surface : Byte) (source : SourceField) (dest : DestField) (carried : Byte)
    (pan : Value13) (s : State) : Host.Outcome State Fault Refusal :=
  request p (fun s => match setRouteDone p surface source dest carried pan s with
    | .ok t => answer p 0x03 .ok [] t
    | .error st => answer p 0x03 st [] s) s

/-! ### SET-STRIP (R24, R25) -/

/-- The values that a SET-STRIP carries, and `none` when one is outside its range (R14). -/
structure StripValues where
  source : Source
  inverted : Bool
  dest : Dest
  fader : Nat
  mute : Bool
  pan : PanField
  mode : Mode
  linePunch : Bool
  deriving DecidableEq, Repr

/-- The range checks of SET-STRIP (R14, R24). -/
def readStripValues (source : SourceField) (polarity : Byte) (dest : DestField) (fader : BitVec 16) (mute : Byte)
    (pan : Value13) (mode linePunch : Byte) : Option StripValues :=
  match readSource source, readFlag polarity, readDest dest, readFlag mute with
  | some src, some inv, some dst, some m =>
    match (readPan pan).entries, readMode mode, readFlag linePunch with
    | some _, some md, some lp =>
      some
        { source := src, inverted := inv, dest := dst, fader := fader.toNat, mute := m, pan := readPan pan,
          mode := md, linePunch := lp }
    | _, _, _ => none
  | _, _, _, _ => none

/-- The automated fields that a SET-STRIP writes, those whose value differs, in the order fader, mute, pan
(R24, R25). -/
def writtenFields (r : Strip) (v : StripValues) : List FieldValue :=
  (if v.fader = r.fader then [] else [.fader v.fader]) ++ (if v.mute = r.mute then [] else [.mute v.mute])
    ++ (if v.pan.equals r.pan then [] else [.pan v.pan.list])

/-- The record after the first two steps of R25: route, polarity, line punch and the automated fields. The
mode is left to the third step. -/
def Strip.rewritten (r : Strip) (v : StripValues) : Strip :=
  { r with
    source := v.source, inverted := v.inverted, dest := v.dest, linePunch := v.linePunch, fader := v.fader,
    mute := v.mute, pan := v.pan.list }

/-- Whether a SET-STRIP carries an automated field that differs from the live one, out of range values
included (R24, step 4). -/
def stripWrites (r : Strip) (fader : BitVec 16) (mute : Byte) (pan : Value13) : Bool :=
  fader.toNat != r.fader || readFlag mute != some r.mute || !(readPan pan).equals r.pan

/-- SET-STRIP on the strip it reaches: its checks, the change, the mode, and then the cut of a changed route or
polarity to the record after both (R10, R24, R25).

DEDUCED, unsafe (log 21): a carried line punch that turns the trigger of a READY strip active punches it in, and R136
loads its live fader, mute and pan, which may then differ from the carried values that R25 says a read returns. -/
def setStripDone (p : PortId) (surface : Byte) (source : SourceField) (polarity : Byte) (dest : DestField)
    (fader : BitVec 16) (mute : Byte) (pan : Value13) (mode linePunch : Byte) (s : State) : Except Status State :=
  match reachForChange (s.port p) surface.toNat with
  | .error st => .error st
  | .ok n =>
    let r := s.strip n
    match firstFailure [handFailure p r,
        failIf (stripWrites r fader mute pan && !liveOpen s.playback.passOpen r) .automated] with
    | some st => .error st
    | none => match readStripValues source polarity dest fader mute pan mode linePunch with
      | none => .error .range
      | some v =>
        if v.pan.shaped && s.busTable.panFits v.dest v.pan.list && routeAllowed v.source v.dest then
          let r' := r.rewritten v
          .ok (handCut s n
            (changeMode n v.mode (writeChange p n r' (writtenFields r v) (r' != r || v.mode != r.mode) s)))
        else .error .shape

/-- SET-STRIP: the whole writable record of one strip (R24, R25). -/
def execSetStrip (p : PortId) (surface : Byte) (source : SourceField) (polarity : Byte) (dest : DestField)
    (fader : BitVec 16) (mute : Byte) (pan : Value13) (mode linePunch : Byte) (s : State) :
    Host.Outcome State Fault Refusal :=
  request p (fun s => match setStripDone p surface source polarity dest fader mute pan mode linePunch s with
    | .ok t => answer p 0x04 .ok [] t
    | .error st => answer p 0x04 st [] s) s

/-! ### SET-MODE (R26) -/

/-- SET-MODE on the strip it reaches: its checks, then the mode change, reported when the mode differs (R26). -/
def setModeDone (p : PortId) (surface mode : Byte) (s : State) : Except Status State :=
  match reachForChange (s.port p) surface.toNat with
  | .error st => .error st
  | .ok n => match handFailure p (s.strip n), readMode mode with
    | some st, _ => .error st
    | none, none => .error .range
    | none, some m =>
      .ok (if (s.strip n).mode = m then s else report p n (changeMode n m s))

/-- SET-MODE: a strip's automation mode (R26). -/
def execSetMode (p : PortId) (surface mode : Byte) (s : State) : Host.Outcome State Fault Refusal :=
  request p (fun s => match setModeDone p surface mode s with
    | .ok t => answer p 0x05 .ok [] t
    | .error st => answer p 0x05 st [] s) s

/-! ### Reads (R27, R50, R170, R171) -/

/-- A read of a run of surface numbers from `start`: the records, and the pointer set after it (R170, R171). -/
def readSurfaces (p : PortId) (code : Byte) (start : Nat) (count : Byte) (s : State) : State :=
  if countOk count then
    let q := s.port p
    let records := (List.range' start count.toNat).flatMap (wSurface s q)
    answer p code .ok (count :: records) (s.modPort p fun q => { q with pointer := min 256 (start + count.toNat) })
  else answer p code .range [] s

/-- READ-RUN (R170). -/
def execReadRun (p : PortId) (start count : Byte) (s : State) : Host.Outcome State Fault Refusal :=
  request p (fun s => readSurfaces p 0x06 start.toNat count s) s

/-- READ-NEXT: starts at the surface pointer (R170). -/
def execReadNext (p : PortId) (count : Byte) (s : State) : Host.Outcome State Fault Refusal :=
  request p (fun s => readSurfaces p 0x07 (s.port p).pointer count s) s

/-- The payload of a READ-CELLS reply: ramp length, cell count and cells (R50, R177). -/
def wCells (s : State) (l : List Cell) : List Byte := w2 s.engine.rampLength ++ [w1 l.length] ++ l.flatMap wCell

/-- The reply to READ-CELLS (R50). -/
def readCellsReply (q : PortState) (kind number : Byte) (s : State) : Except Status (List Byte) :=
  match readObjectKind kind with
  | none => .error .range
  | some .strip => match reach q number.toNat with
    | .ok n => .ok (wCells s (s.cells n).toList)
    | .error st => .error st
  | some .bus => match readIndex 24 number with
    | some b => .ok (wCells s [s.engine.gainCells[b]])
    | none => .error .range

/-- A read that answers with a payload or a status and changes nothing else. -/
def answerRead (p : PortId) (code : Byte) (reply : Except Status (List Byte)) (s : State) : State :=
  match reply with
  | .ok payload => answer p code .ok payload s
  | .error st => answer p code st [] s

/-- READ-CELLS: the twelve cells of a strip or the gain cell of a bus (R50). -/
def execReadCells (p : PortId) (kind number : Byte) (s : State) : Host.Outcome State Fault Refusal :=
  request p (fun s => answerRead p 0x08 (readCellsReply (s.port p) kind number s) s) s

/-- The ramp length that SET-RAMP sets: 0 is taken as 1, above 1,024 as 1,024 (R40). -/
def rampFrom (v : Nat) : Nat := max 1 (min Config.maxRamp v)

/-- SET-RAMP: the ramp length of retargets taken afterwards (R40). -/
def execSetRamp (p : PortId) (length : BitVec 16) (s : State) : Host.Outcome State Fault Refusal :=
  request p (fun s =>
    answer p 0x09 .ok (w2 (rampFrom length.toNat))
      { s with engine := { s.engine with rampLength := rampFrom length.toNat } }) s

end Sys2Proof.Machine
end

