-- ==== Sys2Proof/Machine/Buses.lean ====
section
/-!
DEFINITION. The requests of the bus table: SET-BUS, SET-MASTER, BUS-READ, CLEAR-CLIP, METER-READ and
METER-CONFIG.
-/
namespace Sys2Proof.Machine

/-! ### SET-BUS (R54 to R57) -/

/-- Whether a strip with a destination that `concerns` has a live pan channel at or beyond `w` (R57, R59). -/
def livePanBeyond (s : State) (concerns : Dest → Bool) (w : Nat) : Bool :=
  s.strips.any fun r => concerns r.dest && r.pan.any fun e => decide (w ≤ e.channel.val)

/-- The strips that feed bus `b`. -/
def feedsBus (b : BusNo) : Dest → Bool
  | .none => false
  | .premix k => k.val == b.val
  | .stem k => k.val + 16 == b.val

/-- The strips that feed any stem. -/
def feedsStem : Dest → Bool
  | .stem _ => true
  | .none | .premix _ => false

/-- The selected fields of a SET-BUS, `none` where not selected (R54, R178). -/
structure BusChange where
  width : Option Nat
  gain : Option Nat
  mute : Option Bool
  print : Option Bool
  deriving DecidableEq, Repr

/-- A field is taken when its bit of the selection is set. -/
def selected {α : Type} (b : Bool) (a : α) : Option α := if b then some a else none

/-- Whether a selected two-valued byte names no value (R178). -/
def badFlag (sel : Bool) (b : Byte) : Bool := sel && (readFlag b).isNone

/-- Whether a width lies in 1 to 12. -/
def widthOk (w : Nat) : Bool := decide (1 ≤ w) && decide (w ≤ 12)

/-- The checks of SET-BUS, steps 2 to 5, on bus `b` (R54, log 25). An empty selection is judged by steps 1 and 2 like
any other, so it is refused with RANGE or HELD there: DEDUCED, unsafe (log 27). -/
def setBusFailure (p : PortId) (b : BusNo) (sel width mute print : Byte) (s : State) : Option Status :=
  let w := width.toNat
  let premix := decide (b.val < 16)
  firstFailure
    [ failIf (otherPort p (s.bus b).holder) .held,
      failIf ((sel.getLsbD 0 && !widthOk w) || badFlag (sel.getLsbD 2) mute || badFlag (sel.getLsbD 3) print) .range,
      failIf ((sel.getLsbD 0 && !premix) || (sel.getLsbD 3 && premix)) .shape,
      failIf (sel.getLsbD 0 && decide (w < s.busTable.busWidth b) && livePanBeyond s (feedsBus b) w) .inUse ]

/-- What a SET-BUS writes (R54, R55). -/
def busChange (sel width : Byte) (gain : BitVec 16) (mute print : Byte) : BusChange :=
  { width := selected (sel.getLsbD 0) width.toNat,
    gain := selected (sel.getLsbD 1) gain.toNat,
    mute := if sel.getLsbD 2 then readFlag mute else none,
    print := if sel.getLsbD 3 then readFlag print else none }

/-- The premix widths with that of bus `b` set; a stem's width is not held in its record (R51). -/
def setPremixWidth (b : BusNo) (w : Nat) (t : BusTable) : BusTable :=
  if h : b.val < 16 then { t with premixWidth := t.premixWidth.set b.val w } else t

/-- The print flags with that of bus `b` set; a premix has none (R51). -/
def setPrint (b : BusNo) (on : Bool) (t : BusTable) : BusTable :=
  if b.val < 16 then t else { t with print := t.print.set (b.val - 16) on }

/-- The bus table with the selected fields of bus `b` written (R55). -/
def writeBus (b : BusNo) (c : BusChange) (t : BusTable) : BusTable :=
  let t1 := { t with buses := upd t.buses b fun r => { r with gain := c.gain.getD r.gain, mute := c.mute.getD r.mute } }
  let t2 := match c.width with
    | some w => setPremixWidth b w t1
    | none => t1
  match c.print with
  | some on => setPrint b on t2
  | none => t2

/-- An accepted SET-BUS: the fields written, a width change handed on as a retarget of the premix's strips,
and a changed gain target as a retarget of the gain cell (R55, R56). -/
def applyBus (b : BusNo) (c : BusChange) (s : State) : State :=
  let t := { s with busTable := writeBus b c s.busTable }
  let t1 := if t.busTable.busWidth b = s.busTable.busWidth b then t else retargetWhere (feedsBus b) t
  retargetGain b t1

/-- SET-BUS: width, gain, mute and print flag of one bus (R54, R55). -/
def execSetBus (p : PortId) (bus selection width : Byte) (gain : BitVec 16) (mute print : Byte) (s : State) :
    Host.Outcome State Fault Refusal :=
  request p (fun s => match readIndex 24 bus with
    | none => answer p 0x10 .range [] s
    | some b => match setBusFailure p b selection width mute print s with
      | some st => answer p 0x10 st [] s
      | none =>
        let t := applyBus b (busChange selection width gain mute print) s
        answer p 0x10 .ok (wBus t.busTable b) t) s

/-! ### SET-MASTER (R59, R66) -/

/-- A meter that a narrowing puts beyond the width (R66). -/
def Meter.zero : Meter := { value := 0, hold := 0 }

/-- The meters of channels at or beyond `w` set to 0 (R66). -/
def resetMetersBeyond (w : Nat) (t : BusTable) : BusTable :=
  { t with
    stemMeters := Vector.ofFn fun i => if w ≤ i.val % 12 then Meter.zero else t.stemMeters[i],
    masterMeters := Vector.ofFn fun c => if w ≤ c.val then Meter.zero else t.masterMeters[c] }

/-- The checks of SET-MASTER (R59). -/
def setMasterFailure (w : Nat) (s : State) : Option Status :=
  firstFailure
    [ failIf (!widthOk w) .range,
      failIf (decide (w < s.busTable.masterWidth) && livePanBeyond s feedsStem w) .inUse ]

/-- An accepted SET-MASTER: the width written, the stem strips retargeted, and the meters beyond a narrower
width set to 0 (R59, R66). -/
def applyMaster (w : Nat) (s : State) : State :=
  if w = s.busTable.masterWidth then s
  else
    let t := { s.busTable with masterWidth := w }
    let t := if w < s.busTable.masterWidth then resetMetersBeyond w t else t
    retargetWhere feedsStem { s with busTable := t }

/-- SET-MASTER: the master width (R59). -/
def execSetMaster (p : PortId) (width : Byte) (s : State) : Host.Outcome State Fault Refusal :=
  request p (fun s => match setMasterFailure width.toNat s with
    | some st => answer p 0x11 st [] s
    | none =>
      let t := applyMaster width.toNat s
      answer p 0x11 .ok [w1 t.busTable.masterWidth] t) s

/-! ### Reads and settings -/

/-- The reply to BUS-READ (R69). -/
def busReadReply (first count : Byte) (s : State) : Except Status (List Byte) :=
  if countOk count && decide (first.toNat + count.toNat ≤ 24) then
    .ok ([w1 s.busTable.masterWidth, wFlag s.busTable.masterClip, count]
      ++ (runNumbers first count).flatMap fun i => if h : i < 24 then wBus s.busTable ⟨i, h⟩ else [])
  else .error .range

/-- BUS-READ: a run of bus records (R69). -/
def execBusRead (p : PortId) (first count : Byte) (s : State) : Host.Outcome State Fault Refusal :=
  request p (fun s => answerRead p 0x12 (busReadReply first count s) s) s

/-- CLEAR-CLIP: clears selected clip flags and returns all 25 (R62). -/
def execClearClip (p : PortId) (set : BitVec 32) (s : State) : Host.Outcome State Fault Refusal :=
  request p (fun s =>
    let t := clearClips set s.busTable
    answer p 0x13 .ok (wClips t) { s with busTable := t }) s

/-- METER-READ (R68). -/
def execMeterRead (p : PortId) (s : State) : Host.Outcome State Fault Refusal :=
  request p (fun s => answer p 0x14 .ok (wMeters s.busTable) s) s

/-- METER-CONFIG: the hold setting (R67). -/
def execMeterConfig (p : PortId) (hold : Byte) (s : State) : Host.Outcome State Fault Refusal :=
  request p (fun s =>
    answer p 0x15 .ok [hold] { s with busTable := { s.busTable with holdSetting := hold.toNat } }) s

end Sys2Proof.Machine
end

