-- ==== Sys2Proof/Machine/Positions.lean ====
section
/-!
DEFINITION. The requests of the position state: CLAIM, RELEASE, YIELD, TOUCH, UNTOUCH, WATCH-ADD,
WATCH-REMOVE, WATCH-READ, SIGNAL, CLEAR-SIGNAL, SAVE and RECALL.
-/
namespace Sys2Proof.Machine

/-! ### Objects (R74) -/

/-- A strip or a bus. -/
inductive Object where
  | strip (n : StripNo)
  | bus (b : BusNo)
  deriving DecidableEq, Repr

/-- The number of an object within its kind. -/
def Object.number : Object → Nat
  | .strip n => n.val
  | .bus b => b.val

/-- The holder of an object (R74). -/
def State.holderOf (s : State) : Object → Option PortId
  | .strip n => (s.strip n).holder
  | .bus b => (s.bus b).holder

/-- The toucher of an object; a bus has none (R54). -/
def State.toucherOf (s : State) : Object → Option PortId
  | .strip n => (s.strip n).toucher
  | .bus _ => none

/-- The state with the holder of an object set. -/
def setHolder (h : Option PortId) (o : Object) (s : State) : State :=
  match o with
  | .strip n => s.modStrip n fun r => { r with holder := h }
  | .bus b => s.modBus b fun r => { r with holder := h }

/-- The object a number names: a surface number through the windows, refused by a view-only window when
`change` holds, or a bus number (R75, R77, R169). -/
def reachObject (q : PortState) (kind : ObjectKind) (change : Bool) (n : Nat) : Except Status Object :=
  match kind with
  | .strip => match (if change then reachForChange q n else reach q n) with
    | .ok k => .ok (.strip k)
    | .error st => .error st
  | .bus => if h : n < 24 then .ok (.bus ⟨n, h⟩) else .error .range

/-! ### CLAIM (R75, R76) -/

/-- Step 1 of a CLAIM and the check of a RELEASE: the count, and a bus run beyond bus 23 (R75, R77). -/
def runFailure (kind : Option ObjectKind) (first count : Byte) : Bool :=
  match kind with
  | none => true
  | some .strip => !countOk count
  | some .bus => !countOk count || decide (24 < first.toNat + count.toNat)

/-- Every object of a run, or the position and status of the first that does not translate (R75 step 2). -/
def reachRun (q : PortState) (kind : ObjectKind) : Nat → List Nat → Except (Status × Nat) (List Object)
  | _, [] => .ok []
  | i, n :: rest =>
    match reachObject q kind true n with
    | .error st => .error (st, i)
    | .ok o => match reachRun q kind (i + 1) rest with
      | .error e => .error e
      | .ok os => .ok (o :: os)

/-- The first object of a run whose field names another port: its position, the object and that port. -/
def firstConflict (p : PortId) (field : Object → Option PortId) : Nat → List Object → Option (Nat × Object × PortId)
  | _, [] => none
  | i, o :: rest =>
    match field o with
    | some q => if q = p then firstConflict p field (i + 1) rest else some (i, o, q)
    | none => firstConflict p field (i + 1) rest

/-- What a CLAIM does: the objects it claims, or a status and the items of its reply (R75, R76). -/
def claimChecked (p : PortId) (kind first count : Byte) (s : State) : Except (Status × List Byte) (List Object) :=
  if runFailure (readObjectKind kind) first count then .error (.range, [0xFF])
  else match readObjectKind kind with
    | none => .error (.range, [0xFF])
    | some k => match reachRun (s.port p) k 0 (runNumbers first count) with
      | .error (st, i) => .error (st, [w1 i])
      | .ok os => match firstConflict p s.holderOf 0 os with
        | some (i, o, q) => .error (.held, [w1 i, w1 o.number, w1 q.val])
        | none => match firstConflict p s.toucherOf 0 os with
          | some (i, o, q) => .error (.touched, [w1 i, w1 o.number, w1 q.val])
          | none => .ok os

/-- Every object of a list held by `h`. -/
def holdAll (h : Option PortId) (os : List Object) (s : State) : State := os.foldl (fun t o => setHolder h o t) s

/-- CLAIM: the requester holds a run of strips or buses, all or nothing (R75, R76). The count of an OK reply is the length
of the run, which counts a strip at each position that reaches it: DESIGN CHOICE, unsafe (log 28). -/
def execClaim (p : PortId) (kind first count : Byte) (s : State) : Host.Outcome State Fault Refusal :=
  request p (fun s => match claimChecked p kind first count s with
    | .ok os => answer p 0x20 .ok [w1 os.length] (holdAll (some p) os s)
    | .error (st, items) => answer p 0x20 st items s) s

/-! ### RELEASE (R77) -/

/-- The objects of a run that translate; the others are skipped (R77). -/
def reachable (q : PortState) (kind : ObjectKind) : List Nat → List Object
  | [] => []
  | n :: rest => match reachObject q kind false n with
    | .ok o => o :: reachable q kind rest
    | .error _ => reachable q kind rest

/-- The objects of a run become unheld where the requester holds them; the number that did (R77). -/
def releaseRun (p : PortId) : List Object → Nat → State → Nat × State
  | [], k, s => (k, s)
  | o :: rest, k, s =>
    if s.holderOf o = some p then releaseRun p rest (k + 1) (setHolder none o s) else releaseRun p rest k s

/-- What a RELEASE does: the number of objects it released and the state, or RANGE (R77). -/
def releaseDone (p : PortId) (kind first count : Byte) (s : State) : Except Status (Nat × State) :=
  if runFailure (readObjectKind kind) first count then .error .range
  else match readObjectKind kind with
    | none => .error .range
    | some k => .ok (releaseRun p (reachable (s.port p) k (runNumbers first count)) 0 s)

/-- RELEASE: objects of a run that the requester holds become unheld (R77). -/
def execRelease (p : PortId) (kind first count : Byte) (s : State) : Host.Outcome State Fault Refusal :=
  request p (fun s => match releaseDone p kind first count s with
    | .ok (k, t) => answer p 0x21 .ok [w1 k] t
    | .error st => answer p 0x21 st [] s) s

/-! ### YIELD (R78) -/

/-- The requester's touch on an object ends, with the trigger change that follows (R78, R81). -/
def endTouch (p : PortId) (o : Object) (s : State) : State :=
  match o with
  | .strip n => if (s.strip n).toucher = some p then changeToucher n none s else s
  | .bus _ => s

/-- The checks of a YIELD (R78); a HELD refusal carries the holder. -/
def yieldChecked (p : PortId) (kind number target : Byte) (s : State) :
    Except (Status × List Byte) (Object × PortId) :=
  match readObjectKind kind with
  | none => .error (.range, [])
  | some k => match reachObject (s.port p) k true number.toNat with
    | .error st => .error (st, [])
    | .ok o => match readIndex 4 target with
      | none => .error (.range, [])
      | some q =>
        if s.holderOf o = some p then
          if !(s.port q).attached then .error (.absent, [])
          else if q = p then .error (.self, [])
          else .ok (o, q)
        else .error (.held, [wPort (s.holderOf o)])

/-- YIELD: a held object handed to another attached port (R78). -/
def execYield (p : PortId) (kind number target : Byte) (s : State) : Host.Outcome State Fault Refusal :=
  request p (fun s => match yieldChecked p kind number target s with
    | .ok (o, q) => answer p 0x22 .ok [] (raiseAt .claim q (setHolder (some q) o (endTouch p o s)))
    | .error (st, items) => answer p 0x22 st items s) s

/-! ### TOUCH and UNTOUCH (R79, R80) -/

/-- The write state as replied by TOUCH and UNTOUCH. -/
def wWriteState (s : State) (n : StripNo) : List Byte := [w1 (s.strip n).writeState.code]

/-- TOUCH: the requester becomes the toucher of a strip (R79). -/
def execTouch (p : PortId) (surface : Byte) (s : State) : Host.Outcome State Fault Refusal :=
  request p (fun s => match reachForChange (s.port p) surface.toNat with
    | .error st => answer p 0x23 st [] s
    | .ok n => match handFailure p (s.strip n) with
      | some st => answer p 0x23 st [] s
      | none =>
        let t := changeToucher n (some p) s
        answer p 0x23 .ok (wWriteState t n) t) s

/-- UNTOUCH: the requester's own touch on a strip ends (R80). -/
def execUntouch (p : PortId) (surface : Byte) (s : State) : Host.Outcome State Fault Refusal :=
  request p (fun s => match reach (s.port p) surface.toNat with
    | .error st => answer p 0x24 st [] s
    | .ok n =>
      let t := endTouch p (.strip n) s
      answer p 0x24 .ok (wWriteState t n) t) s

/-! ### Watch lists (R82 to R85) -/

/-- The state with the watch list of port `p` replaced. -/
def setWatches (p : PortId) (l : List Watch) (s : State) : State := s.modPort p fun q => { q with watches := l }

/-- The number of watch entries of port `p`, as replied. -/
def wWatchCount (p : PortId) (s : State) : List Byte := [w1 (s.port p).watches.length]

/-- The watch list after a WATCH-ADD of strip `n`, or its refusal (R83). -/
def addWatch (n : StripNo) (l : List Watch) : Except Status (List Watch) :=
  if l.any fun w => decide (w.strip = n) then .error .duplicate
  else if Config.watchSize ≤ l.length then .error .full
  else .ok (l ++ [{ strip := n, hit := false, mover := none }])

/-- WATCH-ADD (R83). -/
def execWatchAdd (p : PortId) (surface : Byte) (s : State) : Host.Outcome State Fault Refusal :=
  request p (fun s => match reach (s.port p) surface.toNat with
    | .error st => answer p 0x25 st (wWatchCount p s) s
    | .ok n => match addWatch n (s.port p).watches with
      | .error st => answer p 0x25 st (wWatchCount p s) s
      | .ok l =>
        let t := setWatches p l s
        answer p 0x25 .ok (wWatchCount p t) t) s

/-- WATCH-REMOVE (R83). -/
def execWatchRemove (p : PortId) (surface : Byte) (s : State) : Host.Outcome State Fault Refusal :=
  request p (fun s => match reach (s.port p) surface.toNat with
    | .error st => answer p 0x26 st (wWatchCount p s) s
    | .ok n =>
      let t := setWatches p ((s.port p).watches.filter fun w => decide (w.strip ≠ n)) s
      answer p 0x26 .ok (wWatchCount p t) t) s

/-- WATCH-READ: the entries, then their hit flags and movers cleared (R85). -/
def execWatchRead (p : PortId) (s : State) : Host.Outcome State Fault Refusal :=
  request p (fun s =>
    let l := (s.port p).watches
    answer p 0x27 .ok (w1 l.length :: l.flatMap wWatch)
      (setWatches p (l.map fun w => { w with hit := false, mover := none }) s)) s

/-! ### Signals (R86, R87) -/

/-- The checks of a SIGNAL (R86). -/
def signalChecked (p : PortId) (target flag : Byte) (s : State) : Except Status (PortId × Fin 4) :=
  match readIndex 4 target, readIndex 4 flag with
  | some q, some f =>
    if q = p then .error .self
    else if !(s.port q).attached then .error .absent
    else .ok (q, f)
  | _, _ => .error .range

/-- SIGNAL: a flag of another port set, and SIGNAL raised there (R86). -/
def execSignal (p : PortId) (target flag : Byte) (s : State) : Host.Outcome State Fault Refusal :=
  request p (fun s => match signalChecked p target flag s with
    | .ok (q, f) => answer p 0x28 .ok []
        (raiseAt .signal q (s.modPort q fun qs => { qs with signals := qs.signals.set f true }))
    | .error st => answer p 0x28 st [] s) s

/-- The signal flags as replied: bit f for flag f. -/
def wSignals (v : Vector Bool 4) : Byte := wBits v.toList

/-- CLEAR-SIGNAL: the selected flags of the requester cleared (R87). -/
def execClearSignal (p : PortId) (set : Byte) (s : State) : Host.Outcome State Fault Refusal :=
  request p (fun s =>
    let v : Vector Bool 4 := Vector.ofFn fun i => (s.port p).signals[i] && !set.getLsbD i.val
    answer p 0x29 .ok [wSignals v] (s.modPort p fun q => { q with signals := v })) s

/-! ### Recall stacks (R88 to R91) -/

/-- A snapshot of strip `n` (R88). -/
def snapshotOf (n : StripNo) (r : Strip) : Snapshot :=
  { strip := n, fader := r.fader, mute := r.mute, pan := r.pan, inverted := r.inverted }

/-- The state with the recall stack of port `p` replaced. -/
def setRecall (p : PortId) (l : List Snapshot) (s : State) : State := s.modPort p fun q => { q with recallStack := l }

/-- SAVE: a snapshot pushed; of nine the oldest is removed (R89). -/
def execSave (p : PortId) (surface : Byte) (s : State) : Host.Outcome State Fault Refusal :=
  request p (fun s => match reachForChange (s.port p) surface.toNat with
    | .error st => answer p 0x2A st [] s
    | .ok n =>
      let l := (snapshotOf n (s.strip n) :: (s.port p).recallStack).take Config.recallSize
      answer p 0x2A .ok [w1 l.length] (setRecall p l s)) s

/-- The automated fields of a snapshot that differ from the live values, in the order fader, mute, pan (R90,
R91). -/
def snapshotWrites (k : Snapshot) (r : Strip) : List FieldValue :=
  (if k.fader = r.fader then [] else [.fader k.fader]) ++ (if k.mute = r.mute then [] else [.mute k.mute])
    ++ (if k.pan = r.pan then [] else [.pan k.pan])

/-- The checks of a RECALL of snapshot `k` (R90). -/
def recallFailure (p : PortId) (k : Snapshot) (s : State) : Option Status :=
  let r := s.strip k.strip
  firstFailure
    [ handFailure p r,
      failIf (!(snapshotWrites k r).isEmpty && !liveOpen s.playback.passOpen r) .automated,
      failIf (!s.busTable.panFits r.dest k.pan) .shape ]

/-- The strip record with a snapshot put back (R91). -/
def Strip.recalled (k : Snapshot) (r : Strip) : Strip :=
  { r with fader := k.fader, mute := k.mute, pan := k.pan, inverted := k.inverted }

/-- The snapshot put back on its strip, with the effects of a change when a field differs (R91). -/
def recallApply (p : PortId) (k : Snapshot) (s : State) : State :=
  let r := s.strip k.strip
  let r' := r.recalled k
  if r' = r then s else commit p k.strip r' (snapshotWrites k r) true s

/-- RECALL: the top snapshot judged against its strip and, if it passes, put back and removed (R90, R91). -/
def execRecall (p : PortId) (s : State) : Host.Outcome State Fault Refusal :=
  request p (fun s => match (s.port p).recallStack with
    | [] => answer p 0x2B .empty [0xFF, 0] s
    | k :: rest => match recallFailure p k s with
      | some st => answer p 0x2B st [w1 k.strip.val, w1 (rest.length + 1)] s
      | none =>
        answer p 0x2B .ok [w1 k.strip.val, w1 rest.length] (recallApply p k (setRecall p rest s))) s

end Sys2Proof.Machine
end

