-- ==== Sys2Proof/Machine/TimelineRequests.lean ====
section
/-!
DEFINITION. The requests of the timeline: LINE-CONFIG, LOCATE, LOOP-SET, TIMELINE-CONFIG and TIMELINE-READ.
-/
namespace Sys2Proof.Machine

/-- A line record with polarity and filter length written and its count reset (R94). -/
def LineRecord.configured (activeLow : Bool) (filter : Nat) (r : LineRecord) : LineRecord :=
  { r with activeLow, filter, count := 0 }

/-- LINE-CONFIG: polarity and filter length of a stage line (R94). -/
def execLineConfig (p : PortId) (line polarity filter : Byte) (s : State) : Host.Outcome State Fault Refusal :=
  request p (fun s => match readLine line, readFlag polarity with
    | some l, some low =>
      let t := s.modTimeline fun tl => tl.setLine l ((tl.line l).configured low filter.toNat)
      answer p 0x30 .ok (wLine t.timeline l) t
    | _, _ => answer p 0x30 .range [] s) s

/-- LOCATE: the counter placed, the settle started, the queue flushed and counting made to fall (R102). -/
def execLocate (p : PortId) (frame : BitVec 32) (s : State) : Host.Outcome State Fault Refusal :=
  request p (fun s =>
    if frame.toNat ≤ Config.maxFrame then
      let t := locateTo frame.toNat .locate s
      answer p 0x31 .ok (wTimeline t) t
    else answer p 0x31 .range [] s) s

/-- The checks of LOOP-SET, and the enable it carries (R101). -/
def loopChecked (start stop : BitVec 32) (enable : Byte) : Option Bool :=
  match readFlag enable with
  | none => none
  | some on =>
    if decide (Config.maxFrame < start.toNat) || decide (Config.maxFrame < stop.toNat)
        || (on && decide (stop.toNat < start.toNat)) then none
    else some on

/-- LOOP-SET: loop start, loop end and enable (R101). -/
def execLoopSet (p : PortId) (start stop : BitVec 32) (enable : Byte) (s : State) : Host.Outcome State Fault Refusal :=
  request p (fun s => match loopChecked start stop enable with
    | some on =>
      answer p 0x32 .ok (w4 start.toNat ++ w4 stop.toNat ++ [wFlag on])
        (s.modTimeline fun tl => { tl with loopStart := start.toNat, loopEnd := stop.toNat, loopEnabled := on })
    | none => answer p 0x32 .range [] s) s

/-- TIMELINE-CONFIG: the frame rate, while filtered ROLL is inactive (R105). -/
def execTimelineConfig (p : PortId) (rate : Byte) (s : State) : Host.Outcome State Fault Refusal :=
  request p (fun s => match readFrameRate rate with
    | none => answer p 0x33 .range [] s
    | some r =>
      if s.timeline.roll.filtered then answer p 0x33 .rolling [] s
      else answer p 0x33 .ok [w1 r.fps] (s.modTimeline fun tl => { tl with rate := r, phase := 0 })) s

/-- TIMELINE-READ (R106). -/
def execTimelineRead (p : PortId) (s : State) : Host.Outcome State Fault Refusal :=
  request p (fun s => answer p 0x34 .ok (wTimeline s) s) s

end Sys2Proof.Machine
end

