-- ==== Sys2Proof/Machine/Passes.lean ====
section
/-!
DEFINITION. The requests of playback and writing: OPEN-PASS, CLOSE-PASS, CUE, PASS-READ and TAKE.
-/
namespace Sys2Proof.Machine

/-- The checks of OPEN-PASS (R109). -/
def openPassFailure (s : State) : Option Status :=
  firstFailure [failIf s.playback.passOpen .busy, failIf (!s.writing.takes.isEmpty) .undrained]

/-- OPEN-PASS: the pass opened by the requester, which becomes pass port and take port (R109, R110). -/
def execOpenPass (p : PortId) (low high : BitVec 16) (s : State) : Host.Outcome State Fault Refusal :=
  request p (fun s => match openPassFailure s with
    | some st => answer p 0x40 st [] s
    | none =>
      let t := openPassBy p low.toNat high.toNat s
      answer p 0x40 .ok (w2 t.playback.lowMark ++ w2 t.playback.highMark) t) s

/-- CLOSE-PASS, from the pass port alone (R111). -/
def execClosePass (p : PortId) (s : State) : Host.Outcome State Fault Refusal :=
  request p (fun s =>
    if s.playback.passPort = some p then answer p 0x41 .ok [] (closePassNow s)
    else answer p 0x41 .notPass [] s) s

/-- The number of cues taken and in the queue, as replied by CUE (R115). -/
def wCueReply (taken : Nat) (s : State) : List Byte := w1 taken :: w2 s.playback.cues.length

/-- What a CUE does: the status, the number of cues taken, and the state (R115). -/
def cueDone (p : PortId) (cues : List CueField) (s : State) : Status × Nat × State :=
  if s.playback.passPort = some p then
    if 1 ≤ cues.length ∧ cues.length ≤ Config.maxRun then takeCues cues 0 s else (.range, 0, s)
  else (.notPass, 0, s)

/-- CUE: up to 16 cues from the pass port (R115 to R118). A count whose frame would exceed 1,024 bytes is
refused by the port with LENGTH (R164, R177). -/
def execCue (p : PortId) (cues : List CueField) (s : State) : Host.Outcome State Fault Refusal :=
  request p (fun s =>
    if fitsFrame (cuePayload cues.length) then
      let (st, taken, t) := cueDone p cues s
      answer p 0x42 st (wCueReply taken t) t
    else answer p 0x42 .length [] s) s

/-- PASS-READ (R125). -/
def execPassRead (p : PortId) (s : State) : Host.Outcome State Fault Refusal :=
  request p (fun s => answer p 0x43 .ok (wPass s) s) s

/-- The checks of TAKE (R144). -/
def takeFailure (p : PortId) (count : Byte) (s : State) : Option Status :=
  firstFailure
    [ failIf (s.writing.takePort != some p) .notPass,
      failIf (!countOk count) .range,
      failIf s.writing.takes.isEmpty .empty ]

/-- The state after a TAKE of up to `n` records: the take port is cleared when the queue of a closed pass
empties (R144). -/
def takeRecords (n : Nat) (s : State) : State :=
  let w := { s.writing with takes := s.writing.takes.drop n }
  { s with writing := if s.playback.passOpen then w else w.settled }

/-- TAKE: the oldest take records, from the take port alone (R144). -/
def execTake (p : PortId) (count : Byte) (s : State) : Host.Outcome State Fault Refusal :=
  request p (fun s => match takeFailure p count s with
    | some st => answer p 0x44 st [] s
    | none =>
      let records := s.writing.takes.take count.toNat
      let t := takeRecords count.toNat s
      answer p 0x44 .ok (w1 records.length :: (w2 t.writing.takes.length ++ records.flatMap wTake)) t) s

end Sys2Proof.Machine
end

