-- ==== Sys2Proof/Machine/Patches.lean ====
section
/-!
DEFINITION. The requests of the output patch and the lanes: PATCH-SET, PATCH-READ and LANE-READ.
-/
namespace Sys2Proof.Machine

/-- The entries of a PATCH-SET, `none` when one is outside its range (R160 step 2). -/
def readPatchEntries : List PatchField → Option (List PatchEntry)
  | [] => some []
  | e :: rest => match readPatch e, readPatchEntries rest with
    | some a, some as => some (a :: as)
    | _, _ => none

/-- The patch with entries written from number `first` on (R160). -/
def writePatch : Nat → List PatchEntry → Vector PatchEntry 128 → Vector PatchEntry 128
  | _, [], v => v
  | i, e :: rest, v => writePatch (i + 1) rest (v.setIfInBounds i e)

/-- The checks of PATCH-SET, and the entries it writes (R160). -/
def patchChecked (first : Byte) (entries : List PatchField) : Option (List PatchEntry) :=
  if 1 ≤ entries.length ∧ entries.length ≤ Config.maxRun ∧ first.toNat + entries.length ≤ 128 then
    readPatchEntries entries
  else none

/-- PATCH-SET: a run of output patch entries (R160). A count whose frame would exceed 1,024 bytes is refused by
the port with LENGTH (R164, R177). -/
def execPatchSet (p : PortId) (first : Byte) (entries : List PatchField) (s : State) :
    Host.Outcome State Fault Refusal :=
  request p (fun s =>
    if fitsFrame (patchPayload entries.length) then
      match patchChecked first entries with
      | some es =>
        let t := { s with audio := { s.audio with patch := writePatch first.toNat es s.audio.patch } }
        answer p 0x50 .ok (wPatches t.audio.patch first.toNat es.length) t
      | none => answer p 0x50 .range [] s
    else answer p 0x50 .length [] s) s

/-- The reply to PATCH-READ (R161). -/
def patchReadReply (first count : Byte) (s : State) : Except Status (List Byte) :=
  if countOk count && decide (first.toNat + count.toNat ≤ 128) then
    .ok (wPatches s.audio.patch first.toNat count.toNat)
  else .error .range

/-- PATCH-READ: a run of output patch entries (R161). -/
def execPatchRead (p : PortId) (first count : Byte) (s : State) : Host.Outcome State Fault Refusal :=
  request p (fun s => answerRead p 0x51 (patchReadReply first count s) s) s

/-- LANE-READ (R162). -/
def execLaneRead (p : PortId) (s : State) : Host.Outcome State Fault Refusal :=
  request p (fun s => answer p 0x52 .ok (wLanes s.audio) s) s

end Sys2Proof.Machine
end

