-- ==== Sys2Proof/Machine/Attention.lean ====
section
/-!
DEFINITION. The requests of a port's own state: NULL, STATUS, ENABLE, CLEAR, WINDOW-SET and WINDOW-READ, and
TRANSACTION_BEGIN.
-/
namespace Sys2Proof.Machine

/-- SEL is asserted on port `p` (R163). -/
def execTransactionBegin (p : PortId) (s : State) : Host.Outcome State Fault Refusal :=
  .next (s.modPort p PortState.selRises)

/-- NULL: taken with no effect, and no reply (R167). -/
def execNull (p : PortId) (s : State) : Host.Outcome State Fault Refusal := request p (fun s => s) s

/-- The low twelve bits of a carried set (R175). -/
def reasonSet (v : BitVec 16) : BitVec 12 := v.setWidth 12

/-- STATUS (R175). -/
def execStatus (p : PortId) (s : State) : Host.Outcome State Fault Refusal :=
  request p (fun s =>
    answer p 0x60 .ok (wReasons (s.port p).pendingSet ++ wReasons (s.port p).enableSet ++ [w1 (s.port p).refusals]) s) s

/-- ENABLE: the enable set replaced (R175). -/
def execEnable (p : PortId) (set : BitVec 16) (s : State) : Host.Outcome State Fault Refusal :=
  request p (fun s =>
    answer p 0x61 .ok (wReasons (s.port p).pendingSet ++ wReasons (reasonSet set))
      (s.modPort p fun q => { q with enableSet := reasonSet set })) s

/-- A port after CLEAR of a set of reasons (R176). -/
def PortState.cleared (set : BitVec 12) (q : PortState) : PortState :=
  { q with
    pendingSet := q.pendingSet &&& ~~~set,
    refusals := if set.getLsbD Reason.refused.bit then 0 else q.refusals }

/-- CLEAR: reasons removed from the pending set (R176). -/
def execClear (p : PortId) (set : BitVec 16) (s : State) : Host.Outcome State Fault Refusal :=
  request p (fun s =>
    let t := s.modPort p (PortState.cleared (reasonSet set))
    answer p 0x62 .ok (wReasons (t.port p).pendingSet ++ [w1 (t.port p).refusals]) t) s

/-- The window that a WINDOW-SET writes, `none` when refused with RANGE (R168). -/
def windowChecked (window enabled first last base viewOnly : Byte) : Option (Fin 4 × Window) :=
  match readIndex 4 window, readFlag enabled, readIndex 160 base, readFlag viewOnly with
  | some i, some on, some b, some v =>
    if on && decide (last.toNat < first.toNat) then none
    else some (i, { enabled := on, first := first.toNat, last := last.toNat, base := b, viewOnly := v })
  | _, _, _, _ => none

/-- WINDOW-SET: the five fields of one of the requester's windows (R168). -/
def execWindowSet (p : PortId) (window enabled first last base viewOnly : Byte) (s : State) :
    Host.Outcome State Fault Refusal :=
  request p (fun s => match windowChecked window enabled first last base viewOnly with
    | some (i, w) =>
      let t := s.modPort p fun q => { q with windows := q.windows.set i w }
      answer p 0x63 .ok (wWindows (t.port p)) t
    | none => answer p 0x63 .range [] s) s

/-- WINDOW-READ (R168). -/
def execWindowRead (p : PortId) (s : State) : Host.Outcome State Fault Refusal :=
  request p (fun s => answer p 0x64 .ok (wWindows (s.port p)) s) s

end Sys2Proof.Machine
end

