-- ==== Sys2Proof/Machine/Lifecycle.lean ====
section
/-!
DEFINITION. The life of the part and of a port: DEVICE_RESET (R2 and the reset values of every chapter),
ATTACH (R71), DETACH (R72).
-/
namespace Sys2Proof.Machine

/-- A transaction whose SEL assertion began before the port attached, or before a reset: it is ignored whole
(R71, log 3). -/
def Transaction.overtaken : Transaction → Transaction
  | .idle => .idle
  | .opened | .ignored => .ignored

/-- DEVICE_RESET: every block takes its reset values, RATE is sampled, and the ports whose presence line is
active are attached, with no DETACH raised (R70, R73, R148). -/
def execDeviceReset (rate : SampleRate) (present : Vector Bool 4) (s : State) : Host.Outcome State Fault Refusal :=
  .next { State.afterReset rate (Vector.ofFn fun p => PortState.fresh present[p] (s.port p).transaction.overtaken)
    with pending := s.pending }

/-- ATTACH: a DETACHED port becomes ATTACHED with its per-port state at the attach values (R71). -/
def execAttach (p : PortId) (s : State) : Host.Outcome State Fault Refusal :=
  .next (if (s.port p).attached then s else s.modPort p fun q => PortState.fresh true q.transaction.overtaken)

/-- Step 2 of a detach: every touch of the port is released, in strip number order (R72). -/
def releaseTouches (p : PortId) (s : State) : State :=
  eachStrip (fun n t => if (t.strip n).toucher = some p then changeToucher n none t else t) s

/-- A holder field after the claims of port `p` are released. -/
def unheldBy (p : PortId) (h : Option PortId) : Option PortId := if h = some p then none else h

/-- Step 3 of a detach: every strip and bus the port holds becomes unheld (R72). -/
def releaseClaims (p : PortId) (s : State) : State :=
  { s with
    strips := s.strips.map fun r => { r with holder := unheldBy p r.holder },
    busTable := { s.busTable with buses := s.busTable.buses.map fun b => { b with holder := unheldBy p b.holder } } }

/-- Step 4 of a detach: the pass port's pass is closed and its records discarded; the take port of a closed
pass has its records discarded (R72, R113, R145). -/
def endRoles (p : PortId) (s : State) : State :=
  if s.playback.passPort = some p then discardTakes (closePassNow s)
  else if s.writing.takePort = some p then discardTakes s
  else s

/-- DETACH: the six steps, taken whole (R72). -/
def execDetach (p : PortId) (s : State) : Host.Outcome State Fault Refusal :=
  .next (if (s.port p).attached then
      let s1 := s.modPort p fun q => { q with attached := false, replySlot := none, shiftOut := [], transaction := q.transaction.overtaken }
      let s2 := endRoles p (releaseClaims p (releaseTouches p s1))
      let s3 := s2.modPort p fun q => PortState.fresh false q.transaction
      raiseElsewhere .detach p s3
    else s)

end Sys2Proof.Machine
end

