-- ==== Sys2Proof/Machine/Frames.lean ====
section
/-!
DEFINITION. FRAME_REJECTED: the fall of SEL on the bits that a transaction collected (R163, R164). A frame
that passes every check is a request, and then it is that request that is taken (R165, log 9).
-/
namespace Sys2Proof.Machine

/-- The meaning of a request. The commands that are no request of a port come from no frame. -/
def runRequest (i : Instr) (s : State) : Host.Outcome State Fault Refusal :=
  match i with
  | .null p => execNull p s
  | .move p posted surface field op index value => execMove p posted surface field op index value s
  | .flags p posted start count op sel set => execFlags p posted start count op sel set s
  | .setRoute p surface source dest carried pan => execSetRoute p surface source dest carried pan s
  | .setStrip p surface source polarity dest fader mute pan mode lp =>
    execSetStrip p surface source polarity dest fader mute pan mode lp s
  | .setMode p surface mode => execSetMode p surface mode s
  | .readRun p start count => execReadRun p start count s
  | .readNext p count => execReadNext p count s
  | .readCells p kind number => execReadCells p kind number s
  | .setRamp p length => execSetRamp p length s
  | .setBus p bus sel width gain mute print => execSetBus p bus sel width gain mute print s
  | .setMaster p width => execSetMaster p width s
  | .busRead p first count => execBusRead p first count s
  | .clearClip p set => execClearClip p set s
  | .meterRead p => execMeterRead p s
  | .meterConfig p hold => execMeterConfig p hold s
  | .claim p kind first count => execClaim p kind first count s
  | .release p kind first count => execRelease p kind first count s
  | .yield p kind number target => execYield p kind number target s
  | .touch p surface => execTouch p surface s
  | .untouch p surface => execUntouch p surface s
  | .watchAdd p surface => execWatchAdd p surface s
  | .watchRemove p surface => execWatchRemove p surface s
  | .watchRead p => execWatchRead p s
  | .signal p target flag => execSignal p target flag s
  | .clearSignal p set => execClearSignal p set s
  | .save p surface => execSave p surface s
  | .recallStrip p => execRecall p s
  | .lineConfig p line polarity filter => execLineConfig p line polarity filter s
  | .locate p frame => execLocate p frame s
  | .loopSet p start stop on => execLoopSet p start stop on s
  | .timelineConfig p rate => execTimelineConfig p rate s
  | .timelineRead p => execTimelineRead p s
  | .openPass p low high => execOpenPass p low high s
  | .closePass p => execClosePass p s
  | .cue p cues => execCue p cues s
  | .passRead p => execPassRead p s
  | .take p count => execTake p count s
  | .patchSet p first entries => execPatchSet p first entries s
  | .patchRead p first count => execPatchRead p first count s
  | .laneRead p => execLaneRead p s
  | .status p => execStatus p s
  | .enable p set => execEnable p set s
  | .clear p set => execClear p set s
  | .windowSet p window enabled first last base viewOnly => execWindowSet p window enabled first last base viewOnly s
  | .windowRead p => execWindowRead p s
  | .deviceReset .. | .attach _ | .detach _ | .transactionBegin _ | .frameRejected .. | .samplePeriodReference
  | .wclkEdge _ | .wclkTimeout | .missingEdge | .syncLock | .syncLoss | .laneFrame .. | .laneUp ..
  | .engineSamplePeriod | .cellSettle _ | .meterTick | .outputFrame | .timelineSamplePeriod _ | .lineChange ..
  | .settleEnd _ | .frameBoundary _ => .next s

/-- The reply of a frame that fails R164: the status, no payload, and the first byte collected as its code. -/
def rejectFrame (p : PortId) (bytes : List Byte) (st : Status) (s : State) : Host.Outcome State Fault Refusal :=
  request p (answer p (bytes.headD 0) st []) s

/-- FRAME_REJECTED: SEL of port `p` falls on these bits (R164). -/
def execFrameRejected (p : PortId) (bits : List Bool) (s : State) : Host.Outcome State Fault Refusal :=
  let bytes := bytesOfBits bits
  match readFrame p bytes with
  | .framing => rejectFrame p bytes .framing s
  | .length => rejectFrame p bytes .length s
  | .unknown => rejectFrame p bytes .unknown s
  | .request i => runRequest i s

end Sys2Proof.Machine
end

