-- ==== Sys2Proof/Machine/Engine.lean ====
section
/-!
DEFINITION. The summing engine's sample period: gathering, accumulation, outputs, the print master, clip flags
and meters, and the hand-off to the output patch (R28 to R32, R42 to R48, R60 to R65).
-/
namespace Sys2Proof.Machine

/-- Clamped to the sample range (00_scope.md section 7.2). -/
def sat24 (x : Int) : Int := max Config.sampleMin (min Config.sampleMax x)

/-- Whether a slot is present in a lane: 0 to 15 at 48 kHz, 0 to 7 at 96 kHz (R148). -/
def slotPresent (rate : SampleRate) (t : Nat) : Bool :=
  match rate with
  | .k48 => decide (t < 16)
  | .k96 => decide (t < 8)

/-- The raw slot value of lane `l`, slot `t`: 0 from a DOWN lane or an absent slot (R30). -/
def Audio.rawSlot (a : Audio) (l : LaneNo) (t : SlotNo) : Int :=
  if a.lanes[l].up && slotPresent a.rate t.val then a.lanes[l].slots[t] else 0

/-- A gathered sample with the polarity applied; the negation of −8,388,608 is clamped (R32). -/
def polarize (inverted : Bool) (x : Int) : Int := if inverted then sat24 (-x) else x

/-- The gathered sample of a strip, its premix source read from `premix` (R30, R31, R32). -/
def gather (a : Audio) (premix : Vector (Vector Int 12) 16) (r : Strip) : Int :=
  polarize r.inverted (match r.source with
    | .none => 0
    | .input l t => a.rawSlot l t
    | .premix b c => premix[b][c])

/-- Stage 2: every ramping cell takes its step (R38). -/
def advanceCells (e : Engine) : Engine :=
  { e with stripCells := e.stripCells.map fun v => v.map Cell.advance, gainCells := e.gainCells.map Cell.advance }

/-- The sum over the strips that `feeds` of sample times the current value of cell `c` (R42, R44). -/
def accumulate (strips : Vector Strip 160) (cells : Vector (Vector Cell 12) 160) (samples : Vector Int 160)
    (feeds : Dest → Bool) (c : Channel) : Int :=
  (List.finRange 160).foldl
    (fun acc n => if feeds strips[n].dest then acc + samples[n] * ((cells[n])[c].current : Int) else acc) 0

/-- The accumulators of bus `b` in a period: a channel at or beyond the width has none, held as 0 (R42, R44). -/
def busAccumulators (s : State) (e : Engine) (samples : Vector Int 160) (b : BusNo) (feeds : Dest → Bool) :
    Vector Int 12 :=
  Vector.ofFn fun c => if c.val < s.busTable.busWidth b then accumulate s.strips e.stripCells samples feeds c else 0

/-- An accumulator scaled by a gain cell: rounded half upward at 2^28, before the clamp (R43, R45). -/
def scaled (acc : Int) (gain : Nat) : Int := (acc * gain + 134217728) / 268435456

/-- Whether a value lies outside the sample range. -/
def overloads (x : Int) : Bool := decide (x < Config.sampleMin) || decide (Config.sampleMax < x)

/-- The outputs of a bus from its accumulators and the current value of its gain cell; a channel without an
accumulator gives 0 (R43, R45). -/
def busOutputs (acc : Vector Int 12) (gain : Nat) : Vector Int 12 := acc.map fun a => sat24 (scaled a gain)

/-- Whether an output of a bus was clamped (R43, R45). -/
def busSaturates (acc : Vector Int 12) (gain : Nat) : Bool := acc.any fun a => overloads (scaled a gain)

/-- The sum of channel `c` of the stems in print (R47). -/
def printSum (print : Vector Bool 8) (stems : Vector (Vector Int 12) 8) (c : Channel) : Int :=
  (List.finRange 8).foldl (fun acc i => if print[i] then acc + (stems[i])[c] else acc) 0

/-- Destination PREMIX `b`. -/
def toPremix (b : PremixNo) : Dest → Bool
  | .premix k => k == b
  | .none | .stem _ => false

/-- Destination STEM `t`. -/
def toStem (t : StemNo) : Dest → Bool
  | .stem k => k == t
  | .none | .premix _ => false

/-- Bus number of a premix. -/
def premixBus (b : PremixNo) : BusNo := ⟨b.val, by omega⟩

/-- Bus number of a stem (R51). -/
def stemBus (t : StemNo) : BusNo := ⟨t.val + 16, by omega⟩

/-- What stages 1 to 7 of a sample period form. -/
structure Mix where
  engine : Engine
  handed : Handed
  saturated : Saturated

/-- Stages 1 to 7 of the sample period, and the values of stage 9 (R28). -/
def State.mix (s : State) : Mix :=
  let e := advanceCells s.engine
  let direct : Vector Int 160 := Vector.ofFn fun n => gather s.audio Handed.zero.premix s.strips[n]
  let premixAcc : Vector (Vector Int 12) 16 := Vector.ofFn fun b => busAccumulators s e direct (premixBus b) (toPremix b)
  let premixOut : Vector (Vector Int 12) 16 :=
    Vector.ofFn fun b => busOutputs premixAcc[b] e.gainCells[premixBus b].current
  let samples : Vector Int 160 := Vector.ofFn fun n => gather s.audio premixOut s.strips[n]
  let stemAcc : Vector (Vector Int 12) 8 := Vector.ofFn fun t => busAccumulators s e samples (stemBus t) (toStem t)
  let stemOut : Vector (Vector Int 12) 8 := Vector.ofFn fun t => busOutputs stemAcc[t] e.gainCells[stemBus t].current
  let sums : Vector Int 12 := Vector.ofFn fun c => printSum s.busTable.print stemOut c
  let acc : Vector (Vector Int 12) 24 := premixAcc ++ stemAcc
  { engine := { e with accumulators := acc },
    handed :=
      { premix := premixOut, stem := stemOut, master := sums.map sat24,
        raw := Vector.ofFn fun l => Vector.ofFn fun t => s.audio.rawSlot l t },
    saturated :=
      { buses := Vector.ofFn fun b => busSaturates acc[b] e.gainCells[b].current,
        master := sums.any overloads } }

/-! ### Meters (R64, R65) -/

/-- Sample periods per meter tick (R65). -/
def tickPeriods : SampleRate → Nat
  | .k48 => 480 | .k96 => 960

/-- A meter takes the output it serves, and then the tick if the period is one and it took no new peak (R64,
R65). -/
def Meter.take (hold : Nat) (tick : Bool) (output : Int) (m : Meter) : Meter :=
  if m.value < output.natAbs then { value := output.natAbs, hold }
  else if tick then
    if 0 < m.hold then { m with hold := m.hold - 1 } else { m with value := m.value * 7 / 8 }
  else m

/-- Whether the next sample period is a meter tick (R65). -/
def State.tickDue (s : State) : Bool := decide (tickPeriods s.audio.rate ≤ s.busTable.tickCounter + 1)

/-- Stage 8's meters and tick counter (R64, R65). -/
def takeLevels (tick : Bool) (h : Handed) (t : BusTable) : BusTable :=
  { t with
    stemMeters := Vector.ofFn fun i : Fin 96 =>
      t.stemMeters[i].take t.holdSetting tick (h.stem[i.val / 12])[i.val % 12],
    masterMeters := Vector.ofFn fun c => t.masterMeters[c].take t.holdSetting tick h.master[c],
    tickCounter := if tick then 0 else t.tickCounter + 1 }

/-- The sample period of the summing engine: the nine stages as one event (R28). -/
def enginePeriod (s : State) : State :=
  let m := s.mix
  let s1 := { s with
    engine := m.engine,
    busTable := takeLevels s.tickDue m.handed s.busTable,
    audio := { s.audio with handed := m.handed, handedBefore := s.audio.handed, engineTaken := true } }
  takeSaturation m.saturated s1

/-- The step of a cell by its number: 12 n + c is cell c of strip n, 1,920 + b the gain cell of bus b (R33). -/
def Engine.cell (e : Engine) (k : CellNo) : Cell :=
  if h : k.val < 1920 then (e.stripCells[k.val / 12]'(by omega))[k.val % 12]'(Nat.mod_lt _ (by omega))
  else e.gainCells[k.val - 1920]'(by omega)

/-- Whether a cell settles at the next stage 2 (R38). -/
def Cell.settlesNext (c : Cell) : Bool := c.step + 1 == c.length

/-! ### Output frames (R158, R159) -/

/-- The value of a selection in the values handed for a period (R157, R158). -/
def Audio.selectedValue (a : Audio) (h : Handed) : Selection → Int
  | .silent => 0
  | .master c => h.master[c]
  | .stem t c => (h.stem[t])[c]
  | .premix b c => (h.premix[b])[c]
  | .input l t => if a.lanes[l].up && slotPresent a.rate t.val then (h.raw[l])[t] else 0

/-- The value that an output slot carries: 0 while a trigger it is flagged for is active (R158). -/
def Audio.slotValue (a : Audio) (h : Handed) (e : PatchEntry) : Int :=
  if (e.safe0 && a.trigger0) || (e.safe1 && a.trigger1) then 0 else a.selectedValue h e.selection

/-- The values of the previous sample period's stage 9 (R159, log 14). -/
def Audio.previous (a : Audio) : Handed := if a.engineTaken then a.handedBefore else a.handed

/-- The output frames formed from the previous period's values, with the selections, flags, triggers and lanes as they
stand when this is taken (log 29); absent slots are not transmitted, held as 0 (R158, R159). -/
def Audio.formFrames (a : Audio) : Vector (Vector Int 16) 8 :=
  Vector.ofFn fun l => Vector.ofFn fun t =>
    if slotPresent a.rate t.val then a.slotValue a.previous (a.patch[16 * l.val + t.val]'(by omega)) else 0

end Sys2Proof.Machine
end

