-- ==== Sys2Proof/Machine/Sync.lean ====
section
/-!
DEFINITION. The sync monitor (R149 to R152) and the input lanes (R153 to R155):
SAMPLE_PERIOD_REFERENCE, WCLK_EDGE, WCLK_TIMEOUT, MISSING_EDGE, SYNC_LOCK, SYNC_LOSS, LANE_FRAME and LANE_UP.
An event command whose condition does not hold has no effect (log 4).
-/
namespace Sys2Proof.Machine

/-- The nominal sample period T, in units of 1/3,072,000,000 s (R148, log 10). -/
def nominalPeriod : SampleRate → Nat
  | .k48 => 64000 | .k96 => 32000

/-- Inside the window: at least 31/32 T and at most 33/32 T after the reference point (R149). -/
def insideWindow (rate : SampleRate) (elapsed : Nat) : Bool :=
  decide (31 * nominalPeriod rate ≤ 32 * elapsed) && decide (32 * elapsed ≤ 33 * nominalPeriod rate)

/-- A sample period starts: the engine has not taken it yet (R150, log 14). -/
def Audio.startPeriod (a : Audio) : Audio := { a with engineTaken := false }

/-- The monitor locks (R151). -/
def Audio.lock (a : Audio) : Audio := { a with locked := true, lockCount := 0, missing := 0, measuring := false }

/-- A WCLK edge while FREE measures the spacing from the edge before it (R151). -/
def Audio.measure (elapsed : Nat) (a : Audio) : Audio :=
  if !a.measuring then { a with measuring := true }
  else if insideWindow a.rate elapsed then
    if Config.lockPeriods ≤ a.lockCount + 1 then a.lock.startPeriod else { a with lockCount := a.lockCount + 1 }
  else { a with lockCount := 0 }

/-- A WCLK edge while LOCKED: inside the window it starts the sample period, earlier it is ignored (R150). -/
def Audio.follow (elapsed : Nat) (a : Audio) : Audio :=
  if insideWindow a.rate elapsed then { a with missing := 0 }.startPeriod else a

/-- A WCLK edge (R150, R151). -/
def Audio.edge (elapsed : Nat) (a : Audio) : Audio := if a.locked then a.follow elapsed else a.measure elapsed

/-- The loss of sync: FREE, every lane DOWN, and the sample period that the missing edge starts (R152). -/
def Audio.lose (a : Audio) : Audio :=
  { a with locked := false, lockCount := 0, missing := 0, measuring := false,
           lanes := Vector.replicate 8 Lane.down }.startPeriod

/-- A missing edge while LOCKED (R150, R152). -/
def Audio.missEdge (a : Audio) : Audio :=
  if Config.lossEdges ≤ a.missing + 1 then a.lose else { a with missing := a.missing + 1 }.startPeriod

/-- WCLK shows no edge for more than 33/32 T: one bad period, and the next edge starts a new measurement
(R149, R151). -/
def Audio.timeout (a : Audio) : Audio := { a with lockCount := 0, measuring := false }

/-- SAMPLE_PERIOD_REFERENCE: while FREE the internal reference starts a sample period (R150). -/
def execSamplePeriodReference (s : State) : Host.Outcome State Fault Refusal :=
  .next (if s.audio.locked then s else withAudio s.audio.startPeriod s)

/-- WCLK_EDGE (R150, R151). -/
def execWclkEdge (elapsed : Nat) (s : State) : Host.Outcome State Fault Refusal :=
  .next (withAudio (s.audio.edge elapsed) s)

/-- WCLK_TIMEOUT: while FREE, a bad period (R149, R151). -/
def execWclkTimeout (s : State) : Host.Outcome State Fault Refusal :=
  .next (if s.audio.locked then s else withAudio s.audio.timeout s)

/-- MISSING_EDGE: while LOCKED, the window closes without an edge (R150, R152). -/
def execMissingEdge (s : State) : Host.Outcome State Fault Refusal :=
  .next (if s.audio.locked then withAudio s.audio.missEdge s else s)

/-- Whether the next good WCLK period locks the monitor (R151). -/
def Audio.lockDue (a : Audio) : Bool := !a.locked && a.measuring && decide (Config.lockPeriods ≤ a.lockCount + 1)

/-- SYNC_LOCK: the edge that ends the 256th good period (R151). -/
def execSyncLock (s : State) : Host.Outcome State Fault Refusal :=
  .next (if s.audio.lockDue then withAudio s.audio.lock.startPeriod s else s)

/-- Whether the next missing edge loses sync (R152). -/
def Audio.lossDue (a : Audio) : Bool := a.locked && decide (Config.lossEdges ≤ a.missing + 1)

/-- SYNC_LOSS: the fourth missing edge (R152). -/
def execSyncLoss (s : State) : Host.Outcome State Fault Refusal :=
  .next (if s.audio.lossDue then withAudio s.audio.lose s else s)

/-! ### Input lanes -/

/-- The slot values a lane takes from a frame: an absent slot holds 0 (R148, R153). -/
def takenSlots (rate : SampleRate) (slots : Vector LaneSample 16) : Vector Int 16 :=
  Vector.ofFn fun t => if slotPresent rate t.val then slots[t].toInt else 0

/-- A lane that is UP with these slot values (R154, R155). -/
def Lane.upWith (slots : Vector Int 16) : Lane := { up := true, markers := 0, slots }

/-- A lane takes a frame (R153 to R155). -/
def Lane.frame (locked good : Bool) (slots : Vector Int 16) (l : Lane) : Lane :=
  if l.up then if good then { l with slots } else Lane.down
  else if locked then
    if good then
      if Config.upMarkers ≤ l.markers + 1 then Lane.upWith slots else { l with markers := l.markers + 1 }
    else { l with markers := 0 }
  else l

/-- The audio interface with lane `l` changed by `f`. -/
def Audio.modLane (a : Audio) (l : LaneNo) (f : Lane → Lane) : Audio := { a with lanes := upd a.lanes l f }

/-- LANE_FRAME: lane `l` takes its frame at a sample period (R153 to R156). -/
def execLaneFrame (l : LaneNo) (good : Bool) (slots : Vector LaneSample 16) (s : State) :
    Host.Outcome State Fault Refusal :=
  .next (withAudio (s.audio.modLane l (Lane.frame s.audio.locked good (takenSlots s.audio.rate slots))) s)

/-- Whether the next good marker brings lane `l` UP (R154). -/
def Audio.upDue (a : Audio) (l : LaneNo) : Bool :=
  a.locked && !a.lanes[l].up && decide (Config.upMarkers ≤ a.lanes[l].markers + 1)

/-- LANE_UP: the 16th consecutive good marker (R154). -/
def execLaneUp (l : LaneNo) (slots : Vector LaneSample 16) (s : State) : Host.Outcome State Fault Refusal :=
  .next (if s.audio.upDue l then
    withAudio (s.audio.modLane l fun _ => Lane.upWith (takenSlots s.audio.rate slots)) s
  else s)

end Sys2Proof.Machine
end

