-- ==== Sys2Proof/Machine/Periods.lean ====
section
/-!
DEFINITION. The events of a sample period: ENGINE_SAMPLE_PERIOD, CELL_SETTLE, METER_TICK, OUTPUT_FRAME,
TIMELINE_SAMPLE_PERIOD, LINE_CHANGE, SETTLE_END and FRAME_BOUNDARY. A row that names what comes about inside
an event is that event, taken when the thing does come about; else it has no effect (log 4, log 5).
-/
namespace Sys2Proof.Machine

/-- ENGINE_SAMPLE_PERIOD: the nine stages (R28). -/
def execEngineSamplePeriod (s : State) : Host.Outcome State Fault Refusal := .next (enginePeriod s)

/-- CELL_SETTLE: the engine's sample period at which cell `c` takes its last step (R38). -/
def execCellSettle (c : CellNo) (s : State) : Host.Outcome State Fault Refusal :=
  .next (if (s.engine.cell c).settlesNext then enginePeriod s else s)

/-- METER_TICK: the engine's sample period at which the tick counter is full (R65). -/
def execMeterTick (s : State) : Host.Outcome State Fault Refusal :=
  .next (if s.tickDue then enginePeriod s else s)

/-- OUTPUT_FRAME: every output lane transmits the frame formed from the previous period's values (R158,
R159).

DESIGN CHOICE, unsafe (log 29): the frame is formed here, as it is transmitted, so that a PATCH-SET, a trigger or a lane
that changes after the period started (SYNC_LOSS, which starts its period, among them) acts on it already; R159 does not
say in which period a frame is formed, and the examples of sections 8.5 and 8.6 form it in the period of its stage 9. -/
def execOutputFrame (s : State) : Host.Outcome State Fault Refusal :=
  .next { s with audio := { s.audio with outFrames := s.audio.formFrames } }

/-- TIMELINE_SAMPLE_PERIOD: the timeline's steps (R98). -/
def execTimelineSamplePeriod (v : LineLevels) (s : State) : Host.Outcome State Fault Refusal :=
  .next (timelinePeriod v s)

/-- LINE_CHANGE: the timeline's sample period at which the filtered state of line `l` changes (R93, R95). -/
def execLineChange (l : Line) (v : LineLevels) (s : State) : Host.Outcome State Fault Refusal :=
  .next (if (s.timeline.line l).changes (levelOf v l) then timelinePeriod v s else s)

/-- SETTLE_END: the timeline's sample period at which settle remaining reaches 0 (R103). -/
def execSettleEnd (v : LineLevels) (s : State) : Host.Outcome State Fault Refusal :=
  .next (if settleEnds v s.timeline then timelinePeriod v s else s)

/-- FRAME_BOUNDARY: the timeline's sample period at which the phase reaches SPF (R99, R100). -/
def execFrameBoundary (v : LineLevels) (s : State) : Host.Outcome State Fault Refusal :=
  .next (if reachesBoundary v s then timelinePeriod v s else s)

end Sys2Proof.Machine
end

