-- ==== Sys2Proof/Machine/Dispatch.lean ====
section
/-!
DEFINITION. `exec`: one arm per command, one meaning per arm. Every command has its meaning.
-/
namespace Sys2Proof.Machine

/-- The effect of a command on everything but the queue. -/
def exec (i : Instr) (s : State) : Host.Outcome State Fault Refusal :=
  match i with
  | .deviceReset rate present => Sys2Proof.Machine.execDeviceReset rate present s
  | .attach p => Sys2Proof.Machine.execAttach p s
  | .detach p => Sys2Proof.Machine.execDetach p s
  | .transactionBegin p => Sys2Proof.Machine.execTransactionBegin p s
  | .frameRejected p bits => Sys2Proof.Machine.execFrameRejected p bits s
  | .null p => Sys2Proof.Machine.execNull p s
  | .move p posted surface field op index value => Sys2Proof.Machine.execMove p posted surface field op index value s
  | .flags p posted start count op sel set => Sys2Proof.Machine.execFlags p posted start count op sel set s
  | .setRoute p surface source dest carried pan => Sys2Proof.Machine.execSetRoute p surface source dest carried pan s
  | .setStrip p surface source polarity dest fader mute pan mode lp => Sys2Proof.Machine.execSetStrip p surface source polarity dest fader mute pan mode lp s
  | .setMode p surface mode => Sys2Proof.Machine.execSetMode p surface mode s
  | .readRun p start count => Sys2Proof.Machine.execReadRun p start count s
  | .readNext p count => Sys2Proof.Machine.execReadNext p count s
  | .readCells p kind number => Sys2Proof.Machine.execReadCells p kind number s
  | .setRamp p length => Sys2Proof.Machine.execSetRamp p length s
  | .setBus p bus sel width gain mute print => Sys2Proof.Machine.execSetBus p bus sel width gain mute print s
  | .setMaster p width => Sys2Proof.Machine.execSetMaster p width s
  | .busRead p first count => Sys2Proof.Machine.execBusRead p first count s
  | .clearClip p set => Sys2Proof.Machine.execClearClip p set s
  | .meterRead p => Sys2Proof.Machine.execMeterRead p s
  | .meterConfig p hold => Sys2Proof.Machine.execMeterConfig p hold s
  | .claim p kind first count => Sys2Proof.Machine.execClaim p kind first count s
  | .release p kind first count => Sys2Proof.Machine.execRelease p kind first count s
  | .yield p kind number target => Sys2Proof.Machine.execYield p kind number target s
  | .touch p surface => Sys2Proof.Machine.execTouch p surface s
  | .untouch p surface => Sys2Proof.Machine.execUntouch p surface s
  | .watchAdd p surface => Sys2Proof.Machine.execWatchAdd p surface s
  | .watchRemove p surface => Sys2Proof.Machine.execWatchRemove p surface s
  | .watchRead p => Sys2Proof.Machine.execWatchRead p s
  | .signal p target flag => Sys2Proof.Machine.execSignal p target flag s
  | .clearSignal p set => Sys2Proof.Machine.execClearSignal p set s
  | .save p surface => Sys2Proof.Machine.execSave p surface s
  | .recallStrip p => Sys2Proof.Machine.execRecall p s
  | .lineConfig p line polarity filter => Sys2Proof.Machine.execLineConfig p line polarity filter s
  | .locate p frame => Sys2Proof.Machine.execLocate p frame s
  | .loopSet p start stop on => Sys2Proof.Machine.execLoopSet p start stop on s
  | .timelineConfig p rate => Sys2Proof.Machine.execTimelineConfig p rate s
  | .timelineRead p => Sys2Proof.Machine.execTimelineRead p s
  | .openPass p low high => Sys2Proof.Machine.execOpenPass p low high s
  | .closePass p => Sys2Proof.Machine.execClosePass p s
  | .cue p cues => Sys2Proof.Machine.execCue p cues s
  | .passRead p => Sys2Proof.Machine.execPassRead p s
  | .take p count => Sys2Proof.Machine.execTake p count s
  | .patchSet p first entries => Sys2Proof.Machine.execPatchSet p first entries s
  | .patchRead p first count => Sys2Proof.Machine.execPatchRead p first count s
  | .laneRead p => Sys2Proof.Machine.execLaneRead p s
  | .status p => Sys2Proof.Machine.execStatus p s
  | .enable p set => Sys2Proof.Machine.execEnable p set s
  | .clear p set => Sys2Proof.Machine.execClear p set s
  | .windowSet p window enabled first last base viewOnly => Sys2Proof.Machine.execWindowSet p window enabled first last base viewOnly s
  | .windowRead p => Sys2Proof.Machine.execWindowRead p s
  | .samplePeriodReference => Sys2Proof.Machine.execSamplePeriodReference s
  | .wclkEdge elapsed => Sys2Proof.Machine.execWclkEdge elapsed s
  | .wclkTimeout => Sys2Proof.Machine.execWclkTimeout s
  | .missingEdge => Sys2Proof.Machine.execMissingEdge s
  | .syncLock => Sys2Proof.Machine.execSyncLock s
  | .syncLoss => Sys2Proof.Machine.execSyncLoss s
  | .laneFrame l good slots => Sys2Proof.Machine.execLaneFrame l good slots s
  | .laneUp l slots => Sys2Proof.Machine.execLaneUp l slots s
  | .engineSamplePeriod => Sys2Proof.Machine.execEngineSamplePeriod s
  | .cellSettle c => Sys2Proof.Machine.execCellSettle c s
  | .meterTick => Sys2Proof.Machine.execMeterTick s
  | .outputFrame => Sys2Proof.Machine.execOutputFrame s
  | .timelineSamplePeriod v => Sys2Proof.Machine.execTimelineSamplePeriod v s
  | .lineChange l v => Sys2Proof.Machine.execLineChange l v s
  | .settleEnd v => Sys2Proof.Machine.execSettleEnd v s
  | .frameBoundary v => Sys2Proof.Machine.execFrameBoundary v s

end Sys2Proof.Machine
end

