-- ==== Sys2Proof/Safety.lean ====
section
/-!
DEFINITION. What counts as a sound state: the laws of the spec that hold between any two events. Each is a
statement about one state; claims say that device reset gives it and that every step keeps it.
-/
namespace Sys2Proof.Machine

/-- A port is ATTACHED. -/
def State.isAttached (s : State) (p : PortId) : Prop := (s.port p).attached = true

/-! ### Positions -/

/-- Holders and touchers are attached ports, and the toucher of a held strip is its holder (R74, R79). -/
structure State.HandsLaw (s : State) : Prop where
  holder_attached : ∀ n p, (s.strip n).holder = some p → s.isAttached p
  toucher_attached : ∀ n p, (s.strip n).toucher = some p → s.isAttached p
  toucher_is_holder : ∀ n p q, (s.strip n).holder = some p → (s.strip n).toucher = some q → q = p
  bus_holder_attached : ∀ b p, (s.bus b).holder = some p → s.isAttached p

/-- The state of one port: the sizes of its lists and counts, that a DETACHED port holds none of its
per-port state, and that the reply slot is empty during a transaction (R70, R82, R88, R163, R170, R172). -/
structure PortState.Law (q : PortState) : Prop where
  watches_size : q.watches.length ≤ 4
  watches_distinct : (q.watches.map (·.strip)).Nodup
  recall_size : q.recallStack.length ≤ 8
  pointer_range : q.pointer ≤ 256
  refusals_range : q.refusals ≤ 255
  detached_empty : q.attached = false → q = PortState.fresh false q.transaction
  not_opened_detached : q.attached = false → q.transaction ≠ .opened
  opened_empty : q.transaction = .opened → q.replySlot = none

/-- The law of every port. -/
def State.PortsLaw (s : State) : Prop := ∀ p, (s.port p).Law

/-! ### Strips -/

/-- A pan list: 1 to 4 entries with distinct channels and weights of at most 16,384 (R6). -/
structure PanLawful (l : List PanEntry) : Prop where
  shaped : panShaped l = true
  weights : ∀ e ∈ l, e.weight ≤ 16384

/-- The rule of sources, and every pan list in its shape; a live pan fits its destination (R3, R5, R6, R88,
R114). -/
structure State.PansLaw (s : State) : Prop where
  live_lawful : ∀ n, PanLawful (s.strip n).pan
  live_fits : ∀ n, s.busTable.panFits (s.strip n).dest (s.strip n).pan = true
  sources : ∀ n, routeAllowed (s.strip n).source (s.strip n).dest = true
  shadow_lawful : ∀ n l, (s.strip n).shadowPan = some l → PanLawful l
  cue_lawful : ∀ c ∈ s.playback.cues, ∀ l, c.value = .pan l → PanLawful l
  snapshot_lawful : ∀ p, ∀ k ∈ (s.port p).recallStack, PanLawful k.pan

/-- Faders, trims and gains of at most 65,535 and weights of at most 16,384, wherever a value is held that a cell
target can be formed from: live, shadow, in a cue, in a snapshot, in a bus record (R1, R51, R88, R114). -/
structure State.ValuesLaw (s : State) : Prop where
  faders : ∀ n, (s.strip n).fader ≤ 65535
  trims : ∀ n, (s.strip n).trim ≤ 65535
  shadow_faders : ∀ n v, (s.strip n).shadowFader = some v → v ≤ 65535
  gains : ∀ b, (s.bus b).gain ≤ 65535
  cue_faders : ∀ c ∈ s.playback.cues, ∀ v, c.value = .fader v → v ≤ 65535
  snapshot_faders : ∀ p, ∀ k ∈ (s.port p).recallStack, k.fader ≤ 65535
  weights : ∀ n, ∀ e ∈ (s.strip n).pan, e.weight ≤ 16384
  shadow_weights : ∀ n l, (s.strip n).shadowPan = some l → ∀ e ∈ l, e.weight ≤ 16384
  cue_weights : ∀ c ∈ s.playback.cues, ∀ l, c.value = .pan l → ∀ e ∈ l, e.weight ≤ 16384
  snapshot_weights : ∀ p, ∀ k ∈ (s.port p).recallStack, ∀ e ∈ k.pan, e.weight ≤ 16384

/-- A cell on its ramp: every value within 0 to 65,535, the current value between start and target, and equal to the
target once settled (R33, R38). -/
structure Cell.Law (c : Cell) : Prop where
  start_range : c.start ≤ 65535
  target_range : c.target ≤ 65535
  current_range : c.current ≤ 65535
  length_pos : 1 ≤ c.length
  length_range : c.length ≤ 1024
  step_range : c.step ≤ c.length
  above : min c.start c.target ≤ c.current
  below : c.current ≤ max c.start c.target
  settled : c.step = c.length → c.current = c.target

/-- Every cell on its ramp, a ramp length of 1 to 1,024, and the ranges of the values that form targets (R33, R34,
R35, R38, R40). -/
structure State.CellsLaw (s : State) : Prop where
  values : s.ValuesLaw
  ramp_pos : 1 ≤ s.engine.rampLength
  ramp_range : s.engine.rampLength ≤ 1024
  strip_cells : ∀ (n : StripNo) (c : Channel), ((s.cells n)[c]).Law
  gain_cells : ∀ b : BusNo, (s.engine.gainCells[b]).Law

/-- Every cell's target is the one that the record forms: used values, destination and width for a strip,
gain and mute for a bus (R9, R34, R35, R36). -/
structure State.TargetsLaw (s : State) : Prop where
  strip_targets : ∀ (n : StripNo) (c : Channel), ((s.cells n)[c]).target = s.target n c
  gain_targets : ∀ b : BusNo, (s.engine.gainCells[b]).target = (s.bus b).gainTarget

/-! ### Timeline -/

/-- A line record: filter length and difference count of 0 to 255, and a count that has not reached the filter
length (R92, R93). -/
structure LineRecord.Law (l : LineRecord) : Prop where
  filter_range : l.filter ≤ 255
  count_range : l.count ≤ 255
  count_below : l.count = 0 ∨ l.count < l.filter

/-- The timeline's fields stay in their ranges and agree with each other (R92, R93, R96, R97, R100, R101). -/
structure State.TimelineLaw (s : State) : Prop where
  lines : ∀ l : Line, (s.timeline.line l).Law
  counter_range : s.timeline.counter ≤ 16777215
  loop_start_range : s.timeline.loopStart ≤ 16777215
  loop_end_range : s.timeline.loopEnd ≤ 16777215
  loop_order : s.timeline.loopEnabled = true → s.timeline.loopStart ≤ s.timeline.loopEnd
  phase_range : s.timeline.phase < s.spf
  settle_range : s.timeline.settle ≤ 8000
  direction : s.timeline.reverse = s.timeline.rev.filtered
  counting_iff : s.timeline.counting = (s.timeline.roll.filtered && s.timeline.settle == 0)

/-! ### Playback and writing -/

/-- Cue `d` may follow cue `c` in play order (R114). -/
def inPlayOrder (reverse : Bool) (c d : Cue) : Prop := if reverse then d.frame ≤ c.frame else c.frame ≤ d.frame

/-- Frame `f` lies ahead of frame `g` in the current direction (R116). -/
def ahead (reverse : Bool) (f g : Nat) : Prop := if reverse then f < g else g < f

/-- The cue queue is in play order, ahead of the counter, at most 1,024 long and empty under a closed pass
(R108, R114, R121). -/
structure State.CuesLaw (s : State) : Prop where
  size : s.playback.cues.length ≤ 1024
  play_order : s.playback.cues.Pairwise (inPlayOrder s.timeline.reverse)
  cues_ahead : ∀ c ∈ s.playback.cues, ahead s.timeline.reverse c.frame s.timeline.counter
  closed_empty : s.playback.passOpen = false → s.playback.cues = []
  port_iff_open : s.playback.passPort.isSome = s.playback.passOpen

/-- The roles and the take queue (R108, R109, R112, R141, R144). -/
structure State.RolesLaw (s : State) : Prop where
  port_iff_open : s.playback.passPort.isSome = s.playback.passOpen
  open_take_port : s.playback.passOpen = true → s.writing.takePort = s.playback.passPort
  take_port_attached : ∀ p, s.writing.takePort = some p → s.isAttached p
  takes_size : s.writing.takes.length ≤ 1024
  none_empty : s.writing.takePort = none → s.writing.takes = []
  closed_empty : s.playback.passOpen = false → s.writing.takes = [] → s.writing.takePort = none

/-- The write state of a strip against its arming, trigger and trim (R126, R128, R136). -/
structure State.WriteLawAt (s : State) (n : StripNo) : Prop where
  unarmed : s.armed n = false → (s.strip n).writeState = .off
  armed : s.armed n = true → (s.strip n).writeState ≠ .off
  waiting : (s.strip n).writeState = .wait → s.trigger n = true
  ready : (s.strip n).writeState = .ready → s.trigger n = false
  writing : (s.strip n).writeState = .writing → s.trigger n = true ∧ s.timeline.counting = true
  latched : (s.strip n).writeState = .latched →
    s.trigger n = false ∧ s.timeline.counting = true ∧ (s.strip n).mode = .latch
  trim_unity : ¬((s.strip n).mode = .trim ∧ (s.strip n).writeState = .writing) → (s.strip n).trim = 16384

/-- The write state law of every strip, with the counting field as R97 has it. -/
structure State.WritingLaw (s : State) : Prop where
  counting_iff : s.timeline.counting = (s.timeline.roll.filtered && s.timeline.settle == 0)
  strips : ∀ n, s.WriteLawAt n

/-! ### Audio interface -/

/-- An input lane against the sync state and the sample rate, its slots in the sample range (R148, R153 to R155). -/
structure Lane.Law (locked : Bool) (rate : SampleRate) (l : Lane) : Prop where
  sample_range : ∀ t : SlotNo, -8388608 ≤ l.slots[t] ∧ l.slots[t] ≤ 8388607
  free_down : locked = false → l.up = false
  free_markers : locked = false → l.markers = 0
  up_markers : l.up = true → l.markers = 0
  markers_range : l.markers ≤ 15
  down_silent : l.up = false → ∀ t : SlotNo, l.slots[t] = 0
  absent_silent : ∀ t : SlotNo, slotPresent rate t.val = false → l.slots[t] = 0

/-- The sync monitor's counts and every lane (R149, R153 to R155). -/
structure State.LanesLaw (s : State) : Prop where
  lock_range : s.audio.lockCount ≤ 255
  missing_range : s.audio.missing ≤ 3
  free_missing : s.audio.locked = false → s.audio.missing = 0
  locked_count : s.audio.locked = true → s.audio.lockCount = 0
  lanes : ∀ l : LaneNo, (s.audio.lanes[l]).Law s.audio.locked s.audio.rate

end Sys2Proof.Machine
end

