-- ==== Sys2Proof/Claims.lean ====
section
/-!
DEFINITION. The words in which claims are stated: what a request leaves at its port, when a change of a strip is
accepted, and what an accepted change of a strip does. They read the state; no meaning uses them.
-/
namespace Sys2Proof.Machine

/-! ### Replies -/

/-- A port after a request that ended on it and left the reply slot as given. -/
def PortState.left (r : Option Reply) (q : PortState) : PortState :=
  { q with transaction := .idle, shiftOut := [], replySlot := r }

/-- The state after a request of port `p` that left this reply and changed nothing else. -/
def State.leaves (s : State) (p : PortId) (r : Option Reply) : State := s.modPort p (PortState.left r)

/-- A reply with a status and items. -/
def reply (code : Byte) (st : Status) (items : List Byte) : Option Reply :=
  some { status := st, code, payload := items }

/-- What a posted change that was refused leaves: no reply, one more posted refusal, and REFUSED pending (R172). -/
def CountedOnce (p : PortId) (s t : State) : Prop :=
  t = s.modPort p fun q =>
    { q with
      transaction := .idle, shiftOut := [], replySlot := if q.transaction = .idle then none else q.replySlot,
      refusals := min 255 (q.refusals + 1), pendingSet := q.pendingSet ||| 0x400#12 }

/-- Port `p` as it stood, but for the reply, the end of its transaction, and its pending set. -/
def ownPortKept (p : PortId) (s t : State) : Prop :=
  t.port p = { s.port p with
    transaction := .idle, shiftOut := [], replySlot := (t.port p).replySlot, pendingSet := (t.port p).pendingSet }

/-- Every port but `p` as it stood. -/
def otherPortsKept (p : PortId) (s t : State) : Prop := ∀ q, q ≠ p → t.port q = s.port q

/-- The reply slot after a request of port `p`: posted, it leaves no reply, and the slot keeps what the beginning of
the transaction left in it; else it holds the reply (R163, R165, R172). -/
def Replied (posted : Bool) (p : PortId) (r : Option Reply) (s t : State) : Prop :=
  (t.port p).replySlot =
    if posted then (if (s.port p).transaction = .idle then none else (s.port p).replySlot) else r

/-- No bit of the pending set of port `q` outside `may` changed. -/
def pendingKept (may : BitVec 12) (q : PortId) (s t : State) : Prop :=
  (t.port q).pendingSet &&& ~~~may = (s.port q).pendingSet &&& ~~~may

/-- Bit `b` of the pending set of port `q` is raised on `why`, and else stands: a reason is raised at an ATTACHED port
only (R173). -/
def raisedWhen (b : Nat) (q : PortId) (why : Prop) (s t : State) : Prop :=
  (t.port q).pendingSet.getLsbD b = true ↔
    (s.port q).pendingSet.getLsbD b = true ∨ ((s.port q).attached = true ∧ why)

/-- Every port but `p` as it stood, but for its pending set. -/
def otherPortsRaised (p : PortId) (s t : State) : Prop :=
  ∀ q, q ≠ p → t.port q = { s.port q with pendingSet := (t.port q).pendingSet }

/-! ### Acceptance (R12, R13) -/

/-- Neither the holder nor the toucher of a strip is a port other than `p` (R12). -/
abbrev Strip.openTo (p : PortId) (r : Strip) : Prop :=
  (r.holder = none ∨ r.holder = some p) ∧ (r.toucher = none ∨ r.toucher = some p)

/-- Automated fields of strip `n` go to its live values: the first three rows of R13. -/
abbrev State.writesLive (s : State) (n : StripNo) : Prop :=
  s.playback.passOpen = false ∨ (s.strip n).mode = .live ∨
    (((s.strip n).writeState = .writing ∨ (s.strip n).writeState = .latched) ∧
      ((s.strip n).mode = .write ∨ (s.strip n).mode = .touch ∨ (s.strip n).mode = .latch))

/-- A FADER of strip `n` goes to its trim: the fourth row of R13. -/
abbrev State.writesTrim (s : State) (n : StripNo) : Prop :=
  s.playback.passOpen = true ∧ (s.strip n).mode = .trim ∧ (s.strip n).writeState = .writing

/-! ### What an accepted change of a strip does (R15) -/

/-- A cell `x` of strip `n` after a retarget by R36 and R37, taken when a used value differs between the states
(R9). -/
def rampedCell (s t : State) (n : StripNo) (c : Channel) (x : Cell) : Cell :=
  if t.used n = s.used n ∨ x.target = t.target n c then x
  else { current := x.current, start := x.current, target := t.target n c, length := s.engine.rampLength, step := 0 }

/-- The cells of strip `n` after one such retarget. -/
def Ramped (n : StripNo) (s t : State) : Prop := ∀ c : Channel, (t.cells n)[c] = rampedCell s t n c (s.cells n)[c]

/-- The cells of strip `n` after a cut by R39. -/
def Cut (n : StripNo) (s t : State) : Prop :=
  ∀ c : Channel, (t.cells n)[c] =
    { current := t.target n c, start := t.target n c, target := t.target n c,
      length := ((s.cells n)[c]).length, step := ((s.cells n)[c]).length }

/-- The writing block after these take records: each is appended at the tail while the queue holds fewer than 1,024,
and else dropped and counted lost (R141). -/
def Writing.afterRecords (w : Writing) (rs : List TakeRecord) : Writing :=
  { w with
    takes := w.takes ++ rs.take (1024 - w.takes.length),
    lost := if rs.length ≤ 1024 - w.takes.length then w.lost
      else min 65535 (w.lost + (rs.length - (1024 - w.takes.length))) }

/-- HIGH and LOST after these take records: HIGH raised at the take port where an append crosses the high mark, LOST
where a record is dropped (R141, R142). -/
def TakeReasons (rs : List TakeRecord) (s t : State) : Prop :=
  ∀ q,
    raisedWhen 8 q (s.writing.takePort = some q ∧ s.writing.takes.length < s.playback.highMark ∧
      s.playback.highMark ≤ min 1024 (s.writing.takes.length + rs.length)) s t ∧
    raisedWhen 9 q (s.writing.takePort = some q ∧ 1024 - s.writing.takes.length < rs.length) s t

/-- These take records, and no others, are queued or dropped, with the reasons they raise (R141, R142). -/
def Queued (rs : List TakeRecord) (s t : State) : Prop :=
  t.writing = s.writing.afterRecords rs ∧ TakeReasons rs s t

/-- The MOVE records of a change by port `p`: one per written field while the strip writes, else none (R138). -/
def Recorded (p : PortId) (n : StripNo) (written : List FieldValue) (s t : State) : Prop :=
  Queued (if (s.strip n).writeState = .writing ∨ (s.strip n).writeState = .latched then
    written.map (.move s.timeline.counter n p) else []) s t

/-- The watch lists of the other ports after reports by port `p` of changes of these strips: an entry of an ATTACHED
port takes the hit and its mover, and WATCH is raised where one did (R84). -/
def ReportedOf (p : PortId) (strips : StripNo → Bool) (s t : State) : Prop :=
  ∀ q, q ≠ p →
    (t.port q).watches =
      (if (s.port q).attached then
        (s.port q).watches.map fun w => if strips w.strip then { strip := w.strip, hit := true, mover := some p } else w
      else (s.port q).watches) ∧
    raisedWhen 0 q (∃ w ∈ (s.port q).watches, strips w.strip = true) s t

/-- The same after a report of a change of strip `n`. -/
def Reported (p : PortId) (n : StripNo) (s t : State) : Prop := ReportedOf p (fun m => decide (m = n)) s t

/-- No watch list of another port changed, and WATCH rose nowhere. -/
def Unreported (p : PortId) (s t : State) : Prop := ReportedOf p (fun _ => false) s t

/-- Everything that an operation on strip `n` alone leaves as it was, but for the reply of port `p`, the take records,
the watch lists of the other ports, and the reasons WATCH at them and HIGH and LOST. -/
def OnlyStrip (p : PortId) (n : StripNo) (s t : State) : Prop :=
  (∀ m, m ≠ n → t.strip m = s.strip m) ∧ (∀ m, m ≠ n → t.cells m = s.cells m) ∧
  t.engine.gainCells = s.engine.gainCells ∧ t.engine.rampLength = s.engine.rampLength ∧
  t.engine.accumulators = s.engine.accumulators ∧ t.busTable = s.busTable ∧ t.timeline = s.timeline ∧
  t.playback = s.playback ∧ t.audio = s.audio ∧ t.pending = s.pending ∧ t.writing.takePort = s.writing.takePort ∧
  ownPortKept p s t ∧ pendingKept 0x300#12 p s t ∧
  (∀ q, q ≠ p → pendingKept 0x301#12 q s t ∧ t.port q =
    { s.port q with watches := (t.port q).watches, pendingSet := (t.port q).pendingSet })

/-- What an accepted change by port `p` of strip `n` does when it touches neither mode nor trigger: the record
becomes `r`, a changed route or polarity is a cut and a changed used value a retarget, MOVE records of `written`
are queued while the strip writes, other ports' watches take the report, and the rest stays (R15). -/
def Changed (p : PortId) (n : StripNo) (r : Strip) (written : List FieldValue) (s t : State) : Prop :=
  t.strip n = r ∧
  (if r.source = (s.strip n).source ∧ r.dest = (s.strip n).dest ∧ r.inverted = (s.strip n).inverted then Ramped n s t
    else Cut n s t) ∧
  Recorded p n written s t ∧ OnlyStrip p n s t

/-- The automated fields whose carried value differs from the live one of record `r`, in the order fader, mute, pan
(R25, R91). -/
def differing (r : Strip) (fader : Nat) (mute : Bool) (pan : List PanEntry) : List FieldValue :=
  (if fader = r.fader then [] else [.fader fader]) ++ (if mute = r.mute then [] else [.mute mute]) ++
    (if pan = r.pan then [] else [.pan pan])

/-- The write state and the fresh arming of strip `n` after its mode became `m`, its line punch standing as given
(R26, R129 to R131). -/
def State.armedAfresh (s : State) (n : StripNo) (m : Mode) (linePunch : Bool) : WriteState :=
  if s.playback.passOpen = false ∨ m = .live ∨ m = .playback then .off
  else if m = .write then (if s.timeline.counting then .wait else .ready)
  else if (s.strip n).toucher ≠ none ∨ (linePunch = true ∧ s.timeline.punch.filtered = true) then .wait else .ready

/-- A strip armed and WRITING or LATCHED: a change of its mode ends a punch (R131). -/
abbrev State.punching (s : State) (n : StripNo) : Prop :=
  s.armed n = true ∧ ((s.strip n).writeState = .writing ∨ (s.strip n).writeState = .latched)

/-! ### MOVE (R16 to R19) -/

/-- What a MOVE of FADER makes of a fader or trim that holds `old`: REPLACE takes the value carried, ADD adds a
delta from −65,535 to 65,535 and clamps; `none` for another operation or delta (R14, R16, R17). -/
def faderMoved (op : Byte) (value : Value13) (old : Nat) : Option Nat :=
  if op.toNat = 0 then some (valueWord value)
  else if op.toNat = 1 ∧ -65535 ≤ valueDelta value ∧ valueDelta value ≤ 65535 then
    some (min 65535 ((old : Int) + valueDelta value).toNat)
  else none

/-- The pan list that a MOVE of PAN-ENTRY at index `k` makes of a list, before its shape is judged; `none` where
R19 refuses with RANGE. REMOVE is `entry` none. -/
def panEntryMoved (l : List PanEntry) (k : Nat) (entry : Option PanEntry) : Option (List PanEntry) :=
  match entry with
  | some e => if k < l.length then some (l.take k ++ e :: l.drop (k + 1)) else if k = l.length ∧ k ≤ 3 then some (l ++ [e]) else none
  | none => if k < l.length then some (l.take k ++ l.drop (k + 1)) else none

/-- A pan list has the shape of R6 and fits a destination of this width, `none` for NONE. -/
def panAllowed (width : Option Nat) (l : List PanEntry) : Prop :=
  1 ≤ l.length ∧ l.length ≤ 4 ∧ (l.map (·.channel)).Nodup ∧ (∀ w, width = some w → ∀ e ∈ l, e.channel.val < w)

/-- A carried pan is this list: its count is 4 or less, and its entries are these after their weights are clamped (R23,
R24). -/
abbrev carriesPan (v : Value13) (l : List PanEntry) : Prop := (readPan v).count ≤ 4 ∧ (readPan v).entries = some l

/-- A carried pan has a channel above 11. Of a count above 4 the four entries that the field has are judged, which is
the model's choice (log 16). -/
abbrev panOutOfRange (v : Value13) : Prop :=
  ∃ i : Fin 4, i.val < v[0].toNat ∧ 11 < (v[1 + 3 * i.val]'(by omega)).toNat

/-- A source of an unknown kind, or with a lane above 7, a slot above 15, a premix above 15 or a channel above 11
(R14, R178). -/
abbrev sourceOutOfRange (f : SourceField) : Prop :=
  2 < f.kind.toNat ∨ (f.kind.toNat = 1 ∧ (7 < f.first.toNat ∨ 15 < f.second.toNat)) ∨
    (f.kind.toNat = 2 ∧ (15 < f.first.toNat ∨ 11 < f.second.toNat))

/-- A destination of an unknown kind, or with a premix above 15 or a stem above 7 (R14, R178). -/
abbrev destOutOfRange (f : DestField) : Prop :=
  2 < f.kind.toNat ∨ (f.kind.toNat = 1 ∧ 15 < f.number.toNat) ∨ (f.kind.toNat = 2 ∧ 7 < f.number.toNat)

/-- The automated fields that a SET-STRIP carries are those that the strip holds (R24). -/
abbrev Strip.keepsAutomated (r : Strip) (fader : BitVec 16) (mute : Byte) (pan : Value13) : Prop :=
  fader.toNat = r.fader ∧ mute = (if r.mute then 1 else 0) ∧ carriesPan pan r.pan

/-- The field that a MOVE names is open to positions: the live values, or for FADER the trim (R13). -/
abbrev State.moveOpen (s : State) (n : StripNo) (field : Byte) : Prop :=
  s.writesLive n ∨ (field.toNat = 0 ∧ s.writesTrim n)

/-- A MOVE of strip record `r` carries a value that R14 and R19 refuse with RANGE: an unknown field or operation, a
delta beyond 65,535 either way, an index beyond 3 or beyond the count, an index equal to the count with REMOVE, a mute
or REMOVE byte other than 0 and 1, a channel above 11. The operation, the delta and index of an ADD on another field
than FADER, and the channels of a pan whose count is above 4 are judged here by the model's choice (logs 16 and 17). -/
def moveOutOfRange (r : Strip) (field op index : Byte) (value : Value13) : Prop :=
  3 < field.toNat ∨ 1 < op.toNat ∨
  (op.toNat = 1 ∧ (valueDelta value < -65535 ∨ 65535 < valueDelta value)) ∨
  (field.toNat = 3 ∧ (3 < index.toNat ∨ r.pan.length < index.toNat)) ∨
  (op.toNat = 0 ∧ field.toNat = 1 ∧ 1 < value[0].toNat) ∨
  (op.toNat = 0 ∧ field.toNat = 2 ∧ panOutOfRange value) ∨
  (op.toNat = 0 ∧ field.toNat = 3 ∧
    (1 < value[3].toNat ∨ (value[3].toNat = 1 ∧ index.toNat = r.pan.length) ∨
      (value[3].toNat = 0 ∧ 11 < value[0].toNat)))

/-- A MOVE of strip record `r`, its values in range, would give a result that R14 refuses with SHAPE: ADD on a field
other than FADER, a pan or the pan that PAN-ENTRY makes with a wrong count, a repeated channel or a channel at or
beyond the destination's width, or the removal of the last entry. -/
def moveMisshapen (width : Option Nat) (r : Strip) (field op index : Byte) (value : Value13) : Prop :=
  (op.toNat = 1 ∧ field.toNat ≠ 0) ∨
  (op.toNat = 0 ∧ field.toNat = 2 ∧ (4 < value[0].toNat ∨ ∀ l, (readPan value).entries = some l → ¬panAllowed width l)) ∨
  (op.toNat = 0 ∧ field.toNat = 3 ∧
    ((value[3].toNat = 1 ∧ r.pan.length = 1) ∨
      (value[3].toNat = 0 ∧ ∃ e, readEntry value[0] (join2 value[1] value[2]) = some e ∧
        ∃ l, panEntryMoved r.pan index.toNat (some e) = some l ∧ ¬panAllowed width l)))

/-! ### FLAGS (R21) -/

/-- What FLAGS makes of a flag that stood at `old`. -/
def flagTurned (op : Byte) (selected inSet old : Bool) : Bool :=
  if selected then (if op.toNat = 0 then true else if op.toNat = 1 then false else inSet) else old

/-- A strip record after FLAGS: bit 0 MUTE, bit 1 POLARITY, bit 2 LINE-PUNCH (R21, R178). -/
def flagged (op sel set : Byte) (r : Strip) : Strip :=
  { r with
    mute := flagTurned op (sel.getLsbD 0) (set.getLsbD 0) r.mute,
    inverted := flagTurned op (sel.getLsbD 1) (set.getLsbD 1) r.inverted,
    linePunch := flagTurned op (sel.getLsbD 2) (set.getLsbD 2) r.linePunch }

/-- The state with the flags of strip `m` written, the trigger that its line punch turns not yet handed. -/
def State.withFlags (s : State) (op sel set : Byte) (m : StripNo) : State := s.setStrip m (flagged op sel set (s.strip m))

/-- The status with which surface number `k` of a FLAGS from port `p` is refused, `none` where it is applied. RANGE
for an unknown operation, after the other checks and for an empty selection too, is the model's choice (log 17) (R11,
R21). -/
def flagsRefusal (p : PortId) (op sel : Byte) (s : State) (k : Nat) : Option Status :=
  match reachForChange (s.port p) k with
  | .error st => some st
  | .ok n =>
    if ∃ q, (s.strip n).holder = some q ∧ q ≠ p then some .held
    else if ∃ q, (s.strip n).toucher = some q ∧ q ≠ p then some .touched
    else if sel.getLsbD 0 = true ∧ ¬s.writesLive n then some .automated
    else if 2 < op.toNat then some .range
    else none

/-- The strip that surface number `k` of a FLAGS from port `p` is applied to, `none` where the position is
refused (R21). -/
def flagsReach (p : PortId) (op sel : Byte) (s : State) (k : Nat) : Option StripNo :=
  match reachForChange (s.port p) k, flagsRefusal p op sel s k with
  | .ok n, none => some n
  | _, _ => none

/-! ### Write states (R132, R133) -/

/-- The write state of an armed strip after its trigger becomes active (R132). -/
def afterRise (counting : Bool) : WriteState → WriteState
  | .ready => if counting then .writing else .wait
  | .latched => if counting then .writing else .latched
  | w => w

/-- The write state of an armed strip after its trigger becomes inactive by a touch or line change (R133). -/
def afterFall (mode : Mode) : WriteState → WriteState
  | .wait => .ready
  | .writing => if mode = .latch then .latched else .ready
  | w => w

/-- The live fields of strip `m` loaded from the used values, less the pan entries at or beyond the destination's
width; a pan left with no entry is not loaded. The strip is WRITING (R136). -/
def State.punchedIn (s : State) (m : StripNo) : Strip :=
  { s.strip m with
    fader := (s.used m).fader, mute := (s.used m).mute,
    pan := (match s.busTable.destWidth (s.strip m).dest with
      | none => (s.used m).pan
      | some w => match (s.used m).pan.filter fun e => e.channel.val < w with
        | [] => (s.strip m).pan
        | e :: kept => e :: kept),
    writeState := .writing }

/-- TOUCH, LATCH or TRIM. -/
abbrev Mode.triggered (m : Mode) : Prop := m = .touch ∨ m = .latch ∨ m = .trim

/-- The line punch of a strip is on while filtered PUNCH is active. -/
abbrev State.linePunched (s : State) (n : StripNo) : Prop :=
  (s.strip n).linePunch = true ∧ s.timeline.punch.filtered = true

/-- The trigger of a strip in TOUCH, LATCH or TRIM is active (R127). -/
abbrev State.pressing (s : State) (n : StripNo) : Prop := (s.strip n).toucher ≠ none ∨ s.linePunched n

/-- The trigger of strip `n` rises from `old` to `s`, or falls, on a strip armed in TOUCH, LATCH or TRIM (R127). -/
abbrev State.triggerRises (s old : State) (n : StripNo) : Prop :=
  s.armed n = true ∧ (s.strip n).mode.triggered ∧ ¬old.pressing n ∧ s.pressing n

abbrev State.triggerFalls (s old : State) (n : StripNo) : Prop :=
  s.armed n = true ∧ (s.strip n).mode.triggered ∧ old.pressing n ∧ ¬s.pressing n

/-- Strip `n` of `s`, in which an input of its trigger stands changed from `old`, after the writing block acts on it: a
rise punches a READY strip in while the timeline counts, a fall ends a punch in TOUCH or TRIM, and nothing else of
the record moves but the write state (R127, R132, R133, R136, R139). -/
def State.turned (s old : State) (n : StripNo) : Strip :=
  if s.triggerRises old n then
    if (s.strip n).writeState = .ready ∧ s.timeline.counting = true then s.punchedIn n
    else { s.strip n with writeState := afterRise s.timeline.counting (s.strip n).writeState }
  else if s.triggerFalls old n then
    { s.strip n with
      writeState := afterFall (s.strip n).mode (s.strip n).writeState,
      trim := if (s.strip n).mode = .trim ∧ (s.strip n).writeState = .writing then 16384 else (s.strip n).trim }
  else s.strip n

/-- The take record of that: PUNCH-IN with the toucher as its port, PUNCH-OUT with RELEASE, or none (R133, R137). -/
def State.turnRecords (s old : State) (n : StripNo) : List TakeRecord :=
  if s.triggerRises old n ∧ (s.strip n).writeState = .ready ∧ s.timeline.counting = true then
    [.punchIn s.timeline.counter n (s.strip n).toucher (s.strip n).mode (s.punchedIn n).fader (s.punchedIn n).mute
      (s.punchedIn n).pan (if (s.strip n).mode = .trim then some 16384 else none)]
  else if s.triggerFalls old n ∧ (s.strip n).writeState = .writing ∧ (s.strip n).mode ≠ .latch then
    [.punchOut s.timeline.counter n .release]
  else []

/-- The record of strip `n` becomes `r`, which changes nothing used, and the writing block acts on its trigger: the
record, the take records and the cells. -/
def Turned (n : StripNo) (r : Strip) (s t : State) : Prop :=
  t.strip n = (s.setStrip n r).turned s n ∧ Queued ((s.setStrip n r).turnRecords s n) s t ∧ Ramped n s t

/-- Strip `n` after port `p` ends its touch, if it touches it (R72, R81). -/
def State.lifted (s : State) (p : PortId) (n : StripNo) : Strip :=
  if (s.strip n).toucher = some p then (s.setStrip n { s.strip n with toucher := none }).turned s n else s.strip n

/-- The take records of the ends of every touch of port `p`, in strip number order (R72, R133). -/
def State.liftRecords (s : State) (p : PortId) : List TakeRecord :=
  (List.finRange 160).flatMap fun n =>
    if (s.strip n).toucher = some p then (s.setStrip n { s.strip n with toucher := none }).turnRecords s n else []

/-- A strip record after a fall of counting: an armed strip's punch ends, to WAIT while its trigger stays active and
else to READY, and a TRIM strip's trim returns; a WRITE strip leaves WAIT (R134, R139). -/
def State.fallen (s : State) (m : StripNo) : Strip :=
  if s.armed m then
    match (s.strip m).writeState with
    | .writing | .latched =>
      { s.strip m with
        writeState :=
          if (s.strip m).mode = .write then .ready
          else if (s.strip m).toucher ≠ none ∨ s.linePunched m then .wait else .ready,
        trim := if (s.strip m).mode = .trim then 16384 else (s.strip m).trim }
    | .wait => if (s.strip m).mode = .write then { s.strip m with writeState := .ready } else s.strip m
    | .off | .ready => s.strip m
  else s.strip m

/-- The PUNCH-OUT records of every armed strip that writes, in strip number order (R135, R139). -/
def State.punchOuts (s : State) (frame : Nat) (reason : PunchReason) : List TakeRecord :=
  ((List.finRange 160).filter fun m => s.armed m && (s.strip m).writeState.punched).map (.punchOut frame · reason)

/-- The strips after a fall of counting, with their records queued and their retargets handed (R134, R135). -/
def Fallen (frame : Nat) (reason : PunchReason) (s t : State) : Prop :=
  (∀ m, t.strip m = s.fallen m) ∧ Queued (s.punchOuts frame reason) s t ∧ ∀ m, Ramped m s t

/-- Strip `m` punches in when counting rises: it is armed in WRITE and READY (R134). -/
abbrev State.risesIn (s : State) (m : StripNo) : Prop :=
  s.armed m = true ∧ (s.strip m).mode = .write ∧ (s.strip m).writeState = .ready

/-- A strip record after a rise of counting: a READY WRITE strip punches in (R134, R136). -/
def State.risen (s : State) (m : StripNo) : Strip := if s.risesIn m then s.punchedIn m else s.strip m

/-- The PUNCH-IN records of a rise of counting, with port none and the loaded live fields, in strip number order
(R135, R137). -/
def State.punchIns (s : State) : List TakeRecord :=
  ((List.finRange 160).filter fun m => decide (s.risesIn m)).map fun m =>
    .punchIn s.timeline.counter m none .write (s.risen m).fader (s.risen m).mute (s.risen m).pan none

/-- The strips after a rise of counting, with their records queued and their retargets handed (R134 to R137). -/
def Risen (s t : State) : Prop := (∀ m, t.strip m = s.risen m) ∧ Queued s.punchIns s t ∧ ∀ m, Ramped m s t

/-- The strips after a change of filtered PUNCH that leaves the timeline as it is in `t`: each takes its trigger, in
strip number order (R95, R127, R135). -/
def Pressed (s t : State) : Prop :=
  (∀ m, t.strip m = ({ s with timeline := t.timeline }).turned s m) ∧
  Queued ((List.finRange 160).flatMap fun m => ({ s with timeline := t.timeline }).turnRecords s m) s t ∧
  ∀ m, Ramped m s t

/-- What an event of the timeline leaves as it was: the buses, the audio interface, the engine but for strip
cells, the take port, the roles and marks of the pass, the waiting commands, and of every port all but the bits
`may` of its pending set. -/
def TimelineFrame (may : BitVec 12) (s t : State) : Prop :=
  t.busTable = s.busTable ∧ t.audio = s.audio ∧ t.engine = { s.engine with stripCells := t.engine.stripCells } ∧
  t.writing.takePort = s.writing.takePort ∧
  t.playback = { s.playback with cues := t.playback.cues, stale := t.playback.stale } ∧
  t.pending = s.pending ∧
  ∀ q, pendingKept may q s t ∧ t.port q = { s.port q with pendingSet := (t.port q).pendingSet }

/-- A stage line after a sample period at this level: it counts the periods that differ from its filtered state, and
follows when the count reaches the filter length (R92, R93). -/
def LineRecord.stepped (level : Bool) (l : LineRecord) : LineRecord :=
  { l with
    raw := level,
    count := if (level != l.activeLow) = l.filtered ∨ l.filter ≤ l.count + 1 then 0 else l.count + 1,
    filtered := if l.filter ≤ l.count + 1 then level != l.activeLow else l.filtered }

/-- Every stage line after a sample period. -/
def LinesStepped (v : LineLevels) (s t : State) : Prop :=
  ∀ l, t.timeline.line l = (s.timeline.line l).stepped (levelOf v l)

/-- The values that a list of cues carries for one field of strip `m`, in queue order. -/
def cuedFaders (m : StripNo) (l : List Cue) : List Nat :=
  l.filterMap fun c => if c.strip = m then (match c.value with
    | .fader v => some v
    | _ => none) else none

/-- The mutes that a list of cues carries for strip `m`. -/
def cuedMutes (m : StripNo) (l : List Cue) : List Bool :=
  l.filterMap fun c => if c.strip = m then (match c.value with
    | .mute v => some v
    | _ => none) else none

/-- The pans that a list of cues carries for strip `m`. -/
def cuedPans (m : StripNo) (l : List Cue) : List (List PanEntry) :=
  l.filterMap fun c => if c.strip = m then (match c.value with
    | .pan v => some v
    | _ => none) else none

/-- Strip `m` after cues are applied in order: of each shadow field the last value carried stands (R114, R118). -/
def Strip.cued (m : StripNo) (l : List Cue) (r : Strip) : Strip :=
  { r with
    shadowFader := (cuedFaders m l).getLast?.or r.shadowFader,
    shadowMute := (cuedMutes m l).getLast?.or r.shadowMute,
    shadowPan := (cuedPans m l).getLast?.or r.shadowPan }

/-! ### Frames (R164, R177) -/

/-- The payload length that the catalogue gives for a code, by the payload's own count byte where it depends on
it; `none` for a code that is not in the catalogue (R177). -/
def catalogueLength (code : Nat) (payload : List Byte) : Option Nat :=
  match code with
  | 0x00 => some 0 | 0x01 => some 17 | 0x02 => some 5 | 0x03 => some 20 | 0x04 => some 25 | 0x05 => some 2
  | 0x06 => some 2 | 0x07 => some 1 | 0x08 => some 2 | 0x09 => some 2
  | 0x10 => some 7 | 0x11 => some 1 | 0x12 => some 2 | 0x13 => some 4 | 0x14 => some 0 | 0x15 => some 1
  | 0x20 => some 3 | 0x21 => some 3 | 0x22 => some 3 | 0x23 => some 1 | 0x24 => some 1 | 0x25 => some 1
  | 0x26 => some 1 | 0x27 => some 0 | 0x28 => some 2 | 0x29 => some 1 | 0x2A => some 1 | 0x2B => some 0
  | 0x30 => some 3 | 0x31 => some 4 | 0x32 => some 9 | 0x33 => some 1 | 0x34 => some 0
  | 0x40 => some 4 | 0x41 => some 0 | 0x42 => some (1 + 19 * (payload.headD 0).toNat) | 0x43 => some 0
  | 0x44 => some 1
  | 0x50 => some (2 + 4 * ((payload.drop 1).headD 0).toNat) | 0x51 => some 2 | 0x52 => some 0
  | 0x60 => some 0 | 0x61 => some 2 | 0x62 => some 2 | 0x63 => some 6 | 0x64 => some 0
  | _ => none

/-- The status with which R164 refuses the bytes of a frame, `none` for a frame that passes. -/
def frameFailure (bytes : List Byte) : Option Status :=
  match bytes with
  | code :: _ :: hi :: lo :: rest =>
    let len := 256 * hi.toNat + lo.toNat
    if 1024 < 4 + len then some .length
    else if rest.length < len then some .framing
    else match catalogueLength code.toNat (rest.take len) with
      | none => some .unknown
      | some k => if len = k then none else some .length
  | _ => some .framing

/-! ### The engine -/

/-- A value clamped to −8,388,608 to 8,388,607. -/
def clamp24 (x : Int) : Int := if x < -8388608 then -8388608 else if 8388607 < x then 8388607 else x

/-- An accumulator scaled by a gain and rounded half upward at 2^28, before the clamp (R43, R45). -/
def rounded (acc : Int) (gain : Nat) : Int := Int.fdiv (acc * gain + 2 ^ 27) (2 ^ 28)

/-- The sample of strip `n` in the sample period from `s` to `t`: an input slot as it stands, or the premix
output that the period formed, with the polarity applied (R30 to R32). -/
def sampleOf (s t : State) (n : StripNo) : Int :=
  let x : Int := match (s.strip n).source with
    | .none => 0
    | .input l k =>
      if s.audio.lanes[l].up = true ∧ (s.audio.rate = .k48 ∨ k.val < 8) then (s.audio.lanes[l]).slots[k] else 0
    | .premix b c => (t.audio.handed.premix[b])[c]
  if (s.strip n).inverted then (if x = -8388608 then 8388607 else -x) else x

/-- The exact sum over the strips with destination `d` of sample times the cell's value after stage 2 (R42,
R44). -/
def busSum (s t : State) (d : Dest) (c : Channel) : Int :=
  ∑ n : StripNo, if (s.strip n).dest = d then sampleOf s t n * (((t.cells n)[c]).current : Int) else 0

/-! ### Timeline -/

/-- Sample periods per frame at the rates in force (R96). -/
def framePeriods (rate : SampleRate) (fps : FrameRate) : Nat :=
  match rate, fps with
  | .k48, .fps24 => 2000 | .k48, .fps25 => 1920 | .k48, .fps30 => 1600
  | .k96, .fps24 => 4000 | .k96, .fps25 => 3840 | .k96, .fps30 => 3200

/-! ### The timeline's sample period, stage by stage (R98) -/

/-- Counting becomes `c`: a rise or a fall is handed to the writing block, and no change hands nothing (R97, R134). -/
def Counted (c : Bool) (reason : PunchReason) (s t : State) : Prop :=
  if c = s.timeline.counting then t = s
  else
    t.timeline = { s.timeline with counting := c } ∧ t.playback = s.playback ∧ TimelineFrame 0x300#12 s t ∧
    (if c then Risen s t else Fallen s.timeline.counter reason s t)

/-- A locate to `frame` that is no request: the counter, the phase and a settle of two frame periods, the cues flushed
with STREAM at the pass port of an open pass, and the punches ended if the timeline was counting. Of the other reasons
those of `also` may rise (R100, R102, R104, R122). -/
def Located (frame : Nat) (reason : PunchReason) (also : BitVec 12) (s t : State) : Prop :=
  t.timeline = { s.timeline with
    counter := frame, phase := 0, settle := 2 * framePeriods s.audio.rate s.timeline.rate, counting := false } ∧
  t.playback = { s.playback with cues := [] } ∧ TimelineFrame (0x340#12 ||| also) s t ∧
  (∀ q, raisedWhen 6 q (s.playback.passOpen = true ∧ s.playback.passPort = some q) s t) ∧
  (if s.timeline.counting then Fallen frame reason s t
    else t.strips = s.strips ∧ t.writing = s.writing ∧ t.engine = s.engine ∧ TimelineFrame (0x040#12 ||| also) s t)

/-- A frame boundary that is not a wrap, of a timeline whose cues all lie ahead: the counter moves one frame, held at
its ends, and the heads at the new frame are applied, each with its retarget (R99, R118, R119, R120). -/
def BoundaryMoved (f : Nat) (s t : State) : Prop :=
  t.timeline = { s.timeline with counter := f, phase := 0 } ∧
  t.playback = { s.playback with cues := s.playback.cues.dropWhile fun c => c.frame = f } ∧
  TimelineFrame 0x080#12 s t ∧ t.writing = s.writing ∧
  (∀ q, raisedWhen 7 q (s.playback.passPort = some q ∧ s.playback.lowMark ≤ s.playback.cues.length ∧
    t.playback.cues.length < s.playback.lowMark) s t) ∧
  (∀ m, t.strip m = (s.strip m).cued m (s.playback.cues.takeWhile fun c => c.frame = f)) ∧
  (∀ m, ((s.playback.cues.takeWhile fun c => c.frame = f).countP fun c => c.strip = m) = 0 → t.cells m = s.cells m) ∧
  (∀ m, ((s.playback.cues.takeWhile fun c => c.frame = f).countP fun c => c.strip = m) ≤ 1 → Ramped m s t) ∧
  ∀ m (c : Channel),
    ((t.cells m)[c]).current = ((s.cells m)[c]).current ∧
    ((t.cells m)[c] = (s.cells m)[c] ∨
      (t.cells m)[c] =
        { current := ((s.cells m)[c]).current, start := ((s.cells m)[c]).current, target := t.target m c,
          length := s.engine.rampLength, step := 0 }) ∧
    (((s.cells m)[c]).target = s.target m c → ((t.cells m)[c]).target = t.target m c)

/-- Step 4: a settle counts down, and ends with a rise where ROLL is active; a rolling phase counts up, to a frame
boundary or a loop wrap; a stopped one stands (R98, R99, R100, R103). -/
def Advanced (s t : State) : Prop :=
  if 0 < s.timeline.settle then
    Counted (s.timeline.roll.filtered && s.timeline.settle == 1) .rollStop
      { s with timeline := { s.timeline with settle := s.timeline.settle - 1 } } t
  else if s.timeline.roll.filtered = false then t = s
  else if s.timeline.phase + 1 < framePeriods s.audio.rate s.timeline.rate then
    t = { s with timeline := { s.timeline with phase := s.timeline.phase + 1 } }
  else if s.timeline.reverse = false ∧ s.timeline.loopEnabled = true ∧ s.timeline.counter = s.timeline.loopEnd then
    Located s.timeline.loopStart .loop 0x800#12 s t ∧ ∀ q, raisedWhen 11 q True s t
  else
    BoundaryMoved
      (if s.timeline.reverse then s.timeline.counter - 1
        else if s.timeline.counter < 16777215 then s.timeline.counter + 1 else s.timeline.counter) s t

/-- Step 1: the lines are sampled and filtered, and what filtered PUNCH became is not yet handed. -/
def State.linesSampled (v : LineLevels) (s : State) : State :=
  { s with
    timeline := { s.timeline with
      roll := s.timeline.roll.stepped v.roll, rev := s.timeline.rev.stepped v.rev,
      punch := { s.timeline.punch.stepped v.punch with filtered := s.timeline.punch.filtered } } }

/-- The timeline's sample period from `s` to `t` in the order of R98: a changed REV turns the direction with a locate to
the frame held (`a`), counting follows ROLL (`b`), the timeline advances unless it was turned (`c`), and a changed PUNCH
is handed last. -/
def PeriodStages (v : LineLevels) (s a b c t : State) : Prop :=
  (if s.timeline.rev.changes v.rev then
      Located s.timeline.counter .direction 0
        { s.linesSampled v with
          timeline := { (s.linesSampled v).timeline with reverse := !s.timeline.rev.filtered } } a
    else a = s.linesSampled v) ∧
  Counted (a.timeline.roll.filtered && a.timeline.settle == 0) .rollStop a b ∧
  (if s.timeline.rev.changes v.rev then c = b else Advanced b c) ∧
  (if s.timeline.punch.changes v.punch then
      t.timeline = { c.timeline with
        punch := { c.timeline.punch with filtered := !s.timeline.punch.filtered } } ∧
      t.playback = c.playback ∧ Pressed c t ∧ TimelineFrame 0x300#12 c t
    else t = c)

end Sys2Proof.Machine
end

