-- ==== Sys2Proof/Certificates/Slice0/Obligations.lean ====
section
/-!
DEFINITION. The statements for the provers. Each says what its name says; OBLIGATIONS.json holds the rule or the
sections of spec/ that each rests on.
-/
section

open Sys2Proof Sys2Proof.Machine

/-! ### The machine -/

/-- One step carries out the command at the front of the queue with the rest of the queue waiting; an empty queue
idles, which is the model's choice (log 1). -/
def Obligations.StepTakesTheFrontCommand : Prop :=
  ∀ (c : Instr) (rest : List Instr) (s : State),
    (s.pending = c :: rest → step s = exec c { s with pending := rest }) ∧ (s.pending = [] → step s = .next s)

/-- No command faults or is refused by the model, and none touches the queue of waiting commands. -/
def Obligations.EveryCommandCompletesAndKeepsTheQueue : Prop :=
  ∀ (c : Instr) (s : State),
    ∃ t, exec c s = .next t ∧ t.pending = s.pending

/-- DEVICE_RESET gives every block its stated values, whatever stood before. A transaction in progress becomes
one that is ignored (log 3), and the accumulators, the outputs and the fields of logs 11 and 14 are the model's. -/
def Obligations.DeviceResetGivesEveryBlockItsValues : Prop :=
  ∀ (rate : SampleRate) (present : Vector Bool 4) (s : State),
    ∃ t, exec (.deviceReset rate present) s = .next t ∧
      (∀ n, t.strip n =
        { source := .none, inverted := false, dest := .none, fader := 16384, mute := true,
          pan := [{ channel := 0, weight := 16384 }], mode := .live, linePunch := false, trim := 16384,
          shadowFader := none, shadowMute := none, shadowPan := none, writeState := .off, holder := none,
          toucher := none }) ∧
      (∀ (n : StripNo) (c : Channel), (t.cells n)[c] = { current := 0, start := 0, target := 0, length := 64, step := 64 }) ∧
      (∀ b : BusNo, t.engine.gainCells[b] = { current := 16384, start := 16384, target := 16384, length := 64, step := 64 }) ∧
      t.engine.rampLength = 64 ∧
      (∀ (b : BusNo) (c : Channel), (t.engine.accumulators[b])[c] = 0) ∧
      (∀ b, t.bus b = { gain := 16384, mute := false, holder := none, clip := false }) ∧
      (∀ b : PremixNo, t.busTable.premixWidth[b] = 6) ∧ (∀ k : StemNo, t.busTable.print[k] = true) ∧
      t.busTable.masterWidth = 12 ∧ t.busTable.masterClip = false ∧
      (∀ i : Fin 96, t.busTable.stemMeters[i] = { value := 0, hold := 0 }) ∧
      (∀ c : Channel, t.busTable.masterMeters[c] = { value := 0, hold := 0 }) ∧
      t.busTable.holdSetting = 100 ∧ t.busTable.tickCounter = 0 ∧
      (∀ l : Line, t.timeline.line l = { raw := false, activeLow := false, filter := 32, count := 0, filtered := false }) ∧
      t.timeline.counter = 0 ∧ t.timeline.phase = 0 ∧ t.timeline.rate = .fps24 ∧ t.timeline.reverse = false ∧
      t.timeline.settle = 0 ∧ t.timeline.counting = false ∧ t.timeline.loopStart = 0 ∧ t.timeline.loopEnd = 0 ∧
      t.timeline.loopEnabled = false ∧
      t.playback = { passOpen := false, passPort := none, cues := [], lowMark := 64, highMark := 960, stale := 0 } ∧
      t.writing = { takes := [], takePort := none, lost := 0 } ∧
      t.audio.rate = rate ∧ t.audio.locked = false ∧ t.audio.lockCount = 0 ∧ t.audio.missing = 0 ∧
      (∀ l : LaneNo, t.audio.lanes[l].up = false ∧ t.audio.lanes[l].markers = 0 ∧
        ∀ k : SlotNo, (t.audio.lanes[l]).slots[k] = 0) ∧
      (∀ (l : LaneNo) (k : SlotNo), (t.audio.outFrames[l])[k] = 0) ∧
      (∀ c : Channel, t.audio.patch[c.val] = { selection := .master c, safe0 := false, safe1 := false }) ∧
      (∀ (k : StemNo) (c : Channel), t.audio.patch[16 * (1 + (12 * k.val + c.val) / 16) + (12 * k.val + c.val) % 16]'(by omega) =
        { selection := .stem k c, safe0 := false, safe1 := false }) ∧
      (∀ k : Fin 4, t.audio.patch[12 + k.val] = { selection := .silent, safe0 := false, safe1 := false }) ∧
      (∀ k : SlotNo, t.audio.patch[112 + k.val] = { selection := .silent, safe0 := false, safe1 := false }) ∧
      (∀ p, t.port p =
        { attached := present[p],
          transaction := if (s.port p).transaction = .idle then .idle else .ignored,
          replySlot := none, shiftOut := [],
          windows := #v[{ enabled := true, first := 0, last := 159, base := 0, viewOnly := false },
            { enabled := false, first := 0, last := 0, base := 0, viewOnly := false },
            { enabled := false, first := 0, last := 0, base := 0, viewOnly := false },
            { enabled := false, first := 0, last := 0, base := 0, viewOnly := false }],
          pointer := 0, pendingSet := 0, enableSet := 0, refusals := 0, watches := [],
          signals := Vector.replicate 4 false, recallStack := [] }) ∧
      t.pending = s.pending

/-- The state after device reset meets every law of Safety.lean. -/
def Obligations.ResetMeetsEveryLaw : Prop :=
  State.reset.HandsLaw ∧ State.reset.PortsLaw ∧ State.reset.PansLaw ∧ State.reset.CellsLaw ∧ State.reset.TargetsLaw ∧
    State.reset.TimelineLaw ∧ State.reset.CuesLaw ∧ State.reset.RolesLaw ∧ State.reset.WritingLaw ∧
    State.reset.LanesLaw

/-! ### Laws that every step keeps -/

/-- Holders and touchers stay attached ports, and the toucher of a held strip stays its holder. -/
def Obligations.StepKeepsHoldersAndTouchersLawful : Prop :=
  ∀ (s t : State), s.HandsLaw → step s = .next t → t.HandsLaw

/-- The lists and counts of a port stay within their sizes, and a detached port holds nothing. -/
def Obligations.StepKeepsPortsWithinTheirSizes : Prop :=
  ∀ (s t : State), s.PortsLaw → step s = .next t → t.PortsLaw

/-- Every live, shadow, queued and saved pan list keeps its shape, a live pan keeps fitting its destination, and
no premix feeds a premix. -/
def Obligations.StepKeepsPansAndSourcesLawful : Prop :=
  ∀ (s t : State), s.PansLaw → step s = .next t → t.PansLaw

/-- Every cell stays between the start and the target of its ramp and within 0 to 65,535, and settled cells stay at
their targets; faders, trims, shadows, gains, cue values and snapshots, which form the targets, stay in their ranges. -/
def Obligations.StepKeepsCellsOnTheirRamps : Prop :=
  ∀ (s t : State), s.CellsLaw → step s = .next t → t.CellsLaw

/-- Every change of a used value, destination, width, gain or mute reaches the cells: their targets are those of
the records after every step. -/
def Obligations.StepKeepsTargetsInStepWithRecords : Prop :=
  ∀ (s t : State), s.TargetsLaw → step s = .next t → t.TargetsLaw

/-- The timeline's fields stay in their ranges and agree with each other: the frame counter, the phase, the settle
count, both loop ends and their order, and each line's filter length and difference count. -/
def Obligations.StepKeepsTheTimelineLawful : Prop :=
  ∀ (s t : State), s.TimelineLaw → step s = .next t → t.TimelineLaw

/-- The cue queue stays in play order, ahead of the frame counter, and empty under a closed pass. -/
def Obligations.StepKeepsCuesAheadInPlayOrder : Prop :=
  ∀ (s t : State), s.CuesLaw → step s = .next t → t.CuesLaw

/-- Write states stay in step with arming, trigger and counting, and the pass and take roles with the take
queue. -/
def Obligations.StepKeepsWriteStatesAndRolesLawful : Prop :=
  ∀ (s t : State), s.WritingLaw → s.RolesLaw → step s = .next t → t.WritingLaw ∧ t.RolesLaw

/-- The sync counts stay in range, and a lane stays silent unless it is UP under a LOCKED monitor, with every slot in
the sample range. -/
def Obligations.StepKeepsLanesSilentUntilUp : Prop :=
  ∀ (s t : State), s.LanesLaw → step s = .next t → t.LanesLaw

/-! ### Transactions and frames -/

/-- A request that ends on a DETACHED port, or in a transaction that began before the attach, is ignored whole:
the fall of SEL is all that is seen. -/
def Obligations.RequestsNotTakenAreIgnoredWhole : Prop :=
  ∀ (i : Instr) (p : PortId) (s : State),
    i.sender = some p → ((s.port p).attached = false ∨ (s.port p).transaction = .ignored) →
      exec i s = .next (s.modPort p fun q => { q with transaction := .idle, shiftOut := [] })

/-- SEL asserted on an attached port takes the waiting reply, or an idle reply, for shifting out with the
attention summary of that moment, and empties the slot; a detached port ignores the transaction. On SDO the bytes of
that reply leave from the first clock, most significant bit first, and then 0 for every byte clocked beyond its end; a
port with no transaction that it takes drives nothing (log 8). SEL that is asserted already stays so, which is the
model's choice (log 4). -/
def Obligations.TransactionBeginTakesTheWaitingReply : Prop :=
  ∀ (p : PortId) (clocks i : Nat) (bytes : List Byte) (s : State),
    bytes = (match (s.port p).replySlot with
        | some r => [r.status.code, r.code] ++ bytes2 (BitVec.ofNat 16 r.payload.length)
        | none => [0xFF, 0x00, 0x00, 0x00])
      ++ bytes2 (((s.port p).pendingSet &&& (s.port p).enableSet).setWidth 16)
      ++ (match (s.port p).replySlot with
        | some r => r.payload
        | none => []) →
    ((s.port p).transaction = .idle → (s.port p).attached = true →
      ∃ t, exec (.transactionBegin p) s = .next t ∧
        t = (s.modPort p fun q => { q with transaction := .opened, replySlot := none, shiftOut := bytes }) ∧
        (t.sdo p clocks).length = clocks ∧
        (i < clocks → i / 8 < bytes.length →
          (t.sdo p clocks)[i]? = some ((bytes[i / 8]?.getD 0).getLsbD (7 - i % 8))) ∧
        (i < clocks → bytes.length ≤ i / 8 → (t.sdo p clocks)[i]? = some false)) ∧
    ((s.port p).transaction = .idle → (s.port p).attached = false →
      exec (.transactionBegin p) s = .next (s.modPort p fun q => { q with transaction := .ignored })) ∧
    ((s.port p).transaction ≠ .idle → exec (.transactionBegin p) s = .next s) ∧
    ((s.port p).transaction ≠ .opened → s.sdo p clocks = [])

/-- A frame that fails R164 leaves a reply with the status of the first failed step, the first byte collected as
its code and no payload, and reaches nothing else; a frame that passes is a request of its port, and is taken as
that request. On a port that takes nothing the frame is ignored whole, malformed or not. That the row carries every
frame, and not only a refused one, is the model's choice (log 9). -/
def Obligations.FrameIsRefusedOrTakenAsItsRequest : Prop :=
  ∀ (p : PortId) (bits : List Bool) (st : Status) (s : State),
    ((s.port p).takes = true → frameFailure (bytesOfBits bits) = some st →
      exec (.frameRejected p bits) s = .next (s.leaves p (reply ((bytesOfBits bits).headD 0) st []))) ∧
    ((s.port p).takes = false →
      exec (.frameRejected p bits) s = .next (s.modPort p fun q => { q with transaction := .idle, shiftOut := [] })) ∧
    (frameFailure (bytesOfBits bits) = none →
      ∃ i, readFrame p (bytesOfBits bits) = .request i ∧ i.sender = some p ∧
        exec (.frameRejected p bits) s = exec i s)

/-- The frame of every request that fits one reads back as that request with every operand, whatever is clocked
beyond its end. -/
def Obligations.EncodedRequestReadsBack : Prop :=
  ∀ (p : PortId) (i : Instr) (extra : List Byte),
    i.sender = some p → i.wellFormed = true → readFrame p (encodeFrame i ++ extra) = .request i

/-- A surface number is translated by the lowest-numbered enabled window that contains it, and a change through a
view-only window is refused with VIEW once the translation succeeds. The reads, RELEASE, UNTOUCH and the watch requests
are taken through any window that translates, a view-only one too. A failed translation is the status of the
request, or of the run position: RELEASE skips it and a read returns an empty record. -/
def Obligations.LowestEnabledWindowTranslates : Prop :=
  ∀ (p : PortId) (b : Byte) (st : Status) (x y z w : Byte) (v : Value13) (so : SourceField) (de : DestField)
    (fader : BitVec 16) (n : StripNo) (s : State),
    (s.port p).takes = true →
      (∀ n : Nat, 255 < n → reach (s.port p) n = .error .range ∧ reachForChange (s.port p) n = .error .range) ∧
      ((∀ i : Fin 4, ¬((s.port p).windows[i].enabled = true ∧ (s.port p).windows[i].first ≤ b.toNat ∧
          b.toNat ≤ (s.port p).windows[i].last)) →
        reach (s.port p) b.toNat = .error .unmapped ∧ reachForChange (s.port p) b.toNat = .error .unmapped) ∧
      (∀ i : Fin 4, (s.port p).windows[i].enabled = true → (s.port p).windows[i].first ≤ b.toNat →
        b.toNat ≤ (s.port p).windows[i].last →
        (∀ j : Fin 4, j < i → ¬((s.port p).windows[j].enabled = true ∧ (s.port p).windows[j].first ≤ b.toNat ∧
          b.toNat ≤ (s.port p).windows[j].last)) →
        (160 ≤ (s.port p).windows[i].base.val + (b.toNat - (s.port p).windows[i].first) →
          reach (s.port p) b.toNat = .error .range ∧ reachForChange (s.port p) b.toNat = .error .range) ∧
        (∀ k : StripNo, k.val = (s.port p).windows[i].base.val + (b.toNat - (s.port p).windows[i].first) →
          reach (s.port p) b.toNat = .ok k ∧
          reachForChange (s.port p) b.toNat = if (s.port p).windows[i].viewOnly then .error .view else .ok k)) ∧
      (reachForChange (s.port p) b.toNat = .error st →
        exec (.move p false b x y z v) s = .next (s.leaves p (reply 0x01 st [])) ∧
        exec (.flags p false b 1 x y z) s = .next (s.leaves p (reply 0x02 st [0, 0, 1])) ∧
        exec (.setRoute p b so de x v) s = .next (s.leaves p (reply 0x03 st [])) ∧
        exec (.setStrip p b so x de fader y v z w) s = .next (s.leaves p (reply 0x04 st [])) ∧
        exec (.setMode p b x) s = .next (s.leaves p (reply 0x05 st [])) ∧
        exec (.claim p 0 b 1) s = .next (s.leaves p (reply 0x20 st [0])) ∧
        exec (.yield p 0 b x) s = .next (s.leaves p (reply 0x22 st [])) ∧
        exec (.touch p b) s = .next (s.leaves p (reply 0x23 st [])) ∧
        exec (.save p b) s = .next (s.leaves p (reply 0x2A st []))) ∧
      (reach (s.port p) b.toNat = .ok n →
        exec (.readRun p b 1) s =
          .next ((s.modPort p fun q => { q with pointer := b.toNat + 1 }).leaves p
            (reply 0x06 .ok (1 :: wStrip n (s.strip n)))) ∧
        ((s.port p).pointer = b.toNat →
          exec (.readNext p 1) s =
            .next ((s.modPort p fun q => { q with pointer := b.toNat + 1 }).leaves p
              (reply 0x07 .ok (1 :: wStrip n (s.strip n))))) ∧
        exec (.readCells p 0 b) s = .next (s.leaves p (reply 0x08 .ok
          (bytes2 (BitVec.ofNat 16 s.engine.rampLength) ++ [12] ++ (s.cells n).toList.flatMap wCell))) ∧
        exec (.release p 0 b 1) s =
          .next ((if (s.strip n).holder = some p then s.setStrip n { s.strip n with holder := none } else s).leaves p
            (reply 0x21 .ok [if (s.strip n).holder = some p then 1 else 0])) ∧
        (∃ t, exec (.untouch p b) s = .next t ∧
          (t.strip n).toucher = (if (s.strip n).toucher = some p then none else (s.strip n).toucher) ∧
          (t.port p).replySlot = reply 0x24 .ok [BitVec.ofNat 8 (t.strip n).writeState.code]) ∧
        (∃ t, exec (.watchAdd p b) s = .next t ∧
          (t.port p).replySlot =
            reply 0x25
              (if ∃ w ∈ (s.port p).watches, w.strip = n then .duplicate
                else if 4 ≤ (s.port p).watches.length then .full else .ok)
              [BitVec.ofNat 8 (t.port p).watches.length]) ∧
        (∃ t, exec (.watchRemove p b) s = .next t ∧ (∀ w ∈ (t.port p).watches, w.strip ≠ n) ∧
          (t.port p).replySlot = reply 0x26 .ok [BitVec.ofNat 8 (t.port p).watches.length])) ∧
      (reach (s.port p) b.toNat = .error st →
        exec (.readRun p b 1) s =
          .next ((s.modPort p fun q => { q with pointer := b.toNat + 1 }).leaves p
            (reply 0x06 .ok (1 :: List.replicate 43 0))) ∧
        ((s.port p).pointer = b.toNat →
          exec (.readNext p 1) s =
            .next ((s.modPort p fun q => { q with pointer := b.toNat + 1 }).leaves p
              (reply 0x07 .ok (1 :: List.replicate 43 0)))) ∧
        exec (.readCells p 0 b) s = .next (s.leaves p (reply 0x08 st [])) ∧
        exec (.release p 0 b 1) s = .next (s.leaves p (reply 0x21 .ok [0])) ∧
        exec (.untouch p b) s = .next (s.leaves p (reply 0x24 st [])) ∧
        exec (.watchAdd p b) s =
          .next (s.leaves p (reply 0x25 st [BitVec.ofNat 8 (s.port p).watches.length])) ∧
        exec (.watchRemove p b) s =
          .next (s.leaves p (reply 0x26 st [BitVec.ofNat 8 (s.port p).watches.length])))

/-! ### Strips: MOVE and FLAGS -/

/-- MOVE of FADER writes the live fader where R13 opens it, and the trim on a strip writing in TRIM, by REPLACE or
by a clamped ADD; nothing but the consequences of R15 follows. -/
def Obligations.MoveFaderWritesFaderOrTrim : Prop :=
  ∀ (p : PortId) (posted : Bool) (surface op index : Byte) (value : Value13) (n : StripNo) (v : Nat) (s : State),
    (s.port p).takes = true → reachForChange (s.port p) surface.toNat = .ok n → (s.strip n).openTo p →
      (s.writesLive n → faderMoved op value (s.strip n).fader = some v →
        ∃ t, exec (.move p posted surface 0 op index value) s = .next t ∧
          Changed p n { s.strip n with fader := v } [.fader v] s t ∧ Reported p n s t ∧
          Replied posted p (reply 0x01 .ok (bytes2 (BitVec.ofNat 16 v) ++ List.replicate 11 0)) s t) ∧
      (s.writesTrim n → faderMoved op value (s.strip n).trim = some v →
        ∃ t, exec (.move p posted surface 0 op index value) s = .next t ∧
          Changed p n { s.strip n with trim := v } [.trim v] s t ∧ Reported p n s t ∧
          Replied posted p (reply 0x01 .ok (bytes2 (BitVec.ofNat 16 v) ++ List.replicate 11 0)) s t)

/-- MOVE of MUTE and of PAN with REPLACE writes the carried mute, or the carried list with its weights clamped,
where R13 opens the live values. -/
def Obligations.MoveMuteAndPanWriteTheCarriedValue : Prop :=
  ∀ (p : PortId) (posted : Bool) (surface index : Byte) (value : Value13) (n : StripNo) (m : Bool)
    (l : List PanEntry) (s : State),
    (s.port p).takes = true → reachForChange (s.port p) surface.toNat = .ok n → (s.strip n).openTo p →
    s.writesLive n →
      (value[0] = (if m then 1 else 0) →
        ∃ t, exec (.move p posted surface 1 0 index value) s = .next t ∧
          Changed p n { s.strip n with mute := m } [.mute m] s t ∧ Reported p n s t ∧
          Replied posted p (reply 0x01 .ok (value[0] :: List.replicate 12 0)) s t) ∧
      ((readPan value).count ≤ 4 → (readPan value).entries = some l →
        panAllowed (s.busTable.destWidth (s.strip n).dest) l →
        ∃ t, exec (.move p posted surface 2 0 index value) s = .next t ∧
          Changed p n { s.strip n with pan := l } [.pan l] s t ∧ Reported p n s t ∧
          Replied posted p (reply 0x01 .ok (wPan l)) s t)

/-- MOVE of PAN-ENTRY replaces, appends or removes one entry, where the result has the shape of a pan list that
fits. -/
def Obligations.MovePanEntryEditsOneEntry : Prop :=
  ∀ (p : PortId) (posted : Bool) (surface index : Byte) (value : Value13) (n : StripNo) (entry : Option PanEntry)
    (l : List PanEntry) (s : State),
    (s.port p).takes = true → reachForChange (s.port p) surface.toNat = .ok n → (s.strip n).openTo p →
    s.writesLive n → index.toNat ≤ 3 →
    value[3] = (if entry.isSome then 0 else 1) →
    (entry.isSome = true → readEntry value[0] (join2 value[1] value[2]) = entry) →
    panEntryMoved (s.strip n).pan index.toNat entry = some l →
    panAllowed (s.busTable.destWidth (s.strip n).dest) l →
      ∃ t, exec (.move p posted surface 3 0 index value) s = .next t ∧
        Changed p n { s.strip n with pan := l } [.pan l] s t ∧ Reported p n s t ∧
        Replied posted p (reply 0x01 .ok (wPan l)) s t

/-- The refusals of MOVE in their order: translation, holder, toucher, mode, then RANGE for a value and SHAPE for a
result. A refused MOVE leaves its status, or when posted counts once and raises REFUSED, and changes nothing else. The
holder and toucher checks refuse every other change request and TOUCH alike. RANGE for an unknown operation, and
for the delta or index of an ADD on another field than FADER before its SHAPE, is the model's choice (log 17), and so is
RANGE for a channel of a pan whose count is above 4 (log 16). -/
def Obligations.RefusedChangesChangeNothing : Prop :=
  ∀ (p : PortId) (surface field op index w : Byte) (value : Value13) (so : SourceField) (de : DestField)
    (fader : BitVec 16) (st : Status) (s : State),
    (s.port p).takes = true →
    ((reachForChange (s.port p) surface.toNat = .error st ∨
      (∃ n, reachForChange (s.port p) surface.toNat = .ok n ∧
        ((st = .held ∧ ∃ q, (s.strip n).holder = some q ∧ q ≠ p) ∨
          (st = .touched ∧ ((s.strip n).holder = none ∨ (s.strip n).holder = some p) ∧
            ∃ q, (s.strip n).toucher = some q ∧ q ≠ p) ∨
          (st = .automated ∧ (s.strip n).openTo p ∧ field.toNat ≤ 3 ∧ ¬s.moveOpen n field) ∨
          (st = .range ∧ (s.strip n).openTo p ∧ (3 < field.toNat ∨ s.moveOpen n field) ∧
            moveOutOfRange (s.strip n) field op index value) ∨
          (st = .shape ∧ (s.strip n).openTo p ∧ s.moveOpen n field ∧
            ¬moveOutOfRange (s.strip n) field op index value ∧
            moveMisshapen (s.busTable.destWidth (s.strip n).dest) (s.strip n) field op index value)))) →
      exec (.move p false surface field op index value) s = .next (s.leaves p (reply 0x01 st [])) ∧
      ∃ t, exec (.move p true surface field op index value) s = .next t ∧ CountedOnce p s t) ∧
    ((∃ n, reachForChange (s.port p) surface.toNat = .ok n ∧
        ((st = .held ∧ ∃ q, (s.strip n).holder = some q ∧ q ≠ p) ∨
          (st = .touched ∧ ((s.strip n).holder = none ∨ (s.strip n).holder = some p) ∧
            ∃ q, (s.strip n).toucher = some q ∧ q ≠ p))) →
      exec (.flags p false surface 1 field op index) s = .next (s.leaves p (reply 0x02 st [0, 0, 1])) ∧
      exec (.setRoute p surface so de field value) s = .next (s.leaves p (reply 0x03 st [])) ∧
      exec (.setStrip p surface so field de fader op value index w) s = .next (s.leaves p (reply 0x04 st [])) ∧
      exec (.setMode p surface field) s = .next (s.leaves p (reply 0x05 st [])) ∧
      exec (.touch p surface) s = .next (s.leaves p (reply 0x23 st [])))

/-- FLAGS at one position writes the selected flags; a changed polarity is a cut, and else a changed used value a
retarget. A written mute of a strip that writes queues its MOVE record, and then a change of line punch that turns the
trigger moves the write state, with its record and its retarget. That the trigger is turned after the flags are written
and the MOVE record is queued, and that the cut comes last with the cells' lengths before the request, is deduced
(log 21). An applied position that selects no flag is reported too, which is the model's choice (log 18). -/
def Obligations.FlagsAtOnePositionWritesTheSelection : Prop :=
  ∀ (p : PortId) (posted : Bool) (surface op sel set : Byte) (n : StripNo) (u s : State),
    (s.port p).takes = true → reachForChange (s.port p) surface.toNat = .ok n → (s.strip n).openTo p →
    op.toNat ≤ 2 → (sel.getLsbD 0 = true → s.writesLive n) → u = s.setStrip n (flagged op sel set (s.strip n)) →
      ∃ t, exec (.flags p posted surface 1 op sel set) s = .next t ∧
        t.strip n = u.turned s n ∧
        Queued
          ((if sel.getLsbD 0 = true ∧ ((s.strip n).writeState = .writing ∨ (s.strip n).writeState = .latched) then
              [.move s.timeline.counter n p (.mute (flagged op sel set (s.strip n)).mute)] else []) ++
            u.turnRecords s n) s t ∧
        (if (flagged op sel set (s.strip n)).inverted = (s.strip n).inverted then
            ∀ c : Channel, (t.cells n)[c] = rampedCell u t n c (rampedCell s u n c (s.cells n)[c])
          else Cut n s t) ∧
        Reported p n s t ∧ OnlyStrip p n s t ∧ Replied posted p (reply 0x02 .ok [1, 0, 0]) s t

/-- FLAGS over a run, taken position by position: a run is the run one shorter and then its last position, with the
positions applied, the mask and the lowest refusal of both. Where LINE-PUNCH is not selected, or no two positions reach
one strip, every strip that some position is applied to takes the flags, and then the trigger that its line punch
turns; every other strip keeps its record. The cuts, retargets, take records and reports are those of the
positions applied; the reply answers the status of the lowest refused position, the positions applied and a mask of
those refused. Posted, a run with any refusal counts once and raises REFUSED. A count outside 1 to 16 is refused whole
with RANGE. Three points are the model's: RANGE for an unknown operation,
of an empty selection too (log 17), the report of an applied position that
selects no flag (log 18), and the order of MOVE record, trigger and cut within a position (log 21). -/
def Obligations.FlagsRunWritesEveryAppliedStrip : Prop :=
  ∀ (p : PortId) (posted : Bool) (start count op sel set : Byte) (s : State),
    (s.port p).takes = true →
    (¬(1 ≤ count.toNat ∧ count.toNat ≤ 16) →
      exec (.flags p false start count op sel set) s = .next (s.leaves p (reply 0x02 .range [0, 0, 0])) ∧
      ∃ t, exec (.flags p true start count op sel set) s = .next t ∧ CountedOnce p s t) ∧
    (1 ≤ count.toNat → count.toNat < 16 →
      ∃ t y st₁ k₁ m₁, exec (.flags p false start count op sel set) s = .next t ∧
        (t.port p).replySlot = reply 0x02 st₁ (k₁ :: bytes2 m₁) ∧
        exec (.flags p false start (count + 1) op sel set) s = .next y ∧
        (255 < start.toNat + count.toNat →
          y = t.leaves p (reply 0x02 (if st₁ = .ok then .range else st₁) (k₁ :: bytes2 (m₁ ||| (1 <<< count.toNat))))) ∧
        (start.toNat + count.toNat ≤ 255 →
          ∃ x st₂ k₂ m₂, exec (.flags p false (start + count) 1 op sel set) t = .next x ∧
            (x.port p).replySlot = reply 0x02 st₂ (k₂ :: bytes2 m₂) ∧
            y = x.leaves p
              (reply 0x02 (if st₁ = .ok then st₂ else st₁) ((k₁ + k₂) :: bytes2 (m₁ ||| (m₂ <<< count.toNat)))))) ∧
    (1 ≤ count.toNat → count.toNat ≤ 16 →
      ∃ t st k m, exec (.flags p false start count op sel set) s = .next t ∧
        (t.port p).replySlot = reply 0x02 st (k :: bytes2 m) ∧
        exec (.flags p true start count op sel set) s =
          .next (t.modPort p fun q =>
            { q with
              replySlot := if (s.port p).transaction = .idle then none else (s.port p).replySlot,
              refusals := if st = .ok then q.refusals else min 255 (q.refusals + 1),
              pendingSet := if st = .ok then q.pendingSet else q.pendingSet ||| 0x400#12 })) ∧
    (1 ≤ count.toNat → count.toNat ≤ 16 →
      (sel.getLsbD 2 = false ∨
        ∀ i ∈ List.range count.toNat, ∀ j ∈ List.range count.toNat,
          flagsReach p op sel s (start.toNat + i) ≠ none →
          flagsReach p op sel s (start.toNat + i) = flagsReach p op sel s (start.toNat + j) → i = j) →
      ∃ t, exec (.flags p posted start count op sel set) s = .next t ∧
        (∀ m, t.strip m =
          if ∃ i ∈ List.range count.toNat, flagsReach p op sel s (start.toNat + i) = some m then
            (s.withFlags op sel set m).turned s m
          else s.strip m) ∧
        (∀ m,
          if ∃ i ∈ List.range count.toNat, flagsReach p op sel s (start.toNat + i) = some m then
            (if ((s.withFlags op sel set m).strip m).inverted ≠ (s.strip m).inverted then Cut m s t
              else ∀ c : Channel, (t.cells m)[c] =
                rampedCell (s.withFlags op sel set m) t m c (rampedCell s (s.withFlags op sel set m) m c (s.cells m)[c]))
          else t.cells m = s.cells m) ∧
        Queued
          ((List.range count.toNat).flatMap fun i => match flagsReach p op sel s (start.toNat + i) with
            | some m =>
              (if sel.getLsbD 0 = true ∧ ((s.strip m).writeState = .writing ∨ (s.strip m).writeState = .latched) then
                  [.move s.timeline.counter m p (.mute (flagged op sel set (s.strip m)).mute)]
                else []) ++ (s.withFlags op sel set m).turnRecords s m
            | none => []) s t ∧
        ReportedOf p (fun m => decide (∃ i ∈ List.range count.toNat, flagsReach p op sel s (start.toNat + i) = some m))
          s t ∧
        t.engine = { s.engine with stripCells := t.engine.stripCells } ∧
        t.busTable = s.busTable ∧ t.timeline = s.timeline ∧ t.playback = s.playback ∧ t.audio = s.audio ∧
        t.pending = s.pending ∧
        (∀ q, q ≠ p → pendingKept 0x301#12 q s t ∧ t.port q =
          { s.port q with watches := (t.port q).watches, pendingSet := (t.port q).pendingSet }) ∧
        (posted = false → ownPortKept p s t ∧ pendingKept 0x300#12 p s t ∧
          (t.port p).replySlot = reply 0x02
            (((List.range count.toNat).findSome? fun i => flagsRefusal p op sel s (start.toNat + i)).getD .ok)
            (BitVec.ofNat 8 ((List.range count.toNat).countP fun i => (flagsRefusal p op sel s (start.toNat + i)).isNone) ::
              bytes2 (BitVec.ofNat 16 (((List.range count.toNat).map fun i =>
                if (flagsRefusal p op sel s (start.toNat + i)).isSome then 2 ^ i else 0).sum)))) ∧
        (posted = true → pendingKept 0x700#12 p s t ∧
          (t.port p = { s.port p with
            transaction := .idle, shiftOut := [],
            replySlot := if (s.port p).transaction = .idle then none else (s.port p).replySlot,
            refusals :=
              if ∃ i ∈ List.range count.toNat, flagsRefusal p op sel s (start.toNat + i) ≠ none then
                min 255 ((s.port p).refusals + 1)
              else (s.port p).refusals,
            pendingSet := (t.port p).pendingSet }) ∧
          ((t.port p).pendingSet.getLsbD 10 = true ↔ (s.port p).pendingSet.getLsbD 10 = true ∨
            ∃ i ∈ List.range count.toNat, flagsRefusal p op sel s (start.toNat + i) ≠ none)))

/-! ### Strips: route, whole record, mode, reads -/

/-- SET-ROUTE writes source, destination and a carried pan; a changed route is a cut. After the holder and the
toucher it is refused whole: with AUTOMATED for a carried pan that differs where the live values are not open, with RANGE
for a source, destination, carried channel or pan-carried byte out of its range, and with SHAPE for a pan that is no
pan list or does not fit, and for a result that breaks the rule of sources. That a pan-carried byte other than 00 and 01
carries no pan at the check of the mode is the model's choice (log 26), and so is which channels of a pan whose count
is above 4 are judged (log 16). -/
def Obligations.SetRouteWritesTheRouteOrRefusesItsShape : Prop :=
  ∀ (p : PortId) (surface : Byte) (source : SourceField) (dest : DestField) (carried : Byte) (pan : Value13)
    (n : StripNo) (src : Source) (dst : Dest) (l : List PanEntry) (s : State),
    (s.port p).takes = true → reachForChange (s.port p) surface.toNat = .ok n → (s.strip n).openTo p →
      (carried = 1 → ¬carriesPan pan (s.strip n).pan → ¬s.writesLive n →
        exec (.setRoute p surface source dest carried pan) s = .next (s.leaves p (reply 0x03 .automated []))) ∧
      (carried ≠ 1 ∨ carriesPan pan (s.strip n).pan ∨ s.writesLive n →
        sourceOutOfRange source ∨ destOutOfRange dest ∨ 1 < carried.toNat ∨ (carried = 1 ∧ panOutOfRange pan) →
        exec (.setRoute p surface source dest carried pan) s = .next (s.leaves p (reply 0x03 .range []))) ∧
      (readSource source = some src → readDest dest = some dst →
        (carried = 1 → carriesPan pan (s.strip n).pan ∨ s.writesLive n → (readPan pan).entries = some l →
          4 < (readPan pan).count ∨ ¬panAllowed (s.busTable.destWidth dst) l →
          exec (.setRoute p surface source dest carried pan) s = .next (s.leaves p (reply 0x03 .shape []))) ∧
        ((carried = 0 ∧ l = (s.strip n).pan) ∨ (carried = 1 ∧ carriesPan pan l ∧ (l ≠ (s.strip n).pan → s.writesLive n)) →
          (panAllowed (s.busTable.destWidth dst) l → (∀ b c d, src = .premix b c → dst ≠ .premix d) →
            ∃ t, exec (.setRoute p surface source dest carried pan) s = .next t ∧
              Changed p n { s.strip n with source := src, dest := dst, pan := l }
                (if l = (s.strip n).pan then [] else [.pan l]) s t ∧
              (if src = (s.strip n).source ∧ dst = (s.strip n).dest ∧ l = (s.strip n).pan then Unreported p s t
                else Reported p n s t) ∧
              (t.port p).replySlot = reply 0x03 .ok []) ∧
          (((∃ b c d, src = .premix b c ∧ dst = .premix d) ∨
              (∃ w, s.busTable.destWidth dst = some w ∧ ∃ e ∈ l, w ≤ e.channel.val)) →
            exec (.setRoute p surface source dest carried pan) s = .next (s.leaves p (reply 0x03 .shape [])))))

/-- SET-STRIP writes the carried values: first the route, polarity, line punch and automated fields, with MOVE records
of the differing fields in the order fader, mute, pan while the strip writes; then the trigger that the line punch
turns; and then a changed mode, which ends a punch with MODE-CHANGE and arms the strip afresh. A changed route or
polarity is a cut to the record after all three, and else each changed used value is a retarget; other ports' watches
take the report of a change. The order of MOVE records, trigger, mode and cut is deduced, and so is that a
punch-in by the carried line punch leaves the used values loaded, not the carried ones (log 21). After the holder and
the toucher it is refused whole: with AUTOMATED for an automated field that differs where the live values are not open,
a fader of a strip writing in TRIM among them; with RANGE for a carried value out of its range (a pan whose count is
above 4: log 16); and with SHAPE for a pan that is no pan list or does not fit the carried destination, or a broken rule of
sources. -/
def Obligations.SetStripWritesTheCarriedRecord : Prop :=
  ∀ (p : PortId) (surface : Byte) (source : SourceField) (polarity : Byte) (dest : DestField) (fader : BitVec 16)
    (mute : Byte) (pan : Value13) (mode linePunch : Byte) (n : StripNo) (v : StripValues) (l : List PanEntry)
    (u x s : State),
    (s.port p).takes = true → reachForChange (s.port p) surface.toNat = .ok n → (s.strip n).openTo p →
      (¬((s.strip n).keepsAutomated fader mute pan) → ¬s.writesLive n →
        exec (.setStrip p surface source polarity dest fader mute pan mode linePunch) s =
          .next (s.leaves p (reply 0x04 .automated []))) ∧
      ((s.strip n).keepsAutomated fader mute pan ∨ s.writesLive n →
        (sourceOutOfRange source ∨ 1 < polarity.toNat ∨ destOutOfRange dest ∨ 1 < mute.toNat ∨ panOutOfRange pan ∨
            5 < mode.toNat ∨ 1 < linePunch.toNat →
          exec (.setStrip p surface source polarity dest fader mute pan mode linePunch) s =
            .next (s.leaves p (reply 0x04 .range []))) ∧
        (readStripValues source polarity dest fader mute pan mode linePunch = some v → v.pan.entries = some l →
          (4 < v.pan.count ∨ ¬panAllowed (s.busTable.destWidth v.dest) l ∨ routeAllowed v.source v.dest = false →
            exec (.setStrip p surface source polarity dest fader mute pan mode linePunch) s =
              .next (s.leaves p (reply 0x04 .shape []))) ∧
          (v.pan.count ≤ 4 → panAllowed (s.busTable.destWidth v.dest) l → routeAllowed v.source v.dest = true →
            u = s.setStrip n
              { s.strip n with
                source := v.source, inverted := v.inverted, dest := v.dest, linePunch := v.linePunch,
                fader := v.fader, mute := v.mute, pan := l } →
            x = u.setStrip n (u.turned s n) →
          ∃ t, exec (.setStrip p surface source polarity dest fader mute pan mode linePunch) s = .next t ∧
            t.strip n =
              (if v.mode = (s.strip n).mode then x.strip n
                else
                  { x.strip n with
                    mode := v.mode, writeState := s.armedAfresh n v.mode v.linePunch,
                    trim := if x.punching n ∧ (s.strip n).mode = .trim then 16384 else (x.strip n).trim }) ∧
            (v.linePunch = (s.strip n).linePunch ∨ s.armed n = false ∨ s.timeline.punch.filtered = false ∨
              (s.strip n).mode = .write ∨ (s.strip n).toucher ≠ none → x.strip n = u.strip n) ∧
            (s.armed n = false ∨ s.punching n → (t.strip n).fader = v.fader ∧ (t.strip n).mute = v.mute ∧ (t.strip n).pan = l) ∧
            Queued
              ((if (s.strip n).writeState = .writing ∨ (s.strip n).writeState = .latched then
                  (differing (s.strip n) v.fader v.mute l).map (.move s.timeline.counter n p) else []) ++
                u.turnRecords s n ++
                (if v.mode ≠ (s.strip n).mode ∧ x.punching n then [.punchOut s.timeline.counter n .modeChange] else []))
              s t ∧
            (if v.source = (s.strip n).source ∧ v.dest = (s.strip n).dest ∧ v.inverted = (s.strip n).inverted then
                (∀ c : Channel, (t.cells n)[c] = rampedCell x t n c (rampedCell u x n c (rampedCell s u n c (s.cells n)[c]))) ∧
                (if differing (s.strip n) v.fader v.mute l = [] ∧ v.linePunch = (s.strip n).linePunch ∧
                    v.mode = (s.strip n).mode
                  then Unreported p s t else Reported p n s t)
              else Cut n s t ∧ Reported p n s t) ∧
            OnlyStrip p n s t ∧ (t.port p).replySlot = reply 0x04 .ok [])))

/-- SET-MODE to another mode ends a punch with MODE-CHANGE, arms the strip afresh or turns it OFF, and retargets a
changed used value; to the mode held it changes nothing, and an unknown mode is refused with RANGE. -/
def Obligations.SetModeEndsThePunchAndArmsAfresh : Prop :=
  ∀ (p : PortId) (surface mode : Byte) (n : StripNo) (m : Mode) (s : State),
    (s.port p).takes = true → reachForChange (s.port p) surface.toNat = .ok n → (s.strip n).openTo p →
      (5 < mode.toNat → exec (.setMode p surface mode) s = .next (s.leaves p (reply 0x05 .range []))) ∧
      (readMode mode = some m → m = (s.strip n).mode →
        exec (.setMode p surface mode) s = .next (s.leaves p (reply 0x05 .ok []))) ∧
      (readMode mode = some m → m ≠ (s.strip n).mode →
        ∃ t, exec (.setMode p surface mode) s = .next t ∧
          t.strip n =
            { s.strip n with
              mode := m,
              writeState := s.armedAfresh n m (s.strip n).linePunch,
              trim := if s.punching n ∧ (s.strip n).mode = .trim then 16384 else (s.strip n).trim } ∧
          Queued (if s.punching n then [.punchOut s.timeline.counter n .modeChange] else []) s t ∧
          Ramped n s t ∧ Reported p n s t ∧ OnlyStrip p n s t ∧ (t.port p).replySlot = reply 0x05 .ok [])

/-- READ-RUN and READ-NEXT return one record for each surface number of the run, an empty one where none is
reached, move the pointer and change nothing else; a count outside 1 to 16 is refused with the pointer kept. -/
def Obligations.ReadsReturnARunOfRecordsAndMoveThePointer : Prop :=
  ∀ (p : PortId) (start count : Byte) (s : State),
    (s.port p).takes = true →
      (1 ≤ count.toNat ∧ count.toNat ≤ 16 →
        exec (.readRun p start count) s =
          .next ((s.modPort p fun q => { q with pointer := min 256 (start.toNat + count.toNat) }).leaves p
            (reply 0x06 .ok (count :: (List.range' start.toNat count.toNat).flatMap fun k =>
              match reach (s.port p) k with
              | .ok n => wStrip n (s.strip n)
              | .error _ => List.replicate 43 0))) ∧
        exec (.readNext p count) s =
          .next ((s.modPort p fun q => { q with pointer := min 256 (q.pointer + count.toNat) }).leaves p
            (reply 0x07 .ok (count :: (List.range' (s.port p).pointer count.toNat).flatMap fun k =>
              match reach (s.port p) k with
              | .ok n => wStrip n (s.strip n)
              | .error _ => List.replicate 43 0)))) ∧
      (¬(1 ≤ count.toNat ∧ count.toNat ≤ 16) →
        exec (.readRun p start count) s = .next (s.leaves p (reply 0x06 .range [])) ∧
        exec (.readNext p count) s = .next (s.leaves p (reply 0x07 .range [])))

/-- A strip record is 43 bytes, with each item at its offset. -/
def Obligations.StripRecordHoldsEachItemAtItsOffset : Prop :=
  ∀ (n : StripNo) (r : Strip),
    r.pan.length ≤ 4 → (∀ l, r.shadowPan = some l → l.length ≤ 4) →
      (wStrip n r).length = 43 ∧
      (∀ b : Byte, (wStrip n r)[0]? = some b →
        b.getLsbD 0 = true ∧ b.getLsbD 1 = r.shadowFader.isSome ∧ b.getLsbD 2 = r.shadowMute.isSome ∧
        b.getLsbD 3 = r.shadowPan.isSome ∧ b.getLsbD 4 = r.mute ∧ b.getLsbD 5 = r.shadowMute.getD false ∧
        b.getLsbD 6 = r.inverted ∧ b.getLsbD 7 = r.linePunch) ∧
      (wStrip n r)[1]? = some (BitVec.ofNat 8 n.val) ∧
      ((wStrip n r).drop 2).take 3 =
        (match r.source with
          | .none => [0, 0, 0]
          | .input l k => [1, BitVec.ofNat 8 l.val, BitVec.ofNat 8 k.val]
          | .premix b c => [2, BitVec.ofNat 8 b.val, BitVec.ofNat 8 c.val]) ∧
      ((wStrip n r).drop 5).take 2 =
        (match r.dest with
          | .none => [0, 0]
          | .premix b => [1, BitVec.ofNat 8 b.val]
          | .stem k => [2, BitVec.ofNat 8 k.val]) ∧
      ((wStrip n r).drop 7).take 2 = bytes2 (BitVec.ofNat 16 r.fader) ∧
      ((wStrip n r).drop 9).take 2 = bytes2 (BitVec.ofNat 16 r.trim) ∧
      ((wStrip n r).drop 11).take 2 = bytes2 (BitVec.ofNat 16 (r.shadowFader.getD 0)) ∧
      (wStrip n r)[13]? = some (match r.mode with
        | .live => (0 : Byte) | .playback => 1 | .write => 2 | .touch => 3 | .latch => 4 | .trim => 5) ∧
      (wStrip n r)[14]? = some (match r.writeState with
        | .off => (0 : Byte) | .wait => 1 | .ready => 2 | .writing => 3 | .latched => 4) ∧
      (wStrip n r)[15]? = some (match r.holder with
        | some q => (BitVec.ofNat 8 q.val : Byte)
        | none => 0xFF) ∧
      (wStrip n r)[16]? = some (match r.toucher with
        | some q => (BitVec.ofNat 8 q.val : Byte)
        | none => 0xFF) ∧
      (wStrip n r)[17]? = some (BitVec.ofNat 8 r.pan.length) ∧
      (∀ k : Fin 4, ((wStrip n r).drop (18 + 3 * k.val)).take 3 =
        match r.pan[k.val]? with
        | some e => BitVec.ofNat 8 e.channel.val :: bytes2 (BitVec.ofNat 16 e.weight)
        | none => [0, 0, 0]) ∧
      (wStrip n r)[30]? = some (BitVec.ofNat 8 (r.shadowPan.getD []).length) ∧
      (∀ k : Fin 4, ((wStrip n r).drop (31 + 3 * k.val)).take 3 =
        match (r.shadowPan.getD [])[k.val]? with
        | some e => BitVec.ofNat 8 e.channel.val :: bytes2 (BitVec.ofNat 16 e.weight)
        | none => [0, 0, 0])

/-! ### Cells -/

/-- READ-CELLS returns the ramp length and the cells it names; SET-RAMP sets the length of later ramps, 0 taken as
1 and more than 1,024 as 1,024, and leaves every cell as it is. That a READ-CELLS with an unknown object kind is
refused with RANGE is deduced (log 25). -/
def Obligations.ReadCellsAndSetRampAnswerTheRampLength : Prop :=
  ∀ (p : PortId) (kind number : Byte) (length : BitVec 16) (s : State),
    (s.port p).takes = true →
      (∀ n, reach (s.port p) number.toNat = .ok n →
        exec (.readCells p 0 number) s = .next (s.leaves p (reply 0x08 .ok
          (bytes2 (BitVec.ofNat 16 s.engine.rampLength) ++ [12] ++ (s.cells n).toList.flatMap wCell)))) ∧
      (∀ b : BusNo, number.toNat = b.val →
        exec (.readCells p 1 number) s = .next (s.leaves p (reply 0x08 .ok
          (bytes2 (BitVec.ofNat 16 s.engine.rampLength) ++ [1] ++ wCell s.engine.gainCells[b])))) ∧
      (24 ≤ number.toNat → exec (.readCells p 1 number) s = .next (s.leaves p (reply 0x08 .range []))) ∧
      (∀ st, reach (s.port p) number.toNat = .error st →
        exec (.readCells p 0 number) s = .next (s.leaves p (reply 0x08 st []))) ∧
      (2 ≤ kind.toNat → exec (.readCells p kind number) s = .next (s.leaves p (reply 0x08 .range []))) ∧
      ∃ L, L = (if length.toNat = 0 then 1 else if 1024 < length.toNat then 1024 else length.toNat) ∧
        exec (.setRamp p length) s = .next (({ s with engine := { s.engine with rampLength := L } }).leaves p
          (reply 0x09 .ok (bytes2 (BitVec.ofNat 16 L))))

/-- The used values of a strip follow the table of R7, with the trimmed fader of R8. -/
def Obligations.UsedValuesFollowPassModeAndWriteState : Prop :=
  ∀ (n : StripNo) (s : State),
    ((s.playback.passOpen = false ∨ (s.strip n).mode = .live ∨
        (((s.strip n).mode = .write ∨ (s.strip n).mode = .touch ∨ (s.strip n).mode = .latch) ∧
          ((s.strip n).writeState = .writing ∨ (s.strip n).writeState = .latched))) →
      s.used n = { fader := (s.strip n).fader, mute := (s.strip n).mute, pan := (s.strip n).pan }) ∧
    (s.playback.passOpen = true → ((s.strip n).mode = .playback ∨
        (((s.strip n).mode = .write ∨ (s.strip n).mode = .touch ∨ (s.strip n).mode = .latch) ∧
          ((s.strip n).writeState = .wait ∨ (s.strip n).writeState = .ready))) →
      s.used n =
        { fader := (s.strip n).shadowFader.getD (s.strip n).fader,
          mute := (s.strip n).shadowMute.getD (s.strip n).mute,
          pan := (s.strip n).shadowPan.getD (s.strip n).pan }) ∧
    (s.playback.passOpen = true → (s.strip n).mode = .trim →
      s.used n =
        { fader := min 65535 (((s.strip n).shadowFader.getD (s.strip n).fader * (s.strip n).trim + 8192) / 16384),
          mute := (s.strip n).shadowMute.getD (s.strip n).mute,
          pan := (s.strip n).shadowPan.getD (s.strip n).pan } ∧
      ((s.strip n).trim = 16384 → (s.strip n).shadowFader.getD (s.strip n).fader ≤ 65535 →
        (s.used n).fader = (s.strip n).shadowFader.getD (s.strip n).fader))

/-- The target of a strip's cell follows the table of R34, never exceeds the used fader, equals it at full weight, and
takes nothing from source and polarity. -/
def Obligations.CellTargetFollowsUsedValuesAndWidth : Prop :=
  ∀ (n : StripNo) (c : Channel) (s : State),
    ((s.used n).mute = true → s.target n c = 0) ∧
    ((s.strip n).dest = .none → s.target n c = 0) ∧
    (∀ w, s.busTable.destWidth (s.strip n).dest = some w → w ≤ c.val → s.target n c = 0) ∧
    ((∀ e ∈ (s.used n).pan, e.channel ≠ c) → s.target n c = 0) ∧
    (∀ w, s.busTable.destWidth (s.strip n).dest = some w → (s.used n).mute = false → c.val < w →
      ∀ e ∈ (s.used n).pan, (∀ d ∈ (s.used n).pan, d.channel = c → d = e) → e.channel = c →
        s.target n c = ((s.used n).fader * e.weight + 8192) / 16384 ∧
        (e.weight ≤ 16384 → s.target n c ≤ (s.used n).fader) ∧
        (e.weight = 16384 → s.target n c = (s.used n).fader) ∧ (e.weight = 0 → s.target n c = 0)) ∧
    (∀ (src : Source) (inv : Bool), (s.setStrip n { s.strip n with source := src, inverted := inv }).target n c =
      s.target n c) ∧
    (∀ b : PremixNo, (s.strip n).dest = .premix b →
      s.busTable.destWidth (s.strip n).dest = some s.busTable.premixWidth[b]) ∧
    (∀ k : StemNo, (s.strip n).dest = .stem k → s.busTable.destWidth (s.strip n).dest = some s.busTable.masterWidth)

/-- Stage 2 of a sample period takes every ramping cell, of strips and of buses, one step along its ramp and leaves a
settled cell; on a ramp the value is start plus the truncated share, lies between start and target, moves by nearly
equal steps, and ends at the target. -/
def Obligations.RampStepsRunFromStartToTarget : Prop :=
  ∀ (k : CellNo) (c d : Cell) (s : State),
    c = s.engine.cell k →
    ∃ t, exec .engineSamplePeriod s = .next t ∧
      (d = t.engine.cell k →
        (c.length ≤ c.step → d = c) ∧
        (c.step < c.length →
          d.step = c.step + 1 ∧ d.start = c.start ∧ d.target = c.target ∧ d.length = c.length ∧
          (d.current : Int) = c.start + Int.tdiv (((c.target : Int) - c.start) * (c.step + 1)) c.length ∧
          min c.start c.target ≤ d.current ∧ d.current ≤ max c.start c.target ∧
          (c.step + 1 = c.length → d.current = c.target) ∧
          ((c.current : Int) = c.start + Int.tdiv (((c.target : Int) - c.start) * c.step) c.length →
            |((d.current : Int) - c.current) * c.length - ((c.target : Int) - c.start)| < c.length)))
/-! ### The engine's sample period -/

/-- The sample period of the engine steps every cell, sets clip flags and raises CLIP at every attached port when
one rises, and touches nothing but cells, accumulators, clip flags, meters, the tick counter and the values
handed to the patch. That the period is noted as taken, and the values before kept, is the model's choice (log 14). -/
def Obligations.SamplePeriodStepsCellsAndSetsClipFlags : Prop :=
  ∀ (s : State),
    ∃ t, exec .engineSamplePeriod s = .next t ∧
      t.strips = s.strips ∧ t.timeline = s.timeline ∧ t.playback = s.playback ∧ t.writing = s.writing ∧
      t.pending = s.pending ∧ t.engine.rampLength = s.engine.rampLength ∧
      (∀ (n : StripNo) (c : Channel), (t.cells n)[c] = ((s.cells n)[c]).advance) ∧
      (∀ b : BusNo, t.engine.gainCells[b] = (s.engine.gainCells[b]).advance) ∧
      t.busTable = { s.busTable with
        buses := t.busTable.buses, masterClip := t.busTable.masterClip, stemMeters := t.busTable.stemMeters,
        masterMeters := t.busTable.masterMeters, tickCounter := t.busTable.tickCounter } ∧
      (∀ b : BusNo, t.bus b = { s.bus b with clip := (t.bus b).clip } ∧
        (t.bus b).clip = ((s.bus b).clip ||
          decide (∃ c : Channel, c.val < s.busTable.busWidth b ∧
            (rounded ((t.engine.accumulators[b])[c]) (t.engine.gainCells[b]).current < -8388608 ∨
              8388607 < rounded ((t.engine.accumulators[b])[c]) (t.engine.gainCells[b]).current)))) ∧
      t.busTable.masterClip = (s.busTable.masterClip ||
        decide (∃ c : Channel,
          (∑ k : StemNo, if s.busTable.print[k] = true then (t.audio.handed.stem[k])[c] else 0) < -8388608 ∨
            8388607 < (∑ k : StemNo, if s.busTable.print[k] = true then (t.audio.handed.stem[k])[c] else 0))) ∧
      (∀ p, t.port p = { s.port p with pendingSet := (t.port p).pendingSet } ∧
        (t.port p).pendingSet =
          if (s.port p).attached = true ∧
              ((∃ b, (s.bus b).clip = false ∧ (t.bus b).clip = true) ∨
                (s.busTable.masterClip = false ∧ t.busTable.masterClip = true))
          then (s.port p).pendingSet ||| 0x010#12 else (s.port p).pendingSet) ∧
      t.audio = { s.audio with handed := t.audio.handed, handedBefore := s.audio.handed, engineTaken := true } ∧
      (∀ (l : LaneNo) (k : SlotNo), (t.audio.handed.raw[l])[k] =
        if s.audio.lanes[l].up = true ∧ (s.audio.rate = .k48 ∨ k.val < 8) then (s.audio.lanes[l]).slots[k] else 0)

/-- Premix and stem outputs are the exact sums of the weighted samples, scaled by the gain cell, rounded half
upward at 2^28 and clamped; channels at or beyond the width are 0. A return strip reads the premix output of the
same period. The lane slots lie in the sample range and the routes keep the rule of sources, as every step keeps them. -/
def Obligations.BusOutputsAreTheScaledExactSums : Prop :=
  ∀ (s : State),
    (∀ n, routeAllowed (s.strip n).source (s.strip n).dest = true) →
    (∀ (l : LaneNo) (k : SlotNo), -8388608 ≤ (s.audio.lanes[l]).slots[k] ∧ (s.audio.lanes[l]).slots[k] ≤ 8388607) →
    ∃ t, exec .engineSamplePeriod s = .next t ∧
      (∀ (b : PremixNo) (c : Channel),
        (c.val < s.busTable.premixWidth[b] →
          (t.engine.accumulators[premixBus b])[c] = busSum s t (.premix b) c ∧
          (t.audio.handed.premix[b])[c] =
            clamp24 (rounded (busSum s t (.premix b) c) (t.engine.gainCells[premixBus b]).current)) ∧
        (s.busTable.premixWidth[b] ≤ c.val → (t.audio.handed.premix[b])[c] = 0)) ∧
      (∀ (k : StemNo) (c : Channel),
        (c.val < s.busTable.masterWidth →
          (t.engine.accumulators[stemBus k])[c] = busSum s t (.stem k) c ∧
          (t.audio.handed.stem[k])[c] =
            clamp24 (rounded (busSum s t (.stem k) c) (t.engine.gainCells[stemBus k]).current)) ∧
        (s.busTable.masterWidth ≤ c.val → (t.audio.handed.stem[k])[c] = 0))

/-- Each print master channel is the sum of that channel of the stems in print, clamped, and the sum itself when
it lies in the sample range; channels at or beyond the master width are 0, and with no stem in print all are. -/
def Obligations.PrintMasterIsTheClampedSumOfStemsInPrint : Prop :=
  ∀ (s : State),
    ∃ t, exec .engineSamplePeriod s = .next t ∧
      (∀ c : Channel,
        (t.audio.handed.master[c] =
          clamp24 (∑ k : StemNo, if s.busTable.print[k] = true then (t.audio.handed.stem[k])[c] else 0)) ∧
        (-8388608 ≤ (∑ k : StemNo, if s.busTable.print[k] = true then (t.audio.handed.stem[k])[c] else 0) →
          (∑ k : StemNo, if s.busTable.print[k] = true then (t.audio.handed.stem[k])[c] else 0) ≤ 8388607 →
          t.audio.handed.master[c] =
            ∑ k : StemNo, if s.busTable.print[k] = true then (t.audio.handed.stem[k])[c] else 0) ∧
        (∀ k : StemNo, -8388608 ≤ (t.audio.handed.stem[k])[c] ∧ (t.audio.handed.stem[k])[c] ≤ 8388607) ∧
        t.audio.selectedValue t.audio.handed (.master c) = t.audio.handed.master[c] ∧
        (s.busTable.masterWidth ≤ c.val → t.audio.handed.master[c] = 0 ∧ ∀ k : StemNo, (t.audio.handed.stem[k])[c] = 0) ∧
        ((∀ k : StemNo, s.busTable.print[k] = false) → t.audio.handed.master[c] = 0))

/-- With cells of at most 65,535 and lane slots in the sample range, which are parts of the laws of cells and lanes
that every step keeps, no premix or stem accumulator ever exceeds
87,959,588,044,800 in magnitude, and no partial sum over any set of strips does, so 48 bits hold every one at every
step of its formation, whatever the order of the strips. -/
def Obligations.AccumulatorsNeverExceedFortyEightBits : Prop :=
  ∀ (strips : Finset StripNo) (d : Dest) (s : State),
    (∀ (n : StripNo) (c : Channel), ((s.cells n)[c]).current ≤ 65535 ∧ ((s.cells n)[c]).start ≤ 65535 ∧
      ((s.cells n)[c]).target ≤ 65535) →
    (∀ (l : LaneNo) (k : SlotNo), -8388608 ≤ (s.audio.lanes[l]).slots[k] ∧ (s.audio.lanes[l]).slots[k] ≤ 8388607) →
    ∃ t, exec .engineSamplePeriod s = .next t ∧
      ∀ (b : BusNo) (c : Channel),
        |(t.engine.accumulators[b])[c]| ≤ 87959588044800 ∧ (87959588044800 : Int) < 2 ^ 47 ∧
        (∀ n, |sampleOf s t n * (((t.cells n)[c]).current : Int)| ≤ 549747425280) ∧
        |∑ n ∈ strips, if (s.strip n).dest = d then sampleOf s t n * (((t.cells n)[c]).current : Int) else 0| ≤
          87959588044800

/-- A meter takes a greater magnitude with the hold setting, and at a tick a meter that took none counts its hold
down or falls by one eighth; the tick comes every 480 or 960 periods. METER_TICK and CELL_SETTLE are the sample
period at which the tick is due or the cell takes its last step (log 5), and the cell is then at its target. -/
def Obligations.MetersTakePeaksHoldAndFall : Prop :=
  ∀ (k : CellNo) (s : State),
    ∃ t, exec .engineSamplePeriod s = .next t ∧
      (s.tickDue = decide ((if s.audio.rate = .k48 then 480 else 960) ≤ s.busTable.tickCounter + 1)) ∧
      (t.busTable.tickCounter = if s.tickDue then 0 else s.busTable.tickCounter + 1) ∧
      (∀ (i : StemNo) (c : Channel),
        t.busTable.stemMeters[12 * i.val + c.val] =
          if (s.busTable.stemMeters[12 * i.val + c.val]).value < ((t.audio.handed.stem[i])[c]).natAbs then
            { value := ((t.audio.handed.stem[i])[c]).natAbs, hold := s.busTable.holdSetting }
          else if s.tickDue then
            if 0 < (s.busTable.stemMeters[12 * i.val + c.val]).hold then
              { value := (s.busTable.stemMeters[12 * i.val + c.val]).value,
                hold := (s.busTable.stemMeters[12 * i.val + c.val]).hold - 1 }
            else { value := (s.busTable.stemMeters[12 * i.val + c.val]).value * 7 / 8, hold := 0 }
          else s.busTable.stemMeters[12 * i.val + c.val]) ∧
      (∀ c : Channel,
        t.busTable.masterMeters[c] =
          if (s.busTable.masterMeters[c]).value < (t.audio.handed.master[c]).natAbs then
            { value := (t.audio.handed.master[c]).natAbs, hold := s.busTable.holdSetting }
          else if s.tickDue then
            if 0 < (s.busTable.masterMeters[c]).hold then
              { value := (s.busTable.masterMeters[c]).value, hold := (s.busTable.masterMeters[c]).hold - 1 }
            else { value := (s.busTable.masterMeters[c]).value * 7 / 8, hold := 0 }
          else s.busTable.masterMeters[c]) ∧
      (s.tickDue = true → exec .meterTick s = .next t) ∧
      ((s.engine.cell k).step + 1 = (s.engine.cell k).length →
        exec (.cellSettle k) s = .next t ∧ (t.engine.cell k).current = (s.engine.cell k).target ∧
        (t.engine.cell k).step = (t.engine.cell k).length)

/-- Every output slot carries the value its entry selects from the previous sample period, and 0 where a flagged
safe trigger is active or an input lane is DOWN. Which of the values held are the previous period's, that the frame is
formed at its transmission with the entries, triggers and lanes of that moment, and the 0 of an absent slot, are the
model's choices (logs 14, 15, 23 and 29). -/
def Obligations.OutputFrameCarriesThePatchedValues : Prop :=
  ∀ (s : State),
    ∃ t, exec .outputFrame s = .next t ∧
      t = { s with audio := { s.audio with outFrames := t.audio.outFrames } } ∧
      ∀ (l : LaneNo) (k : SlotNo) (h : Handed) (e : PatchEntry),
        h = (if s.audio.engineTaken then s.audio.handedBefore else s.audio.handed) →
        e = s.audio.patch[16 * l.val + k.val]'(by omega) →
        ((s.audio.rate = .k96 ∧ 8 ≤ k.val) ∨ (e.safe0 = true ∧ s.audio.locked = false) ∨
            (e.safe1 = true ∧ ∃ i : LaneNo, s.audio.lanes[i].up = false) → (t.audio.outFrames[l])[k] = 0) ∧
        (¬(s.audio.rate = .k96 ∧ 8 ≤ k.val) → ¬(e.safe0 = true ∧ s.audio.locked = false) →
          ¬(e.safe1 = true ∧ ∃ i : LaneNo, s.audio.lanes[i].up = false) →
          (t.audio.outFrames[l])[k] = match e.selection with
            | .silent => 0
            | .master c => h.master[c]
            | .stem i c => (h.stem[i])[c]
            | .premix b c => (h.premix[b])[c]
            | .input i j =>
              if s.audio.lanes[i].up = true ∧ (s.audio.rate = .k48 ∨ j.val < 8) then (h.raw[i])[j] else 0)

/-! ### Buses -/

/-- SET-BUS writes the selected fields of one bus, retargets its gain cell when its target changes and the strips
of a premix whose width changes, and is refused by the checks of R54 in their order; bytes not selected are ignored. That
a selected mute or print byte other than 00 or 01 is refused with RANGE at the step of the width is deduced (log 25),
and so is that an empty selection is refused by the checks of the bus number and the holder too (log 27). -/
def Obligations.SetBusWritesTheSelectedFields : Prop :=
  ∀ (p : PortId) (b : BusNo) (bus sel width muteByte printByte : Byte) (gain : BitVec 16) (mute print : Bool)
    (s : State),
    (s.port p).takes = true →
      (23 < bus.toNat →
        exec (.setBus p bus sel width gain muteByte printByte) s = .next (s.leaves p (reply 0x10 .range []))) ∧
      ((∃ q, (s.bus b).holder = some q ∧ q ≠ p) →
        exec (.setBus p (BitVec.ofNat 8 b.val) sel width gain muteByte printByte) s =
          .next (s.leaves p (reply 0x10 .held []))) ∧
      ((s.bus b).holder = none ∨ (s.bus b).holder = some p →
        ((sel.getLsbD 0 = true ∧ ¬(1 ≤ width.toNat ∧ width.toNat ≤ 12)) ∨
            (sel.getLsbD 2 = true ∧ 1 < muteByte.toNat) ∨ (sel.getLsbD 3 = true ∧ 1 < printByte.toNat) →
          exec (.setBus p (BitVec.ofNat 8 b.val) sel width gain muteByte printByte) s =
            .next (s.leaves p (reply 0x10 .range []))) ∧
        ((sel.getLsbD 0 = true → 1 ≤ width.toNat ∧ width.toNat ≤ 12) →
          (sel.getLsbD 2 = true → muteByte = wFlag mute) → (sel.getLsbD 3 = true → printByte = wFlag print) →
          ((sel.getLsbD 0 = true ∧ 16 ≤ b.val) ∨ (sel.getLsbD 3 = true ∧ b.val < 16) →
            exec (.setBus p (BitVec.ofNat 8 b.val) sel width gain muteByte printByte) s =
              .next (s.leaves p (reply 0x10 .shape []))) ∧
          (¬((sel.getLsbD 0 = true ∧ 16 ≤ b.val) ∨ (sel.getLsbD 3 = true ∧ b.val < 16)) →
            (sel.getLsbD 0 = true → width.toNat < s.busTable.busWidth b →
              (∃ (n : StripNo) (d : PremixNo), d.val = b.val ∧ (s.strip n).dest = .premix d ∧
                ∃ e ∈ (s.strip n).pan, width.toNat ≤ e.channel.val) →
              exec (.setBus p (BitVec.ofNat 8 b.val) sel width gain muteByte printByte) s =
                .next (s.leaves p (reply 0x10 .inUse []))) ∧
            ((sel.getLsbD 0 = true → width.toNat < s.busTable.busWidth b →
              ∀ (n : StripNo) (d : PremixNo), d.val = b.val → (s.strip n).dest = .premix d →
                ∀ e ∈ (s.strip n).pan, e.channel.val < width.toNat) →
              ∃ t, exec (.setBus p (BitVec.ofNat 8 b.val) sel width gain muteByte printByte) s = .next t ∧
                t.bus b = { s.bus b with
                  gain := if sel.getLsbD 1 then gain.toNat else (s.bus b).gain,
                  mute := if sel.getLsbD 2 then mute else (s.bus b).mute } ∧
                t.busTable.busWidth b = (if sel.getLsbD 0 then width.toNat else s.busTable.busWidth b) ∧
                t.busTable.busPrint b = (if sel.getLsbD 3 then print else s.busTable.busPrint b) ∧
                (∀ a, a ≠ b → t.bus a = s.bus a ∧ t.busTable.busPrint a = s.busTable.busPrint a ∧
                  t.busTable.busWidth a = s.busTable.busWidth a ∧
                  t.engine.gainCells[a] = s.engine.gainCells[a]) ∧
                t.engine.gainCells[b] =
                  (if (s.engine.gainCells[b]).target = (t.bus b).gainTarget then s.engine.gainCells[b]
                    else
                      { current := (s.engine.gainCells[b]).current, start := (s.engine.gainCells[b]).current,
                        target := (t.bus b).gainTarget, length := s.engine.rampLength, step := 0 }) ∧
                (∀ (n : StripNo) (c : Channel), (t.cells n)[c] =
                  if t.busTable.busWidth b = s.busTable.busWidth b ∨ (∀ d : PremixNo, d.val = b.val → (s.strip n).dest ≠ .premix d) ∨
                    ((s.cells n)[c]).target = t.target n c then (s.cells n)[c]
                  else
                    { current := ((s.cells n)[c]).current, start := ((s.cells n)[c]).current,
                      target := t.target n c, length := s.engine.rampLength, step := 0 }) ∧
                t = { s with
                  engine := { s.engine with stripCells := t.engine.stripCells, gainCells := t.engine.gainCells },
                  busTable := t.busTable, ports := t.ports } ∧
                t.busTable = { s.busTable with
                  buses := t.busTable.buses, premixWidth := t.busTable.premixWidth, print := t.busTable.print } ∧
                otherPortsKept p s t ∧ ownPortKept p s t ∧ (t.port p).pendingSet = (s.port p).pendingSet ∧
                (t.port p).replySlot = reply 0x10 .ok (wBus t.busTable b)))))

/-- SET-MASTER to a width of 1 to 12 that no live stem pan goes beyond writes the width, retargets every strip
with a stem destination, and sets the meters beyond a narrower width to 0; else it is refused. -/
def Obligations.SetMasterWritesTheWidthAndZeroesMeters : Prop :=
  ∀ (p : PortId) (width : Byte) (s : State),
    (s.port p).takes = true →
      (¬(1 ≤ width.toNat ∧ width.toNat ≤ 12) →
        exec (.setMaster p width) s = .next (s.leaves p (reply 0x11 .range []))) ∧
      (1 ≤ width.toNat → width.toNat ≤ 12 → width.toNat < s.busTable.masterWidth →
        (∃ (n : StripNo) (k : StemNo), (s.strip n).dest = .stem k ∧ ∃ e ∈ (s.strip n).pan, width.toNat ≤ e.channel.val) →
        exec (.setMaster p width) s = .next (s.leaves p (reply 0x11 .inUse []))) ∧
      (1 ≤ width.toNat → width.toNat ≤ 12 →
        (width.toNat < s.busTable.masterWidth →
          ∀ (n : StripNo) (k : StemNo), (s.strip n).dest = .stem k → ∀ e ∈ (s.strip n).pan, e.channel.val < width.toNat) →
        ∃ t, exec (.setMaster p width) s = .next t ∧ t.busTable.masterWidth = width.toNat ∧
          (∀ (i : StemNo) (c : Channel), t.busTable.stemMeters[12 * i.val + c.val] =
            if width.toNat < s.busTable.masterWidth ∧ width.toNat ≤ c.val then { value := 0, hold := 0 }
            else s.busTable.stemMeters[12 * i.val + c.val]) ∧
          (∀ c : Channel, t.busTable.masterMeters[c] =
            if width.toNat < s.busTable.masterWidth ∧ width.toNat ≤ c.val then { value := 0, hold := 0 }
            else s.busTable.masterMeters[c]) ∧
          (∀ (n : StripNo) (c : Channel), (t.cells n)[c] =
            if width.toNat = s.busTable.masterWidth ∨ (∀ k, (s.strip n).dest ≠ .stem k) ∨
              ((s.cells n)[c]).target = t.target n c then (s.cells n)[c]
            else
              { current := ((s.cells n)[c]).current, start := ((s.cells n)[c]).current,
                target := t.target n c, length := s.engine.rampLength, step := 0 }) ∧
          t = { s with
            engine := { s.engine with stripCells := t.engine.stripCells },
            busTable := { s.busTable with
              masterWidth := t.busTable.masterWidth, stemMeters := t.busTable.stemMeters,
              masterMeters := t.busTable.masterMeters },
            ports := t.ports } ∧
          otherPortsKept p s t ∧ ownPortKept p s t ∧ (t.port p).pendingSet = (s.port p).pendingSet ∧
          (t.port p).replySlot = reply 0x11 .ok [width])

/-- CLEAR-CLIP clears the selected clip flags and answers all 25, METER-CONFIG sets the hold setting, and
METER-READ and BUS-READ answer what stands; none touches anything else, and a run of buses outside 1 to 16, or
beyond bus 23, is refused. -/
def Obligations.ClipAndMeterRequestsTouchTheirFieldsAlone : Prop :=
  ∀ (p : PortId) (set : BitVec 32) (hold first count : Byte) (s : State),
    (s.port p).takes = true →
      (∃ t, exec (.clearClip p set) s = .next t ∧
        (∀ b : BusNo, t.bus b = { s.bus b with clip := (s.bus b).clip && !set.getLsbD b.val }) ∧
        t.busTable.masterClip = (s.busTable.masterClip && !set.getLsbD 24) ∧
        t = { s with
          busTable := { s.busTable with buses := t.busTable.buses, masterClip := t.busTable.masterClip },
          ports := t.ports } ∧
        otherPortsKept p s t ∧ ownPortKept p s t ∧ (t.port p).pendingSet = (s.port p).pendingSet ∧
        (t.port p).replySlot = reply 0x13 .ok (bytes4 t.busTable.clipSet) ∧
        (∀ b : BusNo, t.busTable.clipSet.getLsbD b.val = (t.bus b).clip) ∧
        t.busTable.clipSet.getLsbD 24 = t.busTable.masterClip ∧ t.busTable.clipSet >>> 25 = 0) ∧
      exec (.meterConfig p hold) s =
        .next (({ s with busTable := { s.busTable with holdSetting := hold.toNat } }).leaves p
          (reply 0x15 .ok [hold])) ∧
      exec (.meterRead p) s = .next (s.leaves p (reply 0x14 .ok
        ([BitVec.ofNat 8 s.busTable.masterWidth, BitVec.ofNat 8 s.busTable.holdSetting] ++
          (s.busTable.stemMeters.toList ++ s.busTable.masterMeters.toList).flatMap wMeter ++ wClips s.busTable))) ∧
      (wMeters s.busTable).length = 438 ∧
      (1 ≤ count.toNat → count.toNat ≤ 16 → first.toNat + count.toNat ≤ 24 →
        exec (.busRead p first count) s = .next (s.leaves p (reply 0x12 .ok
          ([BitVec.ofNat 8 s.busTable.masterWidth, if s.busTable.masterClip then 1 else 0, count] ++
            ((List.finRange 24).filter fun b => first.toNat ≤ b.val && b.val < first.toNat + count.toNat).flatMap
              fun b => [BitVec.ofNat 8 b.val, if b.val < 16 then 0 else 1, BitVec.ofNat 8 (s.busTable.busWidth b)] ++
                bytes2 (BitVec.ofNat 16 (s.bus b).gain) ++
                [if (s.bus b).mute then 1 else 0, if s.busTable.busPrint b then 1 else 0,
                  (match (s.bus b).holder with
                    | some q => BitVec.ofNat 8 q.val
                    | none => 0xFF),
                  if (s.bus b).clip then 1 else 0])))) ∧
      (¬(1 ≤ count.toNat ∧ count.toNat ≤ 16 ∧ first.toNat + count.toNat ≤ 24) →
        exec (.busRead p first count) s = .next (s.leaves p (reply 0x12 .range [])))

/-! ### Positions -/

/-- CLAIM makes the requester the holder of every object of its run, or of none: the first failed translation, or
else the first object held or touched by another port in run order, is its answer. That an unknown object kind is
refused with RANGE and position FF is deduced (log 25), and that the count answered is the length of the run, two
positions that reach one strip counted twice, is the model's choice (log 28). -/
def Obligations.ClaimHoldsTheWholeRunOrNothing : Prop :=
  ∀ (p q : PortId) (kind first count : Byte) (i : Fin 16) (n : StripNo) (st : Status) (s : State),
    (s.port p).takes = true →
      (2 ≤ kind.toNat → exec (.claim p kind first count) s = .next (s.leaves p (reply 0x20 .range [0xFF]))) ∧
      (¬(1 ≤ count.toNat ∧ count.toNat ≤ 16) →
        exec (.claim p 0 first count) s = .next (s.leaves p (reply 0x20 .range [0xFF])) ∧
        exec (.claim p 1 first count) s = .next (s.leaves p (reply 0x20 .range [0xFF]))) ∧
      (1 ≤ count.toNat → count.toNat ≤ 16 →
        (i.val < count.toNat → reachForChange (s.port p) (first.toNat + i.val) = .error st →
          (∀ j < i, ∃ m, reachForChange (s.port p) (first.toNat + j.val) = .ok m) →
          exec (.claim p 0 first count) s = .next (s.leaves p (reply 0x20 st [BitVec.ofNat 8 i.val]))) ∧
        ((∀ j : Fin 16, j.val < count.toNat → ∃ m, reachForChange (s.port p) (first.toNat + j.val) = .ok m) →
          (i.val < count.toNat → reachForChange (s.port p) (first.toNat + i.val) = .ok n →
            (s.strip n).holder = some q → q ≠ p →
            (∀ j < i, ∀ m, reachForChange (s.port p) (first.toNat + j.val) = .ok m →
              (s.strip m).holder = none ∨ (s.strip m).holder = some p) →
            exec (.claim p 0 first count) s = .next (s.leaves p (reply 0x20 .held
              [BitVec.ofNat 8 i.val, BitVec.ofNat 8 n.val, BitVec.ofNat 8 q.val]))) ∧
          ((∀ j : Fin 16, j.val < count.toNat → ∀ m, reachForChange (s.port p) (first.toNat + j.val) = .ok m →
              (s.strip m).holder = none ∨ (s.strip m).holder = some p) →
            (i.val < count.toNat → reachForChange (s.port p) (first.toNat + i.val) = .ok n →
              (s.strip n).toucher = some q → q ≠ p →
              (∀ j < i, ∀ m, reachForChange (s.port p) (first.toNat + j.val) = .ok m → (s.strip m).openTo p) →
              exec (.claim p 0 first count) s = .next (s.leaves p (reply 0x20 .touched
                [BitVec.ofNat 8 i.val, BitVec.ofNat 8 n.val, BitVec.ofNat 8 q.val]))) ∧
            ((∀ j : Fin 16, j.val < count.toNat → ∀ m, reachForChange (s.port p) (first.toNat + j.val) = .ok m →
                (s.strip m).openTo p) →
              ∃ t, exec (.claim p 0 first count) s = .next t ∧
                (∀ m, t.strip m = { s.strip m with
                  holder :=
                    if ∃ j : Fin 16, j.val < count.toNat ∧ reachForChange (s.port p) (first.toNat + j.val) = .ok m then some p
                    else (s.strip m).holder }) ∧
                t = { s with strips := t.strips, ports := t.ports } ∧ otherPortsKept p s t ∧ ownPortKept p s t ∧
                (t.port p).pendingSet = (s.port p).pendingSet ∧ (t.port p).replySlot = reply 0x20 .ok [count]))) ∧
        (24 < first.toNat + count.toNat →
          exec (.claim p 1 first count) s = .next (s.leaves p (reply 0x20 .range [0xFF]))) ∧
        (first.toNat + count.toNat ≤ 24 →
          (∀ b : BusNo, i.val < count.toNat → b.val = first.toNat + i.val → (s.bus b).holder = some q → q ≠ p →
            (∀ a : BusNo, first.toNat ≤ a.val → a < b → (s.bus a).holder = none ∨ (s.bus a).holder = some p) →
            exec (.claim p 1 first count) s = .next (s.leaves p (reply 0x20 .held
              [BitVec.ofNat 8 i.val, BitVec.ofNat 8 b.val, BitVec.ofNat 8 q.val]))) ∧
          ((∀ b : BusNo, first.toNat ≤ b.val → b.val < first.toNat + count.toNat →
              (s.bus b).holder = none ∨ (s.bus b).holder = some p) →
            ∃ t, exec (.claim p 1 first count) s = .next t ∧
              (∀ b, t.bus b = { s.bus b with
                holder :=
                  if first.toNat ≤ b.val ∧ b.val < first.toNat + count.toNat then some p else (s.bus b).holder }) ∧
              t = { s with busTable := { s.busTable with buses := t.busTable.buses }, ports := t.ports } ∧
              otherPortsKept p s t ∧ ownPortKept p s t ∧ (t.port p).pendingSet = (s.port p).pendingSet ∧
              (t.port p).replySlot = reply 0x20 .ok [count])))

/-- RELEASE frees exactly the objects of its run that the requester holds and answers their number; YIELD hands a
held object to another attached port and raises CLAIM there, or is refused. On a strip it first ends the requester's
touch, and the write state follows a trigger that this ends: nothing else of the strip changes but the trim returned
and, beside CLAIM, no reason rises but HIGH or LOST of its PUNCH-OUT record. That both refuse an unknown object kind with
RANGE before their other checks is deduced (log 25). -/
def Obligations.ReleaseAndYieldMoveTheHolder : Prop :=
  ∀ (p q : PortId) (kind first count target : Byte) (n : StripNo) (b : BusNo) (s : State),
    (s.port p).takes = true →
      (1 < kind.toNat →
        exec (.release p kind first count) s = .next (s.leaves p (reply 0x21 .range [])) ∧
        exec (.yield p kind first target) s = .next (s.leaves p (reply 0x22 .range []))) ∧
      (1 ≤ count.toNat → count.toNat ≤ 16 →
        (∃ t, exec (.release p 0 first count) s = .next t ∧
          (∀ m, t.strip m = { s.strip m with
            holder :=
              if (s.strip m).holder = some p ∧ ∃ j : Fin 16, j.val < count.toNat ∧ reach (s.port p) (first.toNat + j.val) = .ok m
              then none else (s.strip m).holder }) ∧
          t = { s with strips := t.strips, ports := t.ports } ∧ otherPortsKept p s t ∧ ownPortKept p s t ∧
          (t.port p).pendingSet = (s.port p).pendingSet ∧
          (t.port p).replySlot = reply 0x21 .ok [BitVec.ofNat 8 ((List.finRange 160).countP fun m =>
            decide ((s.strip m).holder = some p ∧
              ∃ j : Fin 16, j.val < count.toNat ∧ reach (s.port p) (first.toNat + j.val) = .ok m))]) ∧
        (first.toNat + count.toNat ≤ 24 →
          ∃ t, exec (.release p 1 first count) s = .next t ∧
            (∀ a, t.bus a = { s.bus a with
              holder :=
                if (s.bus a).holder = some p ∧ first.toNat ≤ a.val ∧ a.val < first.toNat + count.toNat then none
                else (s.bus a).holder }) ∧
            t = { s with busTable := { s.busTable with buses := t.busTable.buses }, ports := t.ports } ∧
            otherPortsKept p s t ∧ ownPortKept p s t ∧ (t.port p).pendingSet = (s.port p).pendingSet ∧
            (t.port p).replySlot = reply 0x21 .ok [BitVec.ofNat 8 ((List.finRange 24).countP fun a =>
              decide ((s.bus a).holder = some p ∧ first.toNat ≤ a.val ∧ a.val < first.toNat + count.toNat))])) ∧
      (¬(1 ≤ count.toNat ∧ count.toNat ≤ 16) →
        exec (.release p 0 first count) s = .next (s.leaves p (reply 0x21 .range [])) ∧
        exec (.release p 1 first count) s = .next (s.leaves p (reply 0x21 .range []))) ∧
      (24 < first.toNat + count.toNat →
        exec (.release p 1 first count) s = .next (s.leaves p (reply 0x21 .range []))) ∧
      (3 < target.toNat →
        (reachForChange (s.port p) first.toNat = .ok n →
          exec (.yield p 0 first target) s = .next (s.leaves p (reply 0x22 .range []))) ∧
        (first.toNat = b.val → exec (.yield p 1 first target) s = .next (s.leaves p (reply 0x22 .range [])))) ∧
      (reachForChange (s.port p) first.toNat = .ok n →
        ((s.strip n).holder ≠ some p →
          exec (.yield p 0 first (BitVec.ofNat 8 q.val)) s = .next (s.leaves p (reply 0x22 .held
            [match (s.strip n).holder with
              | some h => BitVec.ofNat 8 h.val
              | none => 0xFF]))) ∧
        ((s.strip n).holder = some p → (s.port q).attached = false →
          exec (.yield p 0 first (BitVec.ofNat 8 q.val)) s = .next (s.leaves p (reply 0x22 .absent []))) ∧
        ((s.strip n).holder = some p →
          exec (.yield p 0 first (BitVec.ofNat 8 p.val)) s = .next (s.leaves p (reply 0x22 .self []))) ∧
        ((s.strip n).holder = some p → (s.port q).attached = true → q ≠ p →
          ∃ t, exec (.yield p 0 first (BitVec.ofNat 8 q.val)) s = .next t ∧
            Turned n
              { s.strip n with
                holder := some q, toucher := if (s.strip n).toucher = some p then none else (s.strip n).toucher } s t ∧
            Unreported p s t ∧
            OnlyStrip p n (s.modPort q fun qs => { qs with pendingSet := qs.pendingSet ||| 0x004#12 }) t ∧
            (t.port p).replySlot = reply 0x22 .ok [])) ∧
      (first.toNat = b.val → (s.bus b).holder ≠ some p →
        exec (.yield p 1 first (BitVec.ofNat 8 q.val)) s = .next (s.leaves p (reply 0x22 .held
          [match (s.bus b).holder with
            | some h => BitVec.ofNat 8 h.val
            | none => 0xFF]))) ∧
      (first.toNat = b.val → (s.bus b).holder = some p → (s.port q).attached = false →
        exec (.yield p 1 first (BitVec.ofNat 8 q.val)) s = .next (s.leaves p (reply 0x22 .absent []))) ∧
      (first.toNat = b.val → (s.bus b).holder = some p →
        exec (.yield p 1 first (BitVec.ofNat 8 p.val)) s = .next (s.leaves p (reply 0x22 .self []))) ∧
      (24 ≤ first.toNat →
        exec (.yield p 1 first (BitVec.ofNat 8 q.val)) s = .next (s.leaves p (reply 0x22 .range []))) ∧
      (first.toNat = b.val → (s.bus b).holder = some p → (s.port q).attached = true → q ≠ p →
        ∃ t, exec (.yield p 1 first (BitVec.ofNat 8 q.val)) s = .next t ∧
          t.bus b = { s.bus b with holder := some q } ∧ (∀ a, a ≠ b → t.bus a = s.bus a) ∧
          t = (({ s with busTable := { s.busTable with buses := t.busTable.buses } }).modPort q fun qs =>
            { qs with pendingSet := qs.pendingSet ||| 0x004#12 }).leaves p (reply 0x22 .ok []))

/-- TOUCH makes the requester the toucher and UNTOUCH ends its own touch; the write state moves by R132 and R133
when the trigger changes. A punch-in loads the used values, moves no cell and queues its record; a punch-out queues its
record, returns the trim and hands the glide back; a trigger that does neither moves the write state alone. No reason
rises but HIGH or LOST of a record, and no watch is hit. -/
def Obligations.TouchAndUntouchDriveTheWriteState : Prop :=
  ∀ (p : PortId) (surface : Byte) (n : StripNo) (s : State),
    (s.port p).takes = true →
      (reachForChange (s.port p) surface.toNat = .ok n → (s.strip n).openTo p →
        ∃ t, exec (.touch p surface) s = .next t ∧ Turned n { s.strip n with toucher := some p } s t ∧
          Unreported p s t ∧ OnlyStrip p n s t ∧
          (t.port p).replySlot = reply 0x23 .ok [BitVec.ofNat 8 (t.strip n).writeState.code] ∧
          (¬(s.armed n = true ∧ (s.strip n).mode.triggered ∧ (s.strip n).toucher = none ∧ ¬s.linePunched n) →
            t.strip n = { s.strip n with toucher := some p } ∧ t.writing = s.writing ∧ t.cells n = s.cells n) ∧
          (s.armed n = true ∧ (s.strip n).mode.triggered ∧ (s.strip n).toucher = none ∧ ¬s.linePunched n →
            (t.strip n).writeState = afterRise s.timeline.counting (s.strip n).writeState ∧
            (¬((s.strip n).writeState = .ready ∧ s.timeline.counting = true) →
              t.strip n =
                { s.strip n with
                  toucher := some p, writeState := afterRise s.timeline.counting (s.strip n).writeState } ∧
              t.writing = s.writing ∧ t.cells n = s.cells n) ∧
            ((s.strip n).writeState = .ready → s.timeline.counting = true →
              Queued [.punchIn s.timeline.counter n (some p) (s.strip n).mode (t.strip n).fader (t.strip n).mute
                (t.strip n).pan (if (s.strip n).mode = .trim then some 16384 else none)] s t ∧
              (t.strip n).fader = (s.used n).fader ∧ (t.strip n).mute = (s.used n).mute ∧
              ((s.used n).pan ≠ [] →
                (∀ w, s.busTable.destWidth (s.strip n).dest = some w → ∀ e ∈ (s.used n).pan, e.channel.val < w) →
                ((s.strip n).mode = .trim → (s.strip n).trim = 16384) →
                (t.strip n).pan = (s.used n).pan ∧ t.used n = s.used n ∧ t.cells n = s.cells n)))) ∧
      (reach (s.port p) surface.toNat = .ok n →
        ((s.strip n).toucher ≠ some p →
          exec (.untouch p surface) s =
            .next (s.leaves p (reply 0x24 .ok [BitVec.ofNat 8 (s.strip n).writeState.code]))) ∧
        ((s.strip n).toucher = some p →
          ∃ t, exec (.untouch p surface) s = .next t ∧ Turned n { s.strip n with toucher := none } s t ∧
            Unreported p s t ∧ OnlyStrip p n s t ∧
            (t.port p).replySlot = reply 0x24 .ok [BitVec.ofNat 8 (t.strip n).writeState.code] ∧
            (¬(s.armed n = true ∧ (s.strip n).mode.triggered ∧ ¬s.linePunched n) →
              t.strip n = { s.strip n with toucher := none } ∧ t.writing = s.writing ∧ t.cells n = s.cells n) ∧
            (s.armed n = true ∧ (s.strip n).mode.triggered ∧ ¬s.linePunched n →
              t.strip n =
                { s.strip n with
                  toucher := none, writeState := afterFall (s.strip n).mode (s.strip n).writeState,
                  trim :=
                    if (s.strip n).mode = .trim ∧ (s.strip n).writeState = .writing then 16384 else (s.strip n).trim } ∧
              Queued (if (s.strip n).writeState = .writing ∧ (s.strip n).mode ≠ .latch then
                [.punchOut s.timeline.counter n .release] else []) s t ∧ Ramped n s t)))

/-- The watch requests add, remove and read entries of the requester's list, CLEAR-SIGNAL clears the requester's
selected flags, and SIGNAL sets a flag of another attached port and raises SIGNAL there, each with its checks; each
leaves everything else as it was. -/
def Obligations.WatchAndSignalRequestsKeepTheirLists : Prop :=
  ∀ (p q : PortId) (f : Fin 4) (surface set target flag : Byte) (n : StripNo) (s : State),
    (s.port p).takes = true →
      (∀ st, reach (s.port p) surface.toNat = .error st →
        exec (.watchAdd p surface) s =
          .next (s.leaves p (reply 0x25 st [BitVec.ofNat 8 (s.port p).watches.length])) ∧
        exec (.watchRemove p surface) s =
          .next (s.leaves p (reply 0x26 st [BitVec.ofNat 8 (s.port p).watches.length]))) ∧
      (3 < target.toNat ∨ 3 < flag.toNat →
        exec (.signal p target flag) s = .next (s.leaves p (reply 0x28 .range []))) ∧
      (reach (s.port p) surface.toNat = .ok n →
        ((∃ w ∈ (s.port p).watches, w.strip = n) →
          exec (.watchAdd p surface) s =
            .next (s.leaves p (reply 0x25 .duplicate [BitVec.ofNat 8 (s.port p).watches.length]))) ∧
        ((∀ w ∈ (s.port p).watches, w.strip ≠ n) →
          (4 ≤ (s.port p).watches.length →
            exec (.watchAdd p surface) s =
              .next (s.leaves p (reply 0x25 .full [BitVec.ofNat 8 (s.port p).watches.length]))) ∧
          ((s.port p).watches.length < 4 →
            exec (.watchAdd p surface) s =
              .next ((s.modPort p fun qs =>
                { qs with watches := qs.watches ++ [{ strip := n, hit := false, mover := none }] }).leaves p
                  (reply 0x25 .ok [BitVec.ofNat 8 ((s.port p).watches.length + 1)])))) ∧
        exec (.watchRemove p surface) s =
          .next ((s.modPort p fun qs => { qs with watches := qs.watches.filter fun w => w.strip ≠ n }).leaves p
            (reply 0x26 .ok [BitVec.ofNat 8 ((s.port p).watches.countP fun w => w.strip ≠ n)]))) ∧
      exec (.watchRead p) s =
        .next ((s.modPort p fun qs =>
          { qs with watches := qs.watches.map fun w => { strip := w.strip, hit := false, mover := none } }).leaves p
            (reply 0x27 .ok (BitVec.ofNat 8 (s.port p).watches.length :: (s.port p).watches.flatMap fun w =>
              [BitVec.ofNat 8 w.strip.val, if w.hit then 1 else 0,
                match w.mover with
                | some h => BitVec.ofNat 8 h.val
                | none => 0xFF]))) ∧
      exec (.signal p (BitVec.ofNat 8 p.val) (BitVec.ofNat 8 f.val)) s = .next (s.leaves p (reply 0x28 .self [])) ∧
      (q ≠ p → (s.port q).attached = false →
        exec (.signal p (BitVec.ofNat 8 q.val) (BitVec.ofNat 8 f.val)) s = .next (s.leaves p (reply 0x28 .absent []))) ∧
      (q ≠ p → (s.port q).attached = true →
        exec (.signal p (BitVec.ofNat 8 q.val) (BitVec.ofNat 8 f.val)) s =
          .next ((s.modPort q fun qs =>
            { qs with signals := qs.signals.set f true, pendingSet := qs.pendingSet ||| 0x002#12 }).leaves p
              (reply 0x28 .ok []))) ∧
      ∃ t, exec (.clearSignal p set) s = .next t ∧
        (∀ i : Fin 4, (t.port p).signals[i] = ((s.port p).signals[i] && !set.getLsbD i.val)) ∧
        t = { s with ports := t.ports } ∧ otherPortsKept p s t ∧
        ∃ flags : Byte, flags = (BitVec.ofBoolListLE (t.port p).signals.toList).setWidth 8 ∧
          t.port p = { s.port p with
            transaction := .idle, shiftOut := [], replySlot := reply 0x29 .ok [flags], signals := (t.port p).signals }

/-- SAVE pushes a snapshot of the live values, of nine dropping the oldest; RECALL judges the top snapshot for
holder, toucher, mode and shape, and either writes its differing fields and removes it, or leaves strip and stack as they are. -/
def Obligations.SaveAndRecallWorkTheStack : Prop :=
  ∀ (p : PortId) (surface : Byte) (n : StripNo) (k : Snapshot) (rest : List Snapshot) (s : State),
    (s.port p).takes = true →
      (reachForChange (s.port p) surface.toNat = .ok n →
        exec (.save p surface) s =
          .next ((s.modPort p fun qs =>
            { qs with
              recallStack := ({ strip := n, fader := (s.strip n).fader, mute := (s.strip n).mute,
                                pan := (s.strip n).pan, inverted := (s.strip n).inverted } :: qs.recallStack).take 8 }).leaves p
              (reply 0x2A .ok [BitVec.ofNat 8 (min 8 ((s.port p).recallStack.length + 1))]))) ∧
      ((s.port p).recallStack = [] → exec (.recallStrip p) s = .next (s.leaves p (reply 0x2B .empty [0xFF, 0]))) ∧
      ((s.port p).recallStack = k :: rest →
        ((∃ q, (s.strip k.strip).holder = some q ∧ q ≠ p) →
          exec (.recallStrip p) s = .next (s.leaves p (reply 0x2B .held
            [BitVec.ofNat 8 k.strip.val, BitVec.ofNat 8 (rest.length + 1)]))) ∧
        ((s.strip k.strip).holder = none ∨ (s.strip k.strip).holder = some p →
          (∃ q, (s.strip k.strip).toucher = some q ∧ q ≠ p) →
          exec (.recallStrip p) s = .next (s.leaves p (reply 0x2B .touched
            [BitVec.ofNat 8 k.strip.val, BitVec.ofNat 8 (rest.length + 1)]))) ∧
        ((s.strip k.strip).openTo p → ¬s.writesLive k.strip →
          (k.fader ≠ (s.strip k.strip).fader ∨ k.mute ≠ (s.strip k.strip).mute ∨ k.pan ≠ (s.strip k.strip).pan) →
          exec (.recallStrip p) s = .next (s.leaves p (reply 0x2B .automated
            [BitVec.ofNat 8 k.strip.val, BitVec.ofNat 8 (rest.length + 1)]))) ∧
        ((s.strip k.strip).openTo p →
          (s.writesLive k.strip ∨
            (k.fader = (s.strip k.strip).fader ∧ k.mute = (s.strip k.strip).mute ∧ k.pan = (s.strip k.strip).pan)) →
          (s.busTable.panFits (s.strip k.strip).dest k.pan = false →
            exec (.recallStrip p) s = .next (s.leaves p (reply 0x2B .shape
              [BitVec.ofNat 8 k.strip.val, BitVec.ofNat 8 (rest.length + 1)]))) ∧
          (s.busTable.panFits (s.strip k.strip).dest k.pan = true →
            ∃ t, exec (.recallStrip p) s = .next t ∧
              Changed p k.strip
                { s.strip k.strip with fader := k.fader, mute := k.mute, pan := k.pan, inverted := k.inverted }
                (differing (s.strip k.strip) k.fader k.mute k.pan)
                (s.modPort p fun qs => { qs with recallStack := rest }) t ∧
              (if k.fader = (s.strip k.strip).fader ∧ k.mute = (s.strip k.strip).mute ∧
                  k.pan = (s.strip k.strip).pan ∧ k.inverted = (s.strip k.strip).inverted
                then Unreported p s t else Reported p k.strip s t) ∧
              (t.port p).replySlot = reply 0x2B .ok [BitVec.ofNat 8 k.strip.val, BitVec.ofNat 8 rest.length])))

/-- A rise of the presence line attaches a port with its attach values; a fall detaches it: its touches end, each with
the write state, the take record and the retarget of the trigger it was, its claims go, its own state is emptied, and
DETACH is raised at every other attached port. If it holds the pass, the pass is closed and every armed strip turned
OFF; the records it was to take, those of this detach with them, are discarded and counted lost. -/
def Obligations.AttachAndDetachSettleThePort : Prop :=
  ∀ (p : PortId) (s : State),
    ((s.port p).attached = false →
      exec (.attach p) s = .next (s.modPort p fun q =>
        PortState.fresh true (if q.transaction = .idle then .idle else .ignored))) ∧
    ((s.port p).attached = true →
      ∃ t, exec (.detach p) s = .next t ∧
        t.port p = PortState.fresh false (if (s.port p).transaction = .idle then .idle else .ignored) ∧
        (∀ q, q ≠ p → t.port q = { s.port q with pendingSet := (t.port q).pendingSet } ∧
          pendingKept 0x308#12 q s t ∧ raisedWhen 3 q True s t) ∧
        (∀ n, (t.strip n).holder = (if (s.strip n).holder = some p then none else (s.strip n).holder) ∧
          (t.strip n).toucher = (if (s.strip n).toucher = some p then none else (s.strip n).toucher) ∧
          (s.playback.passPort ≠ some p → t.strip n = { s.lifted p n with holder := (t.strip n).holder }) ∧
          (s.playback.passPort = some p →
            t.strip n =
              { s.lifted p n with
                holder := (t.strip n).holder,
                writeState := if s.armed n then .off else (s.strip n).writeState,
                trim :=
                  if s.armed n = true ∧ (s.strip n).mode = .trim ∧ (s.lifted p n).writeState.punched = true then 16384
                  else (s.lifted p n).trim }) ∧
          ∀ c : Channel, (t.cells n)[c] =
            rampedCell (s.setStrip n (s.lifted p n)) t n c (rampedCell s (s.setStrip n (s.lifted p n)) n c (s.cells n)[c])) ∧
        (∀ b, t.bus b = { s.bus b with holder := if (s.bus b).holder = some p then none else (s.bus b).holder }) ∧
        t.busTable = { s.busTable with buses := t.busTable.buses } ∧ t.timeline = s.timeline ∧ t.audio = s.audio ∧
        t.engine = { s.engine with stripCells := t.engine.stripCells } ∧ t.pending = s.pending ∧
        (s.playback.passPort ≠ some p → t.playback = s.playback ∧
          (s.writing.takePort ≠ some p →
            Queued (s.liftRecords p) (s.modPort p fun q => PortState.fresh false q.transaction) t) ∧
          (s.writing.takePort = some p → s.playback.passOpen = false →
            t.writing = { takes := [], takePort := none, lost := min 65535 (s.writing.lost + s.writing.takes.length) })) ∧
        (s.playback.passPort = some p →
          t.playback = { s.playback with passOpen := false, passPort := none, cues := [] } ∧
          t.writing.takes = [] ∧ t.writing.takePort = none ∧
          (s.writing.takePort = some p →
            t.writing.lost = min 65535
              (s.writing.lost + s.writing.takes.length + (s.liftRecords p).length +
                ((List.finRange 160).filter fun n => s.armed n && (s.lifted p n).writeState.punched).length) ∧
            ∀ q, q ≠ p → pendingKept 0x008#12 q s t)))

/-! ### Timeline -/

/-- LINE-CONFIG, LOOP-SET and TIMELINE-CONFIG write their fields of the timeline or are refused, TIMELINE-READ
answers the timeline, and none touches anything else. -/
def Obligations.TimelineRequestsWriteTheirFieldsAlone : Prop :=
  ∀ (p : PortId) (l : Line) (low on : Bool) (filter rate : Byte) (start stop : BitVec 32) (r : FrameRate) (s : State),
    (s.port p).takes = true →
      (∃ t, exec (.lineConfig p (BitVec.ofNat 8 (lineCode l)) (wFlag low) filter) s = .next t ∧
        t.timeline.line l =
          { raw := (s.timeline.line l).raw, activeLow := low, filter := filter.toNat, count := 0,
            filtered := (s.timeline.line l).filtered } ∧
        t.timeline = s.timeline.setLine l (t.timeline.line l) ∧
        t = ({ s with timeline := t.timeline }).leaves p (reply 0x30 .ok
          [BitVec.ofNat 8 (lineCode l), if (s.timeline.line l).raw then 1 else 0, if low then 1 else 0, filter, 0,
            if (s.timeline.line l).filtered then 1 else 0])) ∧
      (2 < filter.toNat →
        exec (.lineConfig p filter (wFlag low) rate) s = .next (s.leaves p (reply 0x30 .range []))) ∧
      (1 < filter.toNat →
        exec (.lineConfig p (BitVec.ofNat 8 (lineCode l)) filter rate) s = .next (s.leaves p (reply 0x30 .range [])) ∧
        exec (.loopSet p start stop filter) s = .next (s.leaves p (reply 0x32 .range []))) ∧
      (start.toNat ≤ 16777215 → stop.toNat ≤ 16777215 → (on = true → start.toNat ≤ stop.toNat) →
        exec (.loopSet p start stop (wFlag on)) s =
          .next ((s.modTimeline fun tl =>
            { tl with loopStart := start.toNat, loopEnd := stop.toNat, loopEnabled := on }).leaves p
              (reply 0x32 .ok (bytes4 start ++ bytes4 stop ++ [if on then 1 else 0])))) ∧
      (16777215 < start.toNat ∨ 16777215 < stop.toNat ∨ (on = true ∧ stop.toNat < start.toNat) →
        exec (.loopSet p start stop (wFlag on)) s = .next (s.leaves p (reply 0x32 .range []))) ∧
      (rate.toNat ≠ 24 → rate.toNat ≠ 25 → rate.toNat ≠ 30 →
        exec (.timelineConfig p rate) s = .next (s.leaves p (reply 0x33 .range []))) ∧
      (rate.toNat = r.fps → s.timeline.roll.filtered = true →
        exec (.timelineConfig p rate) s = .next (s.leaves p (reply 0x33 .rolling []))) ∧
      (rate.toNat = r.fps → s.timeline.roll.filtered = false →
        exec (.timelineConfig p rate) s =
          .next (({ s with timeline := { s.timeline with rate := r, phase := 0 } }).leaves p (reply 0x33 .ok [rate]))) ∧
      exec (.timelineRead p) s = .next (s.leaves p (reply 0x34 .ok (wTimeline s))) ∧ (wTimeline s).length = 39 ∧
      wTimeline s =
        bytes4 (BitVec.ofNat 32 s.timeline.counter) ++ bytes2 (BitVec.ofNat 16 s.timeline.phase) ++
        [BitVec.ofNat 8 (match s.timeline.rate with
            | .fps24 => 24 | .fps25 => 25 | .fps30 => 30),
          if s.audio.rate = .k48 then 48 else 96, if s.timeline.counting then 1 else 0] ++
        bytes2 (BitVec.ofNat 16 s.timeline.settle) ++ [if s.timeline.reverse then 1 else 0] ++
        bytes4 (BitVec.ofNat 32 s.timeline.loopStart) ++ bytes4 (BitVec.ofNat 32 s.timeline.loopEnd) ++
        [if s.timeline.loopEnabled then 1 else 0] ++
        ([(0, s.timeline.roll), (1, s.timeline.rev), (2, s.timeline.punch)] : List (Byte × LineRecord)).flatMap fun e =>
          [e.1, if e.2.raw then 1 else 0, if e.2.activeLow then 1 else 0, BitVec.ofNat 8 e.2.filter,
            BitVec.ofNat 8 e.2.count, if e.2.filtered then 1 else 0]

/-- LOCATE places the counter, resets the phase, starts a settle of two frame periods, flushes the cue queue with
STREAM at the pass port of an open pass, and ends every punch with records that carry the located frame, appended while
the take queue has room and else dropped and counted lost, with the reasons HIGH and LOST that this raises. -/
def Obligations.LocatePlacesTheFrameAndEndsPunches : Prop :=
  ∀ (p : PortId) (frame : BitVec 32) (s : State),
    (s.port p).takes = true →
      (16777215 < frame.toNat → exec (.locate p frame) s = .next (s.leaves p (reply 0x31 .range []))) ∧
      (frame.toNat ≤ 16777215 →
        ∃ t, exec (.locate p frame) s = .next t ∧
          t.timeline = { s.timeline with
            counter := frame.toNat, phase := 0, settle := 2 * framePeriods s.audio.rate s.timeline.rate,
            counting := false } ∧
          t.playback = { s.playback with cues := [] } ∧
          (s.timeline.counting = true → Fallen frame.toNat .locate s t) ∧
          (s.timeline.counting = false →
            t.strips = s.strips ∧ t.writing = s.writing ∧ t.engine = s.engine ∧
            (∀ q, (t.port q).pendingSet =
              if s.playback.passOpen = true ∧ s.playback.passPort = some q ∧ (s.port q).attached = true then
                (s.port q).pendingSet ||| 0x040#12 else (s.port q).pendingSet)) ∧
          (∀ q, pendingKept 0x340#12 q s t ∧
            raisedWhen 6 q (s.playback.passOpen = true ∧ s.playback.passPort = some q) s t) ∧
          t.busTable = s.busTable ∧ t.audio = s.audio ∧
          t.engine = { s.engine with stripCells := t.engine.stripCells } ∧
          t.writing.takePort = s.writing.takePort ∧ t.pending = s.pending ∧ otherPortsRaised p s t ∧
          ownPortKept p s t ∧ (t.port p).replySlot = reply 0x31 .ok (wTimeline t))

/-- At a sample period each line counts the periods that differ from its filtered state and follows after the
filter length; while no filtered state changes, a settle counts down, a rolling phase counts up, and else nothing
moves. At the last period of a settle counting rises with ROLL and punches in the READY WRITE strips, each with its
live fields loaded from the used values and a PUNCH-IN record with port none; SETTLE_END is that period (log 5). -/
def Obligations.SteadyPeriodFiltersSettlesAndCounts : Prop :=
  ∀ (v : LineLevels) (s : State),
    s.timeline.roll.changes v.roll = false → s.timeline.rev.changes v.rev = false →
    s.timeline.punch.changes v.punch = false →
    (s.timeline.settle = 0 → s.timeline.roll.filtered = true →
      s.timeline.phase + 1 < framePeriods s.audio.rate s.timeline.rate) →
    s.timeline.counting = (s.timeline.roll.filtered && s.timeline.settle == 0) →
      ∃ t, exec (.timelineSamplePeriod v) s = .next t ∧
        (∀ (l : Line), t.timeline.line l = { s.timeline.line l with
          raw := levelOf v l,
          count := if (levelOf v l != (s.timeline.line l).activeLow) = (s.timeline.line l).filtered then 0
            else (s.timeline.line l).count + 1 }) ∧
        t.timeline = { s.timeline with
          roll := t.timeline.roll, rev := t.timeline.rev, punch := t.timeline.punch,
          settle := s.timeline.settle - 1,
          phase := if s.timeline.settle = 0 ∧ s.timeline.roll.filtered = true then s.timeline.phase + 1
            else s.timeline.phase,
          counting := decide (s.timeline.settle ≤ 1) && s.timeline.roll.filtered } ∧
        TimelineFrame 0x300#12 s t ∧ t.playback = s.playback ∧
        (¬(s.timeline.settle = 1 ∧ s.timeline.roll.filtered = true) →
          t.strips = s.strips ∧ t.writing = s.writing ∧ t.engine = s.engine ∧ t.ports = s.ports) ∧
        (s.timeline.settle = 1 → s.timeline.roll.filtered = true → Risen s t) ∧
        (s.timeline.settle = 1 → exec (.settleEnd v) s = .next t)

/-- At a frame boundary the counter moves one frame, held at its ends, and the cue queue, whose cues all lie ahead of
the counter as every step keeps them, applies the heads at the new frame, from which cued strips ramp on from their
current values to the targets of their records while every other cell stays; at the loop end of an enabled loop played
forward the boundary is a wrap instead. FRAME_BOUNDARY is that sample period (log 5). -/
def Obligations.BoundaryMovesTheFrameOrWrapsTheLoop : Prop :=
  ∀ (v : LineLevels) (f : Nat) (s : State),
    s.timeline.roll.changes v.roll = false → s.timeline.rev.changes v.rev = false →
    s.timeline.punch.changes v.punch = false → s.timeline.settle = 0 → s.timeline.roll.filtered = true →
    s.timeline.counting = true → framePeriods s.audio.rate s.timeline.rate ≤ s.timeline.phase + 1 →
    (∀ c ∈ s.playback.cues, if s.timeline.reverse then c.frame < s.timeline.counter else s.timeline.counter < c.frame) →
    f = (if s.timeline.reverse then s.timeline.counter - 1
      else if s.timeline.counter < 16777215 then s.timeline.counter + 1 else s.timeline.counter) →
    s.timeline.counter ≤ 16777215 →
      ∃ t, exec (.timelineSamplePeriod v) s = .next t ∧ exec (.frameBoundary v) s = .next t ∧ LinesStepped v s t ∧
        (¬(s.timeline.reverse = false ∧ s.timeline.loopEnabled = true ∧ s.timeline.counter = s.timeline.loopEnd) →
          t.timeline = { s.timeline with
            roll := t.timeline.roll, rev := t.timeline.rev, punch := t.timeline.punch, counter := f, phase := 0 } ∧
          t.playback = { s.playback with cues := s.playback.cues.dropWhile fun c => c.frame = f } ∧
          TimelineFrame 0x080#12 s t ∧
          (∀ m, t.strip m = (s.strip m).cued m (s.playback.cues.takeWhile fun c => c.frame = f)) ∧
          (∀ m, ((s.playback.cues.takeWhile fun c => c.frame = f).countP fun c => c.strip = m) = 0 →
            t.cells m = s.cells m) ∧
          (∀ m, ((s.playback.cues.takeWhile fun c => c.frame = f).countP fun c => c.strip = m) ≤ 1 → Ramped m s t) ∧
          (∀ m (c : Channel),
            ((t.cells m)[c]).current = ((s.cells m)[c]).current ∧
            ((t.cells m)[c] = (s.cells m)[c] ∨
              (t.cells m)[c] =
                { current := ((s.cells m)[c]).current, start := ((s.cells m)[c]).current, target := t.target m c,
                  length := s.engine.rampLength, step := 0 }) ∧
            (((s.cells m)[c]).target = s.target m c → ((t.cells m)[c]).target = t.target m c)) ∧
          t.writing = s.writing ∧
          (∀ q, (t.port q).pendingSet =
            if s.playback.passPort = some q ∧ (s.port q).attached = true ∧
                s.playback.lowMark ≤ s.playback.cues.length ∧ t.playback.cues.length < s.playback.lowMark then
              (s.port q).pendingSet ||| 0x080#12 else (s.port q).pendingSet)) ∧
        (s.timeline.reverse = false → s.timeline.loopEnabled = true → s.timeline.counter = s.timeline.loopEnd →
          t.timeline = { s.timeline with
            roll := t.timeline.roll, rev := t.timeline.rev, punch := t.timeline.punch,
            counter := s.timeline.loopStart, phase := 0,
            settle := 2 * framePeriods s.audio.rate s.timeline.rate, counting := false } ∧
          t.playback = { s.playback with cues := [] } ∧ Fallen s.timeline.loopStart .loop s t ∧
          TimelineFrame 0xB40#12 s t ∧
          ∀ q, raisedWhen 11 q True s t ∧
            raisedWhen 6 q (s.playback.passOpen = true ∧ s.playback.passPort = some q) s t)

/-- The change of a filtered line reaches what depends on it: ROLL starts or stops counting, which punches in the
READY WRITE strips with loaded live fields and PUNCH-IN records of port none, or ends every punch; REV turns the
direction with a locate to the frame held; and PUNCH changes the trigger of the strips whose line punch is on, each
punched in with its loaded live fields, punched out with RELEASE or moved to another write state, in strip number
order. The rest of the timeline goes on as at any sample period. In every period, whichever lines change, the direction
comes first, then ROLL, then the settle, the phase or the frame boundary, and PUNCH last. LINE_CHANGE is that sample
period (log 5). -/
def Obligations.LineChangeReachesCountingDirectionOrTriggers : Prop :=
  ∀ (v : LineLevels) (s : State),
    s.timeline.counting = (s.timeline.roll.filtered && s.timeline.settle == 0) →
      (s.timeline.roll.changes v.roll = true → s.timeline.rev.changes v.rev = false →
        s.timeline.punch.changes v.punch = false → s.timeline.roll.filtered = true → s.timeline.settle = 0 →
        ∃ t, exec (.lineChange .roll v) s = .next t ∧ exec (.timelineSamplePeriod v) s = .next t ∧
          LinesStepped v s t ∧ t.timeline.roll.filtered = false ∧
          t.timeline = { s.timeline with
            roll := t.timeline.roll, rev := t.timeline.rev, punch := t.timeline.punch, counting := false } ∧
          t.playback = s.playback ∧ Fallen s.timeline.counter .rollStop s t ∧ TimelineFrame 0x300#12 s t) ∧
      (s.timeline.roll.changes v.roll = true → s.timeline.rev.changes v.rev = false →
        s.timeline.punch.changes v.punch = false → s.timeline.roll.filtered = false → s.timeline.settle = 0 →
        s.timeline.phase + 1 < framePeriods s.audio.rate s.timeline.rate →
        ∃ t, exec (.lineChange .roll v) s = .next t ∧ exec (.timelineSamplePeriod v) s = .next t ∧
          LinesStepped v s t ∧ t.timeline.roll.filtered = true ∧
          t.timeline = { s.timeline with
            roll := t.timeline.roll, rev := t.timeline.rev, punch := t.timeline.punch, counting := true,
            phase := s.timeline.phase + 1 } ∧
          t.playback = s.playback ∧ Risen s t ∧ TimelineFrame 0x300#12 s t) ∧
      (s.timeline.rev.changes v.rev = true → s.timeline.roll.changes v.roll = false →
        s.timeline.punch.changes v.punch = false →
        ∃ t, exec (.lineChange .rev v) s = .next t ∧ exec (.timelineSamplePeriod v) s = .next t ∧
          LinesStepped v s t ∧ t.timeline.rev.filtered = !s.timeline.rev.filtered ∧
          t.timeline = { s.timeline with
            roll := t.timeline.roll, rev := t.timeline.rev, punch := t.timeline.punch,
            reverse := !s.timeline.rev.filtered, phase := 0, counting := false,
            settle := 2 * framePeriods s.audio.rate s.timeline.rate } ∧
          t.playback = { s.playback with cues := [] } ∧ TimelineFrame 0x340#12 s t ∧
          (s.timeline.counting = true → Fallen s.timeline.counter .direction s t) ∧
          (s.timeline.counting = false →
            t.strips = s.strips ∧ t.writing = s.writing ∧ t.engine = s.engine ∧ TimelineFrame 0x040#12 s t) ∧
          ∀ q, raisedWhen 6 q (s.playback.passOpen = true ∧ s.playback.passPort = some q) s t) ∧
      (s.timeline.punch.changes v.punch = true → s.timeline.roll.changes v.roll = false →
        s.timeline.rev.changes v.rev = false →
        1 < s.timeline.settle ∨
          (s.timeline.settle = 0 ∧ s.timeline.phase + 1 < framePeriods s.audio.rate s.timeline.rate) →
        ∃ t, exec (.lineChange .punch v) s = .next t ∧ exec (.timelineSamplePeriod v) s = .next t ∧
          LinesStepped v s t ∧ t.timeline.punch.filtered = !s.timeline.punch.filtered ∧
          t.timeline = { s.timeline with
            roll := t.timeline.roll, rev := t.timeline.rev, punch := t.timeline.punch,
            settle := s.timeline.settle - 1,
            phase := if s.timeline.settle = 0 ∧ s.timeline.roll.filtered = true then s.timeline.phase + 1
              else s.timeline.phase } ∧
          t.playback = s.playback ∧ Pressed s t ∧ TimelineFrame 0x300#12 s t ∧
          ∀ m,
            (¬(s.armed m = true ∧ (s.strip m).mode.triggered ∧ (s.strip m).linePunch = true ∧
                (s.strip m).toucher = none) → t.strip m = s.strip m ∧ t.cells m = s.cells m) ∧
            (s.armed m = true → (s.strip m).mode.triggered → (s.strip m).linePunch = true →
              (s.strip m).toucher = none →
              (t.strip m).writeState =
                if s.timeline.punch.filtered then afterFall (s.strip m).mode (s.strip m).writeState
                else afterRise s.timeline.counting (s.strip m).writeState)) ∧
      ((∀ c ∈ s.playback.cues,
          if s.timeline.reverse then c.frame < s.timeline.counter else s.timeline.counter < c.frame) →
        s.timeline.counter ≤ 16777215 →
        ∃ a b c t, exec (.timelineSamplePeriod v) s = .next t ∧
          (∀ l, (s.timeline.line l).changes (levelOf v l) = true → exec (.lineChange l v) s = .next t) ∧
          PeriodStages v s a b c t)

/-! ### Playback and writing -/

/-- OPEN-PASS opens a closed pass with an empty take queue, takes both roles, clamps the marks and arms the strips
whose mode writes; CLOSE-PASS by the pass port flushes the cues, ends every punch, turns every armed strip OFF and
closes the pass; each retargets the strips whose used values changed, or is refused. -/
def Obligations.OpenAndClosePassArmAndDisarm : Prop :=
  ∀ (p : PortId) (low high : BitVec 16) (s : State),
    (s.port p).takes = true →
      (s.playback.passOpen = true → exec (.openPass p low high) s = .next (s.leaves p (reply 0x40 .busy []))) ∧
      (s.playback.passOpen = false → s.writing.takes ≠ [] →
        exec (.openPass p low high) s = .next (s.leaves p (reply 0x40 .undrained []))) ∧
      (s.playback.passOpen = false → s.writing.takes = [] →
        ∃ t, exec (.openPass p low high) s = .next t ∧
          t.playback =
            { s.playback with
              passOpen := true, passPort := some p, lowMark := min low.toNat 1024, highMark := min high.toNat 1024,
              stale := 0 } ∧
          t.writing = { takes := [], takePort := some p, lost := 0 } ∧
          (∀ m, t.strip m = { s.strip m with
            writeState :=
              if (s.strip m).mode = .live ∨ (s.strip m).mode = .playback then (s.strip m).writeState
              else if (s.strip m).mode = .write then (if s.timeline.counting then .wait else .ready)
              else if (s.strip m).toucher ≠ none ∨ s.linePunched m then .wait else .ready }) ∧
          (∀ m, Ramped m s t) ∧
          t = { s with
            strips := t.strips, engine := { s.engine with stripCells := t.engine.stripCells },
            playback := t.playback, writing := t.writing, ports := t.ports } ∧
          otherPortsKept p s t ∧ ownPortKept p s t ∧ (t.port p).pendingSet = (s.port p).pendingSet ∧
          (t.port p).replySlot = reply 0x40 .ok
            (bytes2 (BitVec.ofNat 16 (min low.toNat 1024)) ++ bytes2 (BitVec.ofNat 16 (min high.toNat 1024)))) ∧
      (s.playback.passPort ≠ some p → exec (.closePass p) s = .next (s.leaves p (reply 0x41 .notPass []))) ∧
      (s.playback.passPort = some p →
        ∃ t, exec (.closePass p) s = .next t ∧
          t.playback = { s.playback with passOpen := false, passPort := none, cues := [] } ∧
          (∀ m, t.strip m =
            if s.armed m then
              { s.strip m with
                writeState := .off,
                trim := if (s.strip m).mode = .trim ∧ (s.strip m).writeState.punched = true then 16384
                  else (s.strip m).trim }
            else s.strip m) ∧
          t.writing =
            { s.writing.afterRecords (s.punchOuts s.timeline.counter .passClose) with
              takePort := if s.writing.takes ++ s.punchOuts s.timeline.counter .passClose = [] then none
                else s.writing.takePort } ∧
          TakeReasons (s.punchOuts s.timeline.counter .passClose) s t ∧ (∀ q, pendingKept 0x300#12 q s t) ∧
          (∀ m, Ramped m s t) ∧ t.busTable = s.busTable ∧ t.timeline = s.timeline ∧ t.audio = s.audio ∧
          t.engine = { s.engine with stripCells := t.engine.stripCells } ∧ t.pending = s.pending ∧
          otherPortsRaised p s t ∧ ownPortKept p s t ∧ (t.port p).replySlot = reply 0x41 .ok [])

/-- CUE from the pass port: cues ahead of the frame counter and in play order are appended; a cue at the counter's
frame on an empty queue is applied; one behind it is dropped as LATE and counted; and the refusals of R115 and
R116 take nothing. A CUE of several is its cues taken in turn: the first one refused or late ends it with its status,
the ones before it stay taken, and the ones after it are not examined. That more than 53 cues, which no frame holds,
are refused with LENGTH is the model's choice (log 9). -/
def Obligations.CueIsAppendedAppliedDroppedOrRefused : Prop :=
  ∀ (p : PortId) (fields rest : List CueField) (field : CueField) (cues : List Cue) (cue : Cue) (s : State),
    (s.port p).takes = true →
      (fields.length ≤ 53 → s.playback.passPort ≠ some p →
        exec (.cue p fields) s =
          .next (s.leaves p (reply 0x42 .notPass (0 :: bytes2 (BitVec.ofNat 16 s.playback.cues.length))))) ∧
      (fields.length ≤ 53 → s.playback.passPort = some p → ¬(1 ≤ fields.length ∧ fields.length ≤ 16) →
        exec (.cue p fields) s =
          .next (s.leaves p (reply 0x42 .range (0 :: bytes2 (BitVec.ofNat 16 s.playback.cues.length))))) ∧
      (53 < fields.length → exec (.cue p fields) s = .next (s.leaves p (reply 0x42 .length []))) ∧
      (s.playback.passPort = some p → 1 ≤ fields.length → fields.length ≤ 16 →
        fields.map readCue = cues.map (fun c => some { cue := c, shaped := true }) →
        s.playback.cues.length + cues.length ≤ 1024 →
        (∀ c ∈ s.playback.cues ++ cues, if s.timeline.reverse then c.frame < s.timeline.counter
          else s.timeline.counter < c.frame) →
        (s.playback.cues ++ cues).Pairwise (fun c d => if s.timeline.reverse then d.frame ≤ c.frame
          else c.frame ≤ d.frame) →
        exec (.cue p fields) s =
          .next (({ s with playback := { s.playback with cues := s.playback.cues ++ cues } }).leaves p
            (reply 0x42 .ok (BitVec.ofNat 8 cues.length ::
              bytes2 (BitVec.ofNat 16 (s.playback.cues.length + cues.length)))))) ∧
      (s.playback.passPort = some p → fields ≠ [] → rest ≠ [] → fields.length + rest.length ≤ 16 →
        ∃ t u st₁ st₂ k₁ k₂, exec (.cue p fields) s = .next t ∧ exec (.cue p rest) t = .next u ∧
          (t.port p).replySlot = reply 0x42 st₁ (k₁ :: bytes2 (BitVec.ofNat 16 t.playback.cues.length)) ∧
          (u.port p).replySlot = reply 0x42 st₂ (k₂ :: bytes2 (BitVec.ofNat 16 u.playback.cues.length)) ∧
          exec (.cue p (fields ++ rest)) s =
            .next (if st₁ = .ok then
              u.leaves p (reply 0x42 st₂ ((k₁ + k₂) :: bytes2 (BitVec.ofNat 16 u.playback.cues.length)))
            else t)) ∧
      (s.playback.passPort = some p → readCue field = none →
        exec (.cue p [field]) s =
          .next (s.leaves p (reply 0x42 .range (0 :: bytes2 (BitVec.ofNat 16 s.playback.cues.length))))) ∧
      (∀ shaped, s.playback.passPort = some p → readCue field = some { cue, shaped } →
        (∀ last, s.playback.cues.getLast? = some last →
          (if s.timeline.reverse then last.frame < cue.frame else cue.frame < last.frame) →
          exec (.cue p [field]) s =
            .next (s.leaves p (reply 0x42 .order (0 :: bytes2 (BitVec.ofNat 16 s.playback.cues.length))))) ∧
        (s.playback.cues = [] →
          (if s.timeline.reverse then s.timeline.counter < cue.frame else cue.frame < s.timeline.counter) →
          exec (.cue p [field]) s =
            .next (({ s with playback := { s.playback with stale := min 65535 (s.playback.stale + 1) } }).leaves p
              (reply 0x42 .late [0, 0, 0]))) ∧
        ((∀ last, s.playback.cues.getLast? = some last →
            ¬(if s.timeline.reverse then last.frame < cue.frame else cue.frame < last.frame)) →
          (s.playback.cues = [] →
            ¬(if s.timeline.reverse then s.timeline.counter < cue.frame else cue.frame < s.timeline.counter)) →
          shaped = false →
          exec (.cue p [field]) s =
            .next (s.leaves p (reply 0x42 .shape (0 :: bytes2 (BitVec.ofNat 16 s.playback.cues.length))))) ∧
        (s.playback.cues = [] → cue.frame = s.timeline.counter → shaped = true →
          ∃ t, exec (.cue p [field]) s = .next t ∧
            t.strip cue.strip = (s.strip cue.strip).cued cue.strip [cue] ∧ Ramped cue.strip s t ∧
            OnlyStrip p cue.strip s t ∧ t.writing = s.writing ∧ otherPortsKept p s t ∧
            (t.port p).pendingSet = (s.port p).pendingSet ∧ (t.port p).replySlot = reply 0x42 .ok [1, 0, 0]) ∧
        (1024 ≤ s.playback.cues.length → shaped = true →
          (∀ last, s.playback.cues.getLast? = some last →
            ¬(if s.timeline.reverse then last.frame < cue.frame else cue.frame < last.frame)) →
          exec (.cue p [field]) s =
            .next (s.leaves p (reply 0x42 .full (0 :: bytes2 (BitVec.ofNat 16 s.playback.cues.length))))))

/-- TAKE removes and answers the oldest records and ends the take role when it empties the queue of a closed pass,
or is refused; PASS-READ answers the pass in 25 bytes and changes nothing. -/
def Obligations.TakeRemovesTheOldestRecords : Prop :=
  ∀ (p : PortId) (count : Byte) (s : State),
    (s.port p).takes = true →
      (s.writing.takePort ≠ some p → exec (.take p count) s = .next (s.leaves p (reply 0x44 .notPass []))) ∧
      (s.writing.takePort = some p → ¬(1 ≤ count.toNat ∧ count.toNat ≤ 16) →
        exec (.take p count) s = .next (s.leaves p (reply 0x44 .range []))) ∧
      (s.writing.takePort = some p → 1 ≤ count.toNat → count.toNat ≤ 16 → s.writing.takes = [] →
        exec (.take p count) s = .next (s.leaves p (reply 0x44 .empty []))) ∧
      (s.writing.takePort = some p → 1 ≤ count.toNat → count.toNat ≤ 16 → s.writing.takes ≠ [] →
        exec (.take p count) s =
          .next (({ s with
            writing.takes := s.writing.takes.drop count.toNat,
            writing.takePort := if s.playback.passOpen = false ∧ s.writing.takes.length ≤ count.toNat then none
              else some p }).leaves p
            (reply 0x44 .ok (BitVec.ofNat 8 (min count.toNat s.writing.takes.length) ::
              (bytes2 (BitVec.ofNat 16 (s.writing.takes.length - count.toNat)) ++
                (s.writing.takes.take count.toNat).flatMap wTake))))) ∧
      (wPass s).length = 25 ∧
      exec (.passRead p) s = .next (s.leaves p (reply 0x43 .ok
        ([if s.playback.passOpen then 1 else 0, wPort s.playback.passPort, wPort s.writing.takePort] ++
          [s.playback.cues.length, s.writing.takes.length, s.playback.lowMark, s.playback.highMark, s.playback.stale,
            s.writing.lost].flatMap (fun k => bytes2 (BitVec.ofNat 16 k)) ++
          (match s.playback.cues.head?, s.playback.cues.getLast? with
            | some head, some tail =>
              1 :: bytes4 (BitVec.ofNat 32 head.frame) ++ 1 :: bytes4 (BitVec.ofNat 32 tail.frame)
            | _, _ => List.replicate 10 0))))

/-! ### Patch, lanes and sync -/

/-- PATCH-SET writes a run of entries or none, PATCH-READ answers a run with the entries' numbers, LANE-READ
answers the lanes in 22 bytes; neither read changes anything. That more than 254 entries, which no frame holds, are
refused with LENGTH is the model's choice (log 9). -/
def Obligations.PatchAndLaneRequestsAnswerTheirRuns : Prop :=
  ∀ (p : PortId) (first count : Byte) (fields : List PatchField) (entries : List PatchEntry) (s : State),
    (s.port p).takes = true →
      (1 ≤ fields.length → fields.length ≤ 16 → first.toNat + fields.length ≤ 128 →
        fields.map readPatch = entries.map some →
        ∃ t, exec (.patchSet p first fields) s = .next t ∧
          (∀ i : Fin 128, t.audio.patch[i] =
            if first.toNat ≤ i.val then (entries[i.val - first.toNat]?).getD s.audio.patch[i] else s.audio.patch[i]) ∧
          t = ({ s with audio := { s.audio with patch := t.audio.patch } }).leaves p ((t.port p).replySlot) ∧
          (t.port p).replySlot = reply 0x50 .ok (wPatches t.audio.patch first.toNat entries.length)) ∧
      (fields.length ≤ 254 →
        ¬(1 ≤ fields.length ∧ fields.length ≤ 16 ∧ first.toNat + fields.length ≤ 128) ∨ (∃ e ∈ fields, readPatch e = none) →
        exec (.patchSet p first fields) s = .next (s.leaves p (reply 0x50 .range []))) ∧
      (254 < fields.length → exec (.patchSet p first fields) s = .next (s.leaves p (reply 0x50 .length []))) ∧
      (1 ≤ count.toNat → count.toNat ≤ 16 → first.toNat + count.toNat ≤ 128 →
        exec (.patchRead p first count) s = .next (s.leaves p (reply 0x51 .ok
          (count :: ((List.finRange 128).filter fun i =>
              first.toNat ≤ i.val && i.val < first.toNat + count.toNat).flatMap fun i =>
            BitVec.ofNat 8 i.val :: wPatch s.audio.patch[i])))) ∧
      (¬(1 ≤ count.toNat ∧ count.toNat ≤ 16 ∧ first.toNat + count.toNat ≤ 128) →
        exec (.patchRead p first count) s = .next (s.leaves p (reply 0x51 .range []))) ∧
      exec (.laneRead p) s = .next (s.leaves p (reply 0x52 .ok
        ([if s.audio.rate = .k48 then 48 else 96, if s.audio.locked then 1 else 0, BitVec.ofNat 8 s.audio.lockCount,
            BitVec.ofNat 8 s.audio.missing] ++
          s.audio.lanes.toList.flatMap (fun l => [if l.up then 1 else 0, BitVec.ofNat 8 l.markers]) ++
          [if s.audio.locked then 0 else 1, if ∃ l : LaneNo, s.audio.lanes[l].up = false then 1 else 0]))) ∧
      (wLanes s.audio).length = 22

/-- The sync monitor counts good periods to 256 to lock, ignores an early edge, follows an edge inside the window,
counts missing edges, and at the fourth goes FREE with every lane DOWN and SAFE raised. The model's choices are these:
SYNC_LOCK and SYNC_LOSS are the edge or missing edge itself (log 5); spacings are whole numbers of units of which 64,000
make a period at 48 kHz (log 10); an edge only starts the measurement where none is held to measure from (log 11); an
edge later than the window is ignored while LOCKED (log 12); a sample period starts by clearing the flag that the engine
has taken it, which is all that SAMPLE_PERIOD_REFERENCE does (log 14). -/
def Obligations.SyncMonitorLocksFollowsAndLoses : Prop :=
  ∀ (d : Nat) (good : Bool) (a : Audio) (s : State),
    a = { s.audio with engineTaken := false } →
    (good = true ↔ 31 * (if s.audio.rate = .k48 then 64000 else 32000) ≤ 32 * d ∧
      32 * d ≤ 33 * (if s.audio.rate = .k48 then 64000 else 32000)) →
      (s.audio.locked = false → exec .samplePeriodReference s = .next { s with audio := a }) ∧
      (s.audio.locked = true → good = true → exec (.wclkEdge d) s = .next { s with audio := { a with missing := 0 } }) ∧
      (s.audio.locked = true → good = false → exec (.wclkEdge d) s = .next s) ∧
      (s.audio.locked = false → s.audio.measuring = false →
        exec (.wclkEdge d) s = .next { s with audio := { s.audio with measuring := true } }) ∧
      (s.audio.locked = false → s.audio.measuring = true → good = false →
        exec (.wclkEdge d) s = .next { s with audio := { s.audio with lockCount := 0 } }) ∧
      (s.audio.locked = false → s.audio.measuring = true → good = true → s.audio.lockCount + 1 < 256 →
        exec (.wclkEdge d) s = .next { s with audio := { s.audio with lockCount := s.audio.lockCount + 1 } }) ∧
      (s.audio.locked = false → s.audio.measuring = true → good = true → 256 ≤ s.audio.lockCount + 1 →
        exec (.wclkEdge d) s =
          .next { s with audio := { a with locked := true, lockCount := 0, missing := 0, measuring := false } } ∧
        exec .syncLock s =
          .next { s with audio := { a with locked := true, lockCount := 0, missing := 0, measuring := false } }) ∧
      (s.audio.locked = false →
        exec .wclkTimeout s = .next { s with audio := { s.audio with lockCount := 0, measuring := false } }) ∧
      (s.audio.locked = true → s.audio.missing + 1 < 4 →
        exec .missingEdge s = .next { s with audio := { a with missing := s.audio.missing + 1 } }) ∧
      (s.audio.locked = true → 4 ≤ s.audio.missing + 1 →
        ∃ t, exec .missingEdge s = .next t ∧ exec .syncLoss s = .next t ∧
          t.audio.locked = false ∧ t.audio.lockCount = 0 ∧ t.audio.missing = 0 ∧
          (∀ l : LaneNo, t.audio.lanes[l].up = false ∧ t.audio.lanes[l].markers = 0 ∧
            ∀ k : SlotNo, (t.audio.lanes[l]).slots[k] = 0) ∧
          t = { s with
            ports := t.ports,
            audio := { a with locked := false, lockCount := 0, missing := 0, measuring := false, lanes := t.audio.lanes } } ∧
          ∀ q, t.port q = { s.port q with
            pendingSet := if (s.port q).attached then (s.port q).pendingSet ||| 0x020#12 else (s.port q).pendingSet })

/-- An UP lane takes a good frame's slots and goes DOWN at a missing marker, raising SAFE when it is the first to
fall; a DOWN lane counts good markers under a LOCKED monitor and comes UP with the sixteenth. That
LANE_UP is this frame, and that absent slots hold 0, are the model's choices (logs 5 and 23). -/
def Obligations.LanesComeUpAfterSixteenMarkersAndFallAtOneMissing : Prop :=
  ∀ (l : LaneNo) (good : Bool) (slots : Vector LaneSample 16) (s : State),
    ∃ t, exec (.laneFrame l good slots) s = .next t ∧
      (∀ i : LaneNo, i ≠ l → t.audio.lanes[i] = s.audio.lanes[i]) ∧
      t = { s with ports := t.ports, audio := { s.audio with lanes := t.audio.lanes } } ∧
      (s.audio.lanes[l].up = true → good = true →
        t.audio.lanes[l].up = true ∧ t.audio.lanes[l].markers = s.audio.lanes[l].markers ∧
        ∀ k : SlotNo, (t.audio.lanes[l]).slots[k] = if s.audio.rate = .k48 ∨ k.val < 8 then slots[k].toInt else 0) ∧
      (s.audio.lanes[l].up = true → good = false →
        t.audio.lanes[l].up = false ∧ t.audio.lanes[l].markers = 0 ∧ ∀ k : SlotNo, (t.audio.lanes[l]).slots[k] = 0) ∧
      (s.audio.lanes[l].up = false → s.audio.locked = false → t.audio.lanes[l] = s.audio.lanes[l]) ∧
      (s.audio.lanes[l].up = false → s.audio.locked = true → good = false →
        t.audio.lanes[l] = { s.audio.lanes[l] with markers := 0 }) ∧
      (s.audio.lanes[l].up = false → s.audio.locked = true → good = true → s.audio.lanes[l].markers + 1 < 16 →
        t.audio.lanes[l] = { s.audio.lanes[l] with markers := s.audio.lanes[l].markers + 1 }) ∧
      (s.audio.lanes[l].up = false → s.audio.locked = true → good = true → 16 ≤ s.audio.lanes[l].markers + 1 →
        t.audio.lanes[l].up = true ∧ t.audio.lanes[l].markers = 0 ∧
        (∀ k : SlotNo, (t.audio.lanes[l]).slots[k] = if s.audio.rate = .k48 ∨ k.val < 8 then slots[k].toInt else 0) ∧
        exec (.laneUp l slots) s = .next t) ∧
      ∀ q, t.port q = { s.port q with
        pendingSet :=
          if (s.port q).attached = true ∧ s.audio.lanes[l].up = true ∧ good = false ∧
              (∀ i : LaneNo, s.audio.lanes[i].up = true) then (s.port q).pendingSet ||| 0x020#12
          else (s.port q).pendingSet }

/-! ### A port's own requests -/

/-- NULL leaves no reply; STATUS, ENABLE, CLEAR, WINDOW-SET and WINDOW-READ read and write the requester's own
sets, count and windows and nothing else, and ATTN follows the reasons both pending and enabled. -/
def Obligations.PortRequestsTouchTheRequesterAlone : Prop :=
  ∀ (p : PortId) (set : BitVec 16) (w : Fin 4) (on view : Bool) (first last window base bad : Byte) (b : StripNo) (s : State),
    (s.port p).takes = true → ((s.port p).transaction = .opened → (s.port p).replySlot = none) →
      exec (.null p) s = .next (s.leaves p none) ∧
      exec (.status p) s = .next (s.leaves p (reply 0x60 .ok
        (bytes2 ((s.port p).pendingSet.setWidth 16) ++ bytes2 ((s.port p).enableSet.setWidth 16) ++
          [BitVec.ofNat 8 (s.port p).refusals]))) ∧
      exec (.enable p set) s =
        .next ((s.modPort p fun q => { q with enableSet := set.setWidth 12 }).leaves p (reply 0x61 .ok
          (bytes2 ((s.port p).pendingSet.setWidth 16) ++ bytes2 ((set.setWidth 12).setWidth 16)))) ∧
      exec (.clear p set) s =
        .next ((s.modPort p fun q =>
          { q with
            pendingSet := q.pendingSet &&& ~~~(set.setWidth 12),
            refusals := if set.getLsbD 10 then 0 else q.refusals }).leaves p (reply 0x62 .ok
              (bytes2 (((s.port p).pendingSet &&& ~~~(set.setWidth 12)).setWidth 16) ++
                [BitVec.ofNat 8 (if set.getLsbD 10 then 0 else (s.port p).refusals)]))) ∧
      (3 < window.toNat ∨ 159 < base.toNat ∨ (on = true ∧ last.toNat < first.toNat) →
        exec (.windowSet p window (wFlag on) first last base (wFlag view)) s = .next (s.leaves p (reply 0x63 .range []))) ∧
      (1 < bad.toNat →
        exec (.windowSet p window bad first last base (wFlag view)) s = .next (s.leaves p (reply 0x63 .range [])) ∧
        exec (.windowSet p window (wFlag on) first last base bad) s = .next (s.leaves p (reply 0x63 .range []))) ∧
      (window.toNat = w.val → base.toNat = b.val → (on = true → first.toNat ≤ last.toNat) →
        ∃ t, exec (.windowSet p window (wFlag on) first last base (wFlag view)) s = .next t ∧
          t = (s.modPort p fun q =>
            { q with
              windows := q.windows.set w
                { enabled := on, first := first.toNat, last := last.toNat, base := b, viewOnly := view } }).leaves p
              (reply 0x63 .ok (wWindows (t.port p)))) ∧
      exec (.windowRead p) s = .next (s.leaves p (reply 0x64 .ok (wWindows (s.port p)))) ∧
      (wWindows (s.port p)).length = 24 ∧
      (∀ t, exec (.enable p set) s = .next t →
        (t.attn p = true ↔ ∃ i : Fin 12, (t.port p).pendingSet.getLsbD i.val = true ∧ (t.port p).enableSet.getLsbD i.val = true))

end
end

