-- ==== Sys2Proof/Laws/State.lean ====
section
/-!
SUPPORT. One lemma per field of State for every named update of it, each true by definition, so that no proof
unfolds a record update. The readers `strip`, `cells`, `bus` and `port` have one where the field they read stays.
-/
namespace Sys2Proof.Machine

@[simp] theorem modStrip_strips (s : State) (n : StripNo) (f : Strip → Strip) :
    (s.modStrip n f).strips = upd s.strips n f := rfl
@[simp] theorem modStrip_engine (s : State) (n : StripNo) (f : Strip → Strip) :
    (s.modStrip n f).engine = s.engine := rfl
@[simp] theorem modStrip_busTable (s : State) (n : StripNo) (f : Strip → Strip) :
    (s.modStrip n f).busTable = s.busTable := rfl
@[simp] theorem modStrip_ports (s : State) (n : StripNo) (f : Strip → Strip) : (s.modStrip n f).ports = s.ports := rfl
@[simp] theorem modStrip_timeline (s : State) (n : StripNo) (f : Strip → Strip) :
    (s.modStrip n f).timeline = s.timeline := rfl
@[simp] theorem modStrip_playback (s : State) (n : StripNo) (f : Strip → Strip) :
    (s.modStrip n f).playback = s.playback := rfl
@[simp] theorem modStrip_writing (s : State) (n : StripNo) (f : Strip → Strip) :
    (s.modStrip n f).writing = s.writing := rfl
@[simp] theorem modStrip_audio (s : State) (n : StripNo) (f : Strip → Strip) : (s.modStrip n f).audio = s.audio := rfl
@[simp] theorem modStrip_pending (s : State) (n : StripNo) (f : Strip → Strip) :
    (s.modStrip n f).pending = s.pending := rfl
@[simp] theorem modStrip_cells (s : State) (n : StripNo) (f : Strip → Strip) (m : StripNo) :
    (s.modStrip n f).cells m = s.cells m := rfl
@[simp] theorem modStrip_bus (s : State) (n : StripNo) (f : Strip → Strip) (a : BusNo) :
    (s.modStrip n f).bus a = s.bus a := rfl
@[simp] theorem modStrip_port (s : State) (n : StripNo) (f : Strip → Strip) (q : PortId) :
    (s.modStrip n f).port q = s.port q := rfl

@[simp] theorem setStrip_strips (s : State) (n : StripNo) (r : Strip) :
    (s.setStrip n r).strips = upd s.strips n fun _ => r := rfl
@[simp] theorem setStrip_engine (s : State) (n : StripNo) (r : Strip) : (s.setStrip n r).engine = s.engine := rfl
@[simp] theorem setStrip_busTable (s : State) (n : StripNo) (r : Strip) :
    (s.setStrip n r).busTable = s.busTable := rfl
@[simp] theorem setStrip_ports (s : State) (n : StripNo) (r : Strip) : (s.setStrip n r).ports = s.ports := rfl
@[simp] theorem setStrip_timeline (s : State) (n : StripNo) (r : Strip) :
    (s.setStrip n r).timeline = s.timeline := rfl
@[simp] theorem setStrip_playback (s : State) (n : StripNo) (r : Strip) :
    (s.setStrip n r).playback = s.playback := rfl
@[simp] theorem setStrip_writing (s : State) (n : StripNo) (r : Strip) : (s.setStrip n r).writing = s.writing := rfl
@[simp] theorem setStrip_audio (s : State) (n : StripNo) (r : Strip) : (s.setStrip n r).audio = s.audio := rfl
@[simp] theorem setStrip_pending (s : State) (n : StripNo) (r : Strip) : (s.setStrip n r).pending = s.pending := rfl
@[simp] theorem setStrip_cells (s : State) (n : StripNo) (r : Strip) (m : StripNo) :
    (s.setStrip n r).cells m = s.cells m := rfl
@[simp] theorem setStrip_bus (s : State) (n : StripNo) (r : Strip) (a : BusNo) :
    (s.setStrip n r).bus a = s.bus a := rfl
@[simp] theorem setStrip_port (s : State) (n : StripNo) (r : Strip) (q : PortId) :
    (s.setStrip n r).port q = s.port q := rfl

@[simp] theorem modBus_strips (s : State) (b : BusNo) (f : Bus → Bus) : (s.modBus b f).strips = s.strips := rfl
@[simp] theorem modBus_engine (s : State) (b : BusNo) (f : Bus → Bus) : (s.modBus b f).engine = s.engine := rfl
@[simp] theorem modBus_busTable (s : State) (b : BusNo) (f : Bus → Bus) :
    (s.modBus b f).busTable = { s.busTable with buses := upd s.busTable.buses b f } := rfl
@[simp] theorem modBus_ports (s : State) (b : BusNo) (f : Bus → Bus) : (s.modBus b f).ports = s.ports := rfl
@[simp] theorem modBus_timeline (s : State) (b : BusNo) (f : Bus → Bus) : (s.modBus b f).timeline = s.timeline := rfl
@[simp] theorem modBus_playback (s : State) (b : BusNo) (f : Bus → Bus) : (s.modBus b f).playback = s.playback := rfl
@[simp] theorem modBus_writing (s : State) (b : BusNo) (f : Bus → Bus) : (s.modBus b f).writing = s.writing := rfl
@[simp] theorem modBus_audio (s : State) (b : BusNo) (f : Bus → Bus) : (s.modBus b f).audio = s.audio := rfl
@[simp] theorem modBus_pending (s : State) (b : BusNo) (f : Bus → Bus) : (s.modBus b f).pending = s.pending := rfl
@[simp] theorem modBus_strip (s : State) (b : BusNo) (f : Bus → Bus) (m : StripNo) :
    (s.modBus b f).strip m = s.strip m := rfl
@[simp] theorem modBus_cells (s : State) (b : BusNo) (f : Bus → Bus) (m : StripNo) :
    (s.modBus b f).cells m = s.cells m := rfl
@[simp] theorem modBus_port (s : State) (b : BusNo) (f : Bus → Bus) (q : PortId) :
    (s.modBus b f).port q = s.port q := rfl

@[simp] theorem modPort_strips (s : State) (p : PortId) (f : PortState → PortState) :
    (s.modPort p f).strips = s.strips := rfl
@[simp] theorem modPort_engine (s : State) (p : PortId) (f : PortState → PortState) :
    (s.modPort p f).engine = s.engine := rfl
@[simp] theorem modPort_busTable (s : State) (p : PortId) (f : PortState → PortState) :
    (s.modPort p f).busTable = s.busTable := rfl
@[simp] theorem modPort_ports (s : State) (p : PortId) (f : PortState → PortState) :
    (s.modPort p f).ports = upd s.ports p f := rfl
@[simp] theorem modPort_timeline (s : State) (p : PortId) (f : PortState → PortState) :
    (s.modPort p f).timeline = s.timeline := rfl
@[simp] theorem modPort_playback (s : State) (p : PortId) (f : PortState → PortState) :
    (s.modPort p f).playback = s.playback := rfl
@[simp] theorem modPort_writing (s : State) (p : PortId) (f : PortState → PortState) :
    (s.modPort p f).writing = s.writing := rfl
@[simp] theorem modPort_audio (s : State) (p : PortId) (f : PortState → PortState) :
    (s.modPort p f).audio = s.audio := rfl
@[simp] theorem modPort_pending (s : State) (p : PortId) (f : PortState → PortState) :
    (s.modPort p f).pending = s.pending := rfl
@[simp] theorem modPort_strip (s : State) (p : PortId) (f : PortState → PortState) (m : StripNo) :
    (s.modPort p f).strip m = s.strip m := rfl
@[simp] theorem modPort_cells (s : State) (p : PortId) (f : PortState → PortState) (m : StripNo) :
    (s.modPort p f).cells m = s.cells m := rfl
@[simp] theorem modPort_bus (s : State) (p : PortId) (f : PortState → PortState) (a : BusNo) :
    (s.modPort p f).bus a = s.bus a := rfl

@[simp] theorem mapPorts_strips (s : State) (f : PortId → PortState → PortState) :
    (s.mapPorts f).strips = s.strips := rfl
@[simp] theorem mapPorts_engine (s : State) (f : PortId → PortState → PortState) :
    (s.mapPorts f).engine = s.engine := rfl
@[simp] theorem mapPorts_busTable (s : State) (f : PortId → PortState → PortState) :
    (s.mapPorts f).busTable = s.busTable := rfl
@[simp] theorem mapPorts_ports (s : State) (f : PortId → PortState → PortState) :
    (s.mapPorts f).ports = Vector.ofFn fun p => f p s.ports[p] := rfl
@[simp] theorem mapPorts_timeline (s : State) (f : PortId → PortState → PortState) :
    (s.mapPorts f).timeline = s.timeline := rfl
@[simp] theorem mapPorts_playback (s : State) (f : PortId → PortState → PortState) :
    (s.mapPorts f).playback = s.playback := rfl
@[simp] theorem mapPorts_writing (s : State) (f : PortId → PortState → PortState) :
    (s.mapPorts f).writing = s.writing := rfl
@[simp] theorem mapPorts_audio (s : State) (f : PortId → PortState → PortState) :
    (s.mapPorts f).audio = s.audio := rfl
@[simp] theorem mapPorts_pending (s : State) (f : PortId → PortState → PortState) :
    (s.mapPorts f).pending = s.pending := rfl
@[simp] theorem mapPorts_strip (s : State) (f : PortId → PortState → PortState) (m : StripNo) :
    (s.mapPorts f).strip m = s.strip m := rfl
@[simp] theorem mapPorts_cells (s : State) (f : PortId → PortState → PortState) (m : StripNo) :
    (s.mapPorts f).cells m = s.cells m := rfl
@[simp] theorem mapPorts_bus (s : State) (f : PortId → PortState → PortState) (a : BusNo) :
    (s.mapPorts f).bus a = s.bus a := rfl

@[simp] theorem modCells_strips (s : State) (n : StripNo) (f : Channel → Cell → Cell) :
    (s.modCells n f).strips = s.strips := rfl
@[simp] theorem modCells_engine (s : State) (n : StripNo) (f : Channel → Cell → Cell) :
    (s.modCells n f).engine = { s.engine with stripCells := upd s.engine.stripCells n fun v => Vector.ofFn fun c => f c v[c] } := rfl
@[simp] theorem modCells_busTable (s : State) (n : StripNo) (f : Channel → Cell → Cell) :
    (s.modCells n f).busTable = s.busTable := rfl
@[simp] theorem modCells_ports (s : State) (n : StripNo) (f : Channel → Cell → Cell) :
    (s.modCells n f).ports = s.ports := rfl
@[simp] theorem modCells_timeline (s : State) (n : StripNo) (f : Channel → Cell → Cell) :
    (s.modCells n f).timeline = s.timeline := rfl
@[simp] theorem modCells_playback (s : State) (n : StripNo) (f : Channel → Cell → Cell) :
    (s.modCells n f).playback = s.playback := rfl
@[simp] theorem modCells_writing (s : State) (n : StripNo) (f : Channel → Cell → Cell) :
    (s.modCells n f).writing = s.writing := rfl
@[simp] theorem modCells_audio (s : State) (n : StripNo) (f : Channel → Cell → Cell) :
    (s.modCells n f).audio = s.audio := rfl
@[simp] theorem modCells_pending (s : State) (n : StripNo) (f : Channel → Cell → Cell) :
    (s.modCells n f).pending = s.pending := rfl
@[simp] theorem modCells_strip (s : State) (n : StripNo) (f : Channel → Cell → Cell) (m : StripNo) :
    (s.modCells n f).strip m = s.strip m := rfl
@[simp] theorem modCells_bus (s : State) (n : StripNo) (f : Channel → Cell → Cell) (a : BusNo) :
    (s.modCells n f).bus a = s.bus a := rfl
@[simp] theorem modCells_port (s : State) (n : StripNo) (f : Channel → Cell → Cell) (q : PortId) :
    (s.modCells n f).port q = s.port q := rfl

@[simp] theorem modTimeline_strips (s : State) (f : Timeline → Timeline) : (s.modTimeline f).strips = s.strips := rfl
@[simp] theorem modTimeline_engine (s : State) (f : Timeline → Timeline) : (s.modTimeline f).engine = s.engine := rfl
@[simp] theorem modTimeline_busTable (s : State) (f : Timeline → Timeline) :
    (s.modTimeline f).busTable = s.busTable := rfl
@[simp] theorem modTimeline_ports (s : State) (f : Timeline → Timeline) : (s.modTimeline f).ports = s.ports := rfl
@[simp] theorem modTimeline_timeline (s : State) (f : Timeline → Timeline) :
    (s.modTimeline f).timeline = f s.timeline := rfl
@[simp] theorem modTimeline_playback (s : State) (f : Timeline → Timeline) :
    (s.modTimeline f).playback = s.playback := rfl
@[simp] theorem modTimeline_writing (s : State) (f : Timeline → Timeline) :
    (s.modTimeline f).writing = s.writing := rfl
@[simp] theorem modTimeline_audio (s : State) (f : Timeline → Timeline) : (s.modTimeline f).audio = s.audio := rfl
@[simp] theorem modTimeline_pending (s : State) (f : Timeline → Timeline) :
    (s.modTimeline f).pending = s.pending := rfl
@[simp] theorem modTimeline_strip (s : State) (f : Timeline → Timeline) (m : StripNo) :
    (s.modTimeline f).strip m = s.strip m := rfl
@[simp] theorem modTimeline_cells (s : State) (f : Timeline → Timeline) (m : StripNo) :
    (s.modTimeline f).cells m = s.cells m := rfl
@[simp] theorem modTimeline_bus (s : State) (f : Timeline → Timeline) (a : BusNo) :
    (s.modTimeline f).bus a = s.bus a := rfl
@[simp] theorem modTimeline_port (s : State) (f : Timeline → Timeline) (q : PortId) :
    (s.modTimeline f).port q = s.port q := rfl

@[simp] theorem withCues_strips (s : State) (l : List Cue) : (s.withCues l).strips = s.strips := rfl
@[simp] theorem withCues_engine (s : State) (l : List Cue) : (s.withCues l).engine = s.engine := rfl
@[simp] theorem withCues_busTable (s : State) (l : List Cue) : (s.withCues l).busTable = s.busTable := rfl
@[simp] theorem withCues_ports (s : State) (l : List Cue) : (s.withCues l).ports = s.ports := rfl
@[simp] theorem withCues_timeline (s : State) (l : List Cue) : (s.withCues l).timeline = s.timeline := rfl
@[simp] theorem withCues_playback (s : State) (l : List Cue) :
    (s.withCues l).playback = { s.playback with cues := l } := rfl
@[simp] theorem withCues_writing (s : State) (l : List Cue) : (s.withCues l).writing = s.writing := rfl
@[simp] theorem withCues_audio (s : State) (l : List Cue) : (s.withCues l).audio = s.audio := rfl
@[simp] theorem withCues_pending (s : State) (l : List Cue) : (s.withCues l).pending = s.pending := rfl
@[simp] theorem withCues_strip (s : State) (l : List Cue) (m : StripNo) : (s.withCues l).strip m = s.strip m := rfl
@[simp] theorem withCues_cells (s : State) (l : List Cue) (m : StripNo) : (s.withCues l).cells m = s.cells m := rfl
@[simp] theorem withCues_bus (s : State) (l : List Cue) (a : BusNo) : (s.withCues l).bus a = s.bus a := rfl
@[simp] theorem withCues_port (s : State) (l : List Cue) (q : PortId) : (s.withCues l).port q = s.port q := rfl

@[simp] theorem countStale_strips (s : State) : (countStale s).strips = s.strips := rfl
@[simp] theorem countStale_engine (s : State) : (countStale s).engine = s.engine := rfl
@[simp] theorem countStale_busTable (s : State) : (countStale s).busTable = s.busTable := rfl
@[simp] theorem countStale_ports (s : State) : (countStale s).ports = s.ports := rfl
@[simp] theorem countStale_timeline (s : State) : (countStale s).timeline = s.timeline := rfl
@[simp] theorem countStale_playback (s : State) :
    (countStale s).playback = { s.playback with stale := min 65535 (s.playback.stale + 1) } := rfl
@[simp] theorem countStale_writing (s : State) : (countStale s).writing = s.writing := rfl
@[simp] theorem countStale_audio (s : State) : (countStale s).audio = s.audio := rfl
@[simp] theorem countStale_pending (s : State) : (countStale s).pending = s.pending := rfl
@[simp] theorem countStale_strip (s : State) (m : StripNo) : (countStale s).strip m = s.strip m := rfl
@[simp] theorem countStale_cells (s : State) (m : StripNo) : (countStale s).cells m = s.cells m := rfl
@[simp] theorem countStale_bus (s : State) (a : BusNo) : (countStale s).bus a = s.bus a := rfl
@[simp] theorem countStale_port (s : State) (q : PortId) : (countStale s).port q = s.port q := rfl

@[simp] theorem setWriteState_strips (n : StripNo) (w : WriteState) (s : State) :
    (setWriteState n w s).strips = upd s.strips n fun r => { r with writeState := w } := rfl
@[simp] theorem setWriteState_engine (n : StripNo) (w : WriteState) (s : State) :
    (setWriteState n w s).engine = s.engine := rfl
@[simp] theorem setWriteState_busTable (n : StripNo) (w : WriteState) (s : State) :
    (setWriteState n w s).busTable = s.busTable := rfl
@[simp] theorem setWriteState_ports (n : StripNo) (w : WriteState) (s : State) :
    (setWriteState n w s).ports = s.ports := rfl
@[simp] theorem setWriteState_timeline (n : StripNo) (w : WriteState) (s : State) :
    (setWriteState n w s).timeline = s.timeline := rfl
@[simp] theorem setWriteState_playback (n : StripNo) (w : WriteState) (s : State) :
    (setWriteState n w s).playback = s.playback := rfl
@[simp] theorem setWriteState_writing (n : StripNo) (w : WriteState) (s : State) :
    (setWriteState n w s).writing = s.writing := rfl
@[simp] theorem setWriteState_audio (n : StripNo) (w : WriteState) (s : State) :
    (setWriteState n w s).audio = s.audio := rfl
@[simp] theorem setWriteState_pending (n : StripNo) (w : WriteState) (s : State) :
    (setWriteState n w s).pending = s.pending := rfl
@[simp] theorem setWriteState_cells (n : StripNo) (w : WriteState) (s : State) (m : StripNo) :
    (setWriteState n w s).cells m = s.cells m := rfl
@[simp] theorem setWriteState_bus (n : StripNo) (w : WriteState) (s : State) (a : BusNo) :
    (setWriteState n w s).bus a = s.bus a := rfl
@[simp] theorem setWriteState_port (n : StripNo) (w : WriteState) (s : State) (q : PortId) :
    (setWriteState n w s).port q = s.port q := rfl

@[simp] theorem answer_strips (p : PortId) (code : Byte) (st : Status) (l : List Byte) (s : State) :
    (answer p code st l s).strips = s.strips := rfl
@[simp] theorem answer_engine (p : PortId) (code : Byte) (st : Status) (l : List Byte) (s : State) :
    (answer p code st l s).engine = s.engine := rfl
@[simp] theorem answer_busTable (p : PortId) (code : Byte) (st : Status) (l : List Byte) (s : State) :
    (answer p code st l s).busTable = s.busTable := rfl
@[simp] theorem answer_ports (p : PortId) (code : Byte) (st : Status) (l : List Byte) (s : State) :
    (answer p code st l s).ports = upd s.ports p fun q => { q with replySlot := some { status := st, code := code, payload := l } } := rfl
@[simp] theorem answer_timeline (p : PortId) (code : Byte) (st : Status) (l : List Byte) (s : State) :
    (answer p code st l s).timeline = s.timeline := rfl
@[simp] theorem answer_playback (p : PortId) (code : Byte) (st : Status) (l : List Byte) (s : State) :
    (answer p code st l s).playback = s.playback := rfl
@[simp] theorem answer_writing (p : PortId) (code : Byte) (st : Status) (l : List Byte) (s : State) :
    (answer p code st l s).writing = s.writing := rfl
@[simp] theorem answer_audio (p : PortId) (code : Byte) (st : Status) (l : List Byte) (s : State) :
    (answer p code st l s).audio = s.audio := rfl
@[simp] theorem answer_pending (p : PortId) (code : Byte) (st : Status) (l : List Byte) (s : State) :
    (answer p code st l s).pending = s.pending := rfl
@[simp] theorem answer_strip (p : PortId) (code : Byte) (st : Status) (l : List Byte) (s : State) (m : StripNo) :
    (answer p code st l s).strip m = s.strip m := rfl
@[simp] theorem answer_cells (p : PortId) (code : Byte) (st : Status) (l : List Byte) (s : State) (m : StripNo) :
    (answer p code st l s).cells m = s.cells m := rfl
@[simp] theorem answer_bus (p : PortId) (code : Byte) (st : Status) (l : List Byte) (s : State) (a : BusNo) :
    (answer p code st l s).bus a = s.bus a := rfl

@[simp] theorem raiseAt_strips (r : Reason) (p : PortId) (s : State) : (raiseAt r p s).strips = s.strips := rfl
@[simp] theorem raiseAt_engine (r : Reason) (p : PortId) (s : State) : (raiseAt r p s).engine = s.engine := rfl
@[simp] theorem raiseAt_busTable (r : Reason) (p : PortId) (s : State) : (raiseAt r p s).busTable = s.busTable := rfl
@[simp] theorem raiseAt_ports (r : Reason) (p : PortId) (s : State) :
    (raiseAt r p s).ports = upd s.ports p (PortState.raised r) := rfl
@[simp] theorem raiseAt_timeline (r : Reason) (p : PortId) (s : State) : (raiseAt r p s).timeline = s.timeline := rfl
@[simp] theorem raiseAt_playback (r : Reason) (p : PortId) (s : State) : (raiseAt r p s).playback = s.playback := rfl
@[simp] theorem raiseAt_writing (r : Reason) (p : PortId) (s : State) : (raiseAt r p s).writing = s.writing := rfl
@[simp] theorem raiseAt_audio (r : Reason) (p : PortId) (s : State) : (raiseAt r p s).audio = s.audio := rfl
@[simp] theorem raiseAt_pending (r : Reason) (p : PortId) (s : State) : (raiseAt r p s).pending = s.pending := rfl
@[simp] theorem raiseAt_strip (r : Reason) (p : PortId) (s : State) (m : StripNo) :
    (raiseAt r p s).strip m = s.strip m := rfl
@[simp] theorem raiseAt_cells (r : Reason) (p : PortId) (s : State) (m : StripNo) :
    (raiseAt r p s).cells m = s.cells m := rfl
@[simp] theorem raiseAt_bus (r : Reason) (p : PortId) (s : State) (a : BusNo) : (raiseAt r p s).bus a = s.bus a := rfl

@[simp] theorem raiseEverywhere_strips (r : Reason) (s : State) : (raiseEverywhere r s).strips = s.strips := rfl
@[simp] theorem raiseEverywhere_engine (r : Reason) (s : State) : (raiseEverywhere r s).engine = s.engine := rfl
@[simp] theorem raiseEverywhere_busTable (r : Reason) (s : State) : (raiseEverywhere r s).busTable = s.busTable := rfl
@[simp] theorem raiseEverywhere_ports (r : Reason) (s : State) :
    (raiseEverywhere r s).ports = Vector.ofFn fun p => PortState.raised r s.ports[p] := rfl
@[simp] theorem raiseEverywhere_timeline (r : Reason) (s : State) : (raiseEverywhere r s).timeline = s.timeline := rfl
@[simp] theorem raiseEverywhere_playback (r : Reason) (s : State) : (raiseEverywhere r s).playback = s.playback := rfl
@[simp] theorem raiseEverywhere_writing (r : Reason) (s : State) : (raiseEverywhere r s).writing = s.writing := rfl
@[simp] theorem raiseEverywhere_audio (r : Reason) (s : State) : (raiseEverywhere r s).audio = s.audio := rfl
@[simp] theorem raiseEverywhere_pending (r : Reason) (s : State) : (raiseEverywhere r s).pending = s.pending := rfl
@[simp] theorem raiseEverywhere_strip (r : Reason) (s : State) (m : StripNo) :
    (raiseEverywhere r s).strip m = s.strip m := rfl
@[simp] theorem raiseEverywhere_cells (r : Reason) (s : State) (m : StripNo) :
    (raiseEverywhere r s).cells m = s.cells m := rfl
@[simp] theorem raiseEverywhere_bus (r : Reason) (s : State) (a : BusNo) :
    (raiseEverywhere r s).bus a = s.bus a := rfl

@[simp] theorem raiseElsewhere_strips (r : Reason) (p : PortId) (s : State) :
    (raiseElsewhere r p s).strips = s.strips := rfl
@[simp] theorem raiseElsewhere_engine (r : Reason) (p : PortId) (s : State) :
    (raiseElsewhere r p s).engine = s.engine := rfl
@[simp] theorem raiseElsewhere_busTable (r : Reason) (p : PortId) (s : State) :
    (raiseElsewhere r p s).busTable = s.busTable := rfl
@[simp] theorem raiseElsewhere_ports (r : Reason) (p : PortId) (s : State) :
    (raiseElsewhere r p s).ports = Vector.ofFn fun q => if q = p then s.ports[q] else PortState.raised r s.ports[q] := rfl
@[simp] theorem raiseElsewhere_timeline (r : Reason) (p : PortId) (s : State) :
    (raiseElsewhere r p s).timeline = s.timeline := rfl
@[simp] theorem raiseElsewhere_playback (r : Reason) (p : PortId) (s : State) :
    (raiseElsewhere r p s).playback = s.playback := rfl
@[simp] theorem raiseElsewhere_writing (r : Reason) (p : PortId) (s : State) :
    (raiseElsewhere r p s).writing = s.writing := rfl
@[simp] theorem raiseElsewhere_audio (r : Reason) (p : PortId) (s : State) :
    (raiseElsewhere r p s).audio = s.audio := rfl
@[simp] theorem raiseElsewhere_pending (r : Reason) (p : PortId) (s : State) :
    (raiseElsewhere r p s).pending = s.pending := rfl
@[simp] theorem raiseElsewhere_strip (r : Reason) (p : PortId) (s : State) (m : StripNo) :
    (raiseElsewhere r p s).strip m = s.strip m := rfl
@[simp] theorem raiseElsewhere_cells (r : Reason) (p : PortId) (s : State) (m : StripNo) :
    (raiseElsewhere r p s).cells m = s.cells m := rfl
@[simp] theorem raiseElsewhere_bus (r : Reason) (p : PortId) (s : State) (a : BusNo) :
    (raiseElsewhere r p s).bus a = s.bus a := rfl

@[simp] theorem report_strips (p : PortId) (n : StripNo) (s : State) : (report p n s).strips = s.strips := rfl
@[simp] theorem report_engine (p : PortId) (n : StripNo) (s : State) : (report p n s).engine = s.engine := rfl
@[simp] theorem report_busTable (p : PortId) (n : StripNo) (s : State) : (report p n s).busTable = s.busTable := rfl
@[simp] theorem report_ports (p : PortId) (n : StripNo) (s : State) :
    (report p n s).ports = Vector.ofFn fun q => if q = p then s.ports[q] else PortState.reported p n s.ports[q] := rfl
@[simp] theorem report_timeline (p : PortId) (n : StripNo) (s : State) : (report p n s).timeline = s.timeline := rfl
@[simp] theorem report_playback (p : PortId) (n : StripNo) (s : State) : (report p n s).playback = s.playback := rfl
@[simp] theorem report_writing (p : PortId) (n : StripNo) (s : State) : (report p n s).writing = s.writing := rfl
@[simp] theorem report_audio (p : PortId) (n : StripNo) (s : State) : (report p n s).audio = s.audio := rfl
@[simp] theorem report_pending (p : PortId) (n : StripNo) (s : State) : (report p n s).pending = s.pending := rfl
@[simp] theorem report_strip (p : PortId) (n : StripNo) (s : State) (m : StripNo) :
    (report p n s).strip m = s.strip m := rfl
@[simp] theorem report_cells (p : PortId) (n : StripNo) (s : State) (m : StripNo) :
    (report p n s).cells m = s.cells m := rfl
@[simp] theorem report_bus (p : PortId) (n : StripNo) (s : State) (a : BusNo) : (report p n s).bus a = s.bus a := rfl

@[simp] theorem setWatches_strips (p : PortId) (l : List Watch) (s : State) :
    (setWatches p l s).strips = s.strips := rfl
@[simp] theorem setWatches_engine (p : PortId) (l : List Watch) (s : State) :
    (setWatches p l s).engine = s.engine := rfl
@[simp] theorem setWatches_busTable (p : PortId) (l : List Watch) (s : State) :
    (setWatches p l s).busTable = s.busTable := rfl
@[simp] theorem setWatches_ports (p : PortId) (l : List Watch) (s : State) :
    (setWatches p l s).ports = upd s.ports p fun q => { q with watches := l } := rfl
@[simp] theorem setWatches_timeline (p : PortId) (l : List Watch) (s : State) :
    (setWatches p l s).timeline = s.timeline := rfl
@[simp] theorem setWatches_playback (p : PortId) (l : List Watch) (s : State) :
    (setWatches p l s).playback = s.playback := rfl
@[simp] theorem setWatches_writing (p : PortId) (l : List Watch) (s : State) :
    (setWatches p l s).writing = s.writing := rfl
@[simp] theorem setWatches_audio (p : PortId) (l : List Watch) (s : State) : (setWatches p l s).audio = s.audio := rfl
@[simp] theorem setWatches_pending (p : PortId) (l : List Watch) (s : State) :
    (setWatches p l s).pending = s.pending := rfl
@[simp] theorem setWatches_strip (p : PortId) (l : List Watch) (s : State) (m : StripNo) :
    (setWatches p l s).strip m = s.strip m := rfl
@[simp] theorem setWatches_cells (p : PortId) (l : List Watch) (s : State) (m : StripNo) :
    (setWatches p l s).cells m = s.cells m := rfl
@[simp] theorem setWatches_bus (p : PortId) (l : List Watch) (s : State) (a : BusNo) :
    (setWatches p l s).bus a = s.bus a := rfl

@[simp] theorem setRecall_strips (p : PortId) (l : List Snapshot) (s : State) :
    (setRecall p l s).strips = s.strips := rfl
@[simp] theorem setRecall_engine (p : PortId) (l : List Snapshot) (s : State) :
    (setRecall p l s).engine = s.engine := rfl
@[simp] theorem setRecall_busTable (p : PortId) (l : List Snapshot) (s : State) :
    (setRecall p l s).busTable = s.busTable := rfl
@[simp] theorem setRecall_ports (p : PortId) (l : List Snapshot) (s : State) :
    (setRecall p l s).ports = upd s.ports p fun q => { q with recallStack := l } := rfl
@[simp] theorem setRecall_timeline (p : PortId) (l : List Snapshot) (s : State) :
    (setRecall p l s).timeline = s.timeline := rfl
@[simp] theorem setRecall_playback (p : PortId) (l : List Snapshot) (s : State) :
    (setRecall p l s).playback = s.playback := rfl
@[simp] theorem setRecall_writing (p : PortId) (l : List Snapshot) (s : State) :
    (setRecall p l s).writing = s.writing := rfl
@[simp] theorem setRecall_audio (p : PortId) (l : List Snapshot) (s : State) :
    (setRecall p l s).audio = s.audio := rfl
@[simp] theorem setRecall_pending (p : PortId) (l : List Snapshot) (s : State) :
    (setRecall p l s).pending = s.pending := rfl
@[simp] theorem setRecall_strip (p : PortId) (l : List Snapshot) (s : State) (m : StripNo) :
    (setRecall p l s).strip m = s.strip m := rfl
@[simp] theorem setRecall_cells (p : PortId) (l : List Snapshot) (s : State) (m : StripNo) :
    (setRecall p l s).cells m = s.cells m := rfl
@[simp] theorem setRecall_bus (p : PortId) (l : List Snapshot) (s : State) (a : BusNo) :
    (setRecall p l s).bus a = s.bus a := rfl

@[simp] theorem countRefusal_strips (p : PortId) (s : State) : (countRefusal p s).strips = s.strips := rfl
@[simp] theorem countRefusal_engine (p : PortId) (s : State) : (countRefusal p s).engine = s.engine := rfl
@[simp] theorem countRefusal_busTable (p : PortId) (s : State) : (countRefusal p s).busTable = s.busTable := rfl
@[simp] theorem countRefusal_ports (p : PortId) (s : State) :
    (countRefusal p s).ports = upd s.ports p fun q => PortState.raised .refused { q with refusals := min 255 (q.refusals + 1) } := rfl
@[simp] theorem countRefusal_timeline (p : PortId) (s : State) : (countRefusal p s).timeline = s.timeline := rfl
@[simp] theorem countRefusal_playback (p : PortId) (s : State) : (countRefusal p s).playback = s.playback := rfl
@[simp] theorem countRefusal_writing (p : PortId) (s : State) : (countRefusal p s).writing = s.writing := rfl
@[simp] theorem countRefusal_audio (p : PortId) (s : State) : (countRefusal p s).audio = s.audio := rfl
@[simp] theorem countRefusal_pending (p : PortId) (s : State) : (countRefusal p s).pending = s.pending := rfl
@[simp] theorem countRefusal_strip (p : PortId) (s : State) (m : StripNo) :
    (countRefusal p s).strip m = s.strip m := rfl
@[simp] theorem countRefusal_cells (p : PortId) (s : State) (m : StripNo) :
    (countRefusal p s).cells m = s.cells m := rfl
@[simp] theorem countRefusal_bus (p : PortId) (s : State) (a : BusNo) : (countRefusal p s).bus a = s.bus a := rfl

@[simp] theorem retargetStrip_strips (n : StripNo) (s : State) : (retargetStrip n s).strips = s.strips := rfl
@[simp] theorem retargetStrip_engine (n : StripNo) (s : State) :
    (retargetStrip n s).engine = { s.engine with stripCells := upd s.engine.stripCells n fun v => Vector.ofFn fun c => Cell.retarget s.engine.rampLength (s.target n c) v[c] } := rfl
@[simp] theorem retargetStrip_busTable (n : StripNo) (s : State) : (retargetStrip n s).busTable = s.busTable := rfl
@[simp] theorem retargetStrip_ports (n : StripNo) (s : State) : (retargetStrip n s).ports = s.ports := rfl
@[simp] theorem retargetStrip_timeline (n : StripNo) (s : State) : (retargetStrip n s).timeline = s.timeline := rfl
@[simp] theorem retargetStrip_playback (n : StripNo) (s : State) : (retargetStrip n s).playback = s.playback := rfl
@[simp] theorem retargetStrip_writing (n : StripNo) (s : State) : (retargetStrip n s).writing = s.writing := rfl
@[simp] theorem retargetStrip_audio (n : StripNo) (s : State) : (retargetStrip n s).audio = s.audio := rfl
@[simp] theorem retargetStrip_pending (n : StripNo) (s : State) : (retargetStrip n s).pending = s.pending := rfl
@[simp] theorem retargetStrip_strip (n : StripNo) (s : State) (m : StripNo) :
    (retargetStrip n s).strip m = s.strip m := rfl
@[simp] theorem retargetStrip_bus (n : StripNo) (s : State) (a : BusNo) : (retargetStrip n s).bus a = s.bus a := rfl
@[simp] theorem retargetStrip_port (n : StripNo) (s : State) (q : PortId) :
    (retargetStrip n s).port q = s.port q := rfl

@[simp] theorem cutStrip_strips (n : StripNo) (cells : Vector Cell 12) (s : State) :
    (cutStrip n cells s).strips = s.strips := rfl
@[simp] theorem cutStrip_engine (n : StripNo) (cells : Vector Cell 12) (s : State) :
    (cutStrip n cells s).engine = { s.engine with stripCells := upd s.engine.stripCells n fun _ => Vector.ofFn fun c => Cell.cut (s.target n c) cells[c] } := rfl
@[simp] theorem cutStrip_busTable (n : StripNo) (cells : Vector Cell 12) (s : State) :
    (cutStrip n cells s).busTable = s.busTable := rfl
@[simp] theorem cutStrip_ports (n : StripNo) (cells : Vector Cell 12) (s : State) :
    (cutStrip n cells s).ports = s.ports := rfl
@[simp] theorem cutStrip_timeline (n : StripNo) (cells : Vector Cell 12) (s : State) :
    (cutStrip n cells s).timeline = s.timeline := rfl
@[simp] theorem cutStrip_playback (n : StripNo) (cells : Vector Cell 12) (s : State) :
    (cutStrip n cells s).playback = s.playback := rfl
@[simp] theorem cutStrip_writing (n : StripNo) (cells : Vector Cell 12) (s : State) :
    (cutStrip n cells s).writing = s.writing := rfl
@[simp] theorem cutStrip_audio (n : StripNo) (cells : Vector Cell 12) (s : State) :
    (cutStrip n cells s).audio = s.audio := rfl
@[simp] theorem cutStrip_pending (n : StripNo) (cells : Vector Cell 12) (s : State) :
    (cutStrip n cells s).pending = s.pending := rfl
@[simp] theorem cutStrip_strip (n : StripNo) (cells : Vector Cell 12) (s : State) (m : StripNo) :
    (cutStrip n cells s).strip m = s.strip m := rfl
@[simp] theorem cutStrip_bus (n : StripNo) (cells : Vector Cell 12) (s : State) (a : BusNo) :
    (cutStrip n cells s).bus a = s.bus a := rfl
@[simp] theorem cutStrip_port (n : StripNo) (cells : Vector Cell 12) (s : State) (q : PortId) :
    (cutStrip n cells s).port q = s.port q := rfl

@[simp] theorem retargetGain_strips (b : BusNo) (s : State) : (retargetGain b s).strips = s.strips := rfl
@[simp] theorem retargetGain_engine (b : BusNo) (s : State) :
    (retargetGain b s).engine = { s.engine with gainCells := upd s.engine.gainCells b (Cell.retarget s.engine.rampLength (s.bus b).gainTarget) } := rfl
@[simp] theorem retargetGain_busTable (b : BusNo) (s : State) : (retargetGain b s).busTable = s.busTable := rfl
@[simp] theorem retargetGain_ports (b : BusNo) (s : State) : (retargetGain b s).ports = s.ports := rfl
@[simp] theorem retargetGain_timeline (b : BusNo) (s : State) : (retargetGain b s).timeline = s.timeline := rfl
@[simp] theorem retargetGain_playback (b : BusNo) (s : State) : (retargetGain b s).playback = s.playback := rfl
@[simp] theorem retargetGain_writing (b : BusNo) (s : State) : (retargetGain b s).writing = s.writing := rfl
@[simp] theorem retargetGain_audio (b : BusNo) (s : State) : (retargetGain b s).audio = s.audio := rfl
@[simp] theorem retargetGain_pending (b : BusNo) (s : State) : (retargetGain b s).pending = s.pending := rfl
@[simp] theorem retargetGain_strip (b : BusNo) (s : State) (m : StripNo) :
    (retargetGain b s).strip m = s.strip m := rfl
@[simp] theorem retargetGain_bus (b : BusNo) (s : State) (a : BusNo) : (retargetGain b s).bus a = s.bus a := rfl
@[simp] theorem retargetGain_port (b : BusNo) (s : State) (q : PortId) : (retargetGain b s).port q = s.port q := rfl

@[simp] theorem discardTakes_strips (s : State) : (discardTakes s).strips = s.strips := rfl
@[simp] theorem discardTakes_engine (s : State) : (discardTakes s).engine = s.engine := rfl
@[simp] theorem discardTakes_busTable (s : State) : (discardTakes s).busTable = s.busTable := rfl
@[simp] theorem discardTakes_ports (s : State) : (discardTakes s).ports = s.ports := rfl
@[simp] theorem discardTakes_timeline (s : State) : (discardTakes s).timeline = s.timeline := rfl
@[simp] theorem discardTakes_playback (s : State) : (discardTakes s).playback = s.playback := rfl
@[simp] theorem discardTakes_writing (s : State) :
    (discardTakes s).writing = { takes := [], takePort := none, lost := min 65535 (s.writing.lost + s.writing.takes.length) } := rfl
@[simp] theorem discardTakes_audio (s : State) : (discardTakes s).audio = s.audio := rfl
@[simp] theorem discardTakes_pending (s : State) : (discardTakes s).pending = s.pending := rfl
@[simp] theorem discardTakes_strip (s : State) (m : StripNo) : (discardTakes s).strip m = s.strip m := rfl
@[simp] theorem discardTakes_cells (s : State) (m : StripNo) : (discardTakes s).cells m = s.cells m := rfl
@[simp] theorem discardTakes_bus (s : State) (a : BusNo) : (discardTakes s).bus a = s.bus a := rfl
@[simp] theorem discardTakes_port (s : State) (q : PortId) : (discardTakes s).port q = s.port q := rfl

end Sys2Proof.Machine
end

