-- ==== Sys2Proof/Laws/Ops.lean ====
section
/-!
SUPPORT. What the named operations of Machine/Ops.lean do: reading after writing a strip, a bus, a port or a
cell, raising reasons, walking the strips, taking a request, and the checks of a request.
-/
namespace Sys2Proof.Machine

/-! ### Reading after writing -/

theorem upd_get {α : Type} {n : Nat} (v : Vector α n) (i j : Fin n) (f : α → α) :
    (upd v i f)[j] = if i = j then f v[j] else v[j] := by
  simp only [upd, Fin.getElem_fin, Vector.getElem_set]
  by_cases h : i = j
  · subst h; simp
  · have : i.val ≠ j.val := fun e => h (Fin.ext e)
    simp [h, this]

/-- The same at a number, which is the form `simp` brings a read to. -/
theorem upd_getElem {α : Type} {n : Nat} (v : Vector α n) (i : Fin n) (k : Nat) (hk : k < n) (f : α → α) :
    (upd v i f)[k] = if i.val = k then f v[k] else v[k] := by
  have h := upd_get v i ⟨k, hk⟩ f
  simpa [Fin.ext_iff] using h

@[simp] theorem upd_getElem_self {α : Type} {n : Nat} (v : Vector α n) (i : Fin n) (f : α → α) :
    (upd v i f)[i.val] = f v[i.val] := by simp [upd_getElem]

theorem strip_modStrip (s : State) (n m : StripNo) (f : Strip → Strip) :
    (s.modStrip n f).strip m = if n = m then f (s.strip m) else s.strip m := upd_get ..

@[simp] theorem strip_modStrip_self (s : State) (n : StripNo) (f : Strip → Strip) :
    (s.modStrip n f).strip n = f (s.strip n) := by simp [strip_modStrip]

@[simp] theorem strip_modStrip_ne (s : State) {n m : StripNo} (f : Strip → Strip) (h : m ≠ n) :
    (s.modStrip n f).strip m = s.strip m := by simp [strip_modStrip, Ne.symm h]

@[simp] theorem strip_setStrip_self (s : State) (n : StripNo) (r : Strip) : (s.setStrip n r).strip n = r :=
  strip_modStrip_self s n fun _ => r

@[simp] theorem strip_setStrip_ne (s : State) {n m : StripNo} (r : Strip) (h : m ≠ n) :
    (s.setStrip n r).strip m = s.strip m := strip_modStrip_ne s _ h

theorem bus_modBus (s : State) (b a : BusNo) (f : Bus → Bus) :
    (s.modBus b f).bus a = if b = a then f (s.bus a) else s.bus a := upd_get ..

theorem port_modPort (s : State) (p q : PortId) (f : PortState → PortState) :
    (s.modPort p f).port q = if p = q then f (s.port q) else s.port q := upd_get ..

@[simp] theorem port_modPort_self (s : State) (p : PortId) (f : PortState → PortState) :
    (s.modPort p f).port p = f (s.port p) := by simp [port_modPort]

@[simp] theorem port_modPort_ne (s : State) {p q : PortId} (f : PortState → PortState) (h : q ≠ p) :
    (s.modPort p f).port q = s.port q := by simp [port_modPort, Ne.symm h]

@[simp] theorem port_mapPorts (s : State) (f : PortId → PortState → PortState) (q : PortId) :
    (s.mapPorts f).port q = f q (s.port q) := by simp [State.port, State.mapPorts]

theorem cells_modCells_vector (s : State) (n m : StripNo) (f : Channel → Cell → Cell) :
    (s.modCells n f).cells m = if n = m then Vector.ofFn fun c => f c (s.cells m)[c] else s.cells m :=
  upd_get s.engine.stripCells n m fun v => Vector.ofFn fun c => f c v[c]

/-- Cell `c` of strip `m` after the cells of strip `n` change. -/
theorem cells_modCells (s : State) (n m : StripNo) (f : Channel → Cell → Cell) (c : Channel) :
    ((s.modCells n f).cells m)[c] = if n = m then f c (s.cells m)[c] else (s.cells m)[c] := by
  rw [cells_modCells_vector]
  split <;> simp

/-- Two writes of one port are one write. -/
theorem modPort_modPort (s : State) (p : PortId) (f g : PortState → PortState) :
    (s.modPort p f).modPort p g = s.modPort p fun q => g (f q) := by
  have : upd (upd s.ports p f) p g = upd s.ports p fun q => g (f q) := by
    simp [upd]
  simp [State.modPort, this]

theorem modPort_id (s : State) (p : PortId) : s.modPort p id = s := by
  simp [State.modPort, upd]

/-! ### Walking the strips -/

/-- What every strip's turn keeps, the walk keeps. -/
theorem eachStrip_keeps {P : State → Prop} {f : StripNo → State → State} (h : ∀ n t, P t → P (f n t)) {s : State}
    (hs : P s) : P (eachStrip f s) := by
  unfold eachStrip
  generalize List.finRange 160 = l
  induction l generalizing s with
  | nil => exact hs
  | cons n rest ih => exact ih (h n s hs)

theorem foldl_stays {α : Type} {f : StripNo → State → State} {g : State → α} {P : State → Prop}
    (keeps : ∀ m t, P t → P (f m t)) {n : StripNo} (other : ∀ m t, m ≠ n → P t → g (f m t) = g t) :
    ∀ (l : List StripNo) (s : State), n ∉ l → P s →
      P (l.foldl (fun t m => f m t) s) ∧ g (l.foldl (fun t m => f m t) s) = g s
  | [], _, _, hs => ⟨hs, rfl⟩
  | m :: rest, s, hn, hs => by
    have hm : m ≠ n := fun e => hn (by simp [e])
    obtain ⟨hp, hg⟩ := foldl_stays keeps other rest (f m s) (fun h => hn (by simp [h])) (keeps m s hs)
    exact ⟨hp, hg.trans (other m s hm hs)⟩

/-- A part `g` of the state that only strip `n`'s own turn changes is, after the walk, as that turn left it in some
state that agrees with the first in `g` and keeps `P`. -/
theorem eachStrip_at {α : Type} {f : StripNo → State → State} {g : State → α} {P : State → Prop}
    (keeps : ∀ m t, P t → P (f m t)) {n : StripNo} (other : ∀ m t, m ≠ n → P t → g (f m t) = g t) {s : State}
    (hs : P s) : ∃ t, P t ∧ g t = g s ∧ g (eachStrip f s) = g (f n t) := by
  obtain ⟨a, b, hab⟩ := List.append_of_mem (List.mem_finRange n)
  have hnd : (a ++ n :: b).Nodup := hab ▸ List.nodup_finRange 160
  have ha : n ∉ a := fun h => by
    have := (List.nodup_append.mp hnd).2.2 n h n (by simp)
    exact this rfl
  have hb : n ∉ b := (List.nodup_cons.mp (List.nodup_append.mp hnd).2.1).1
  obtain ⟨hp, hg⟩ := foldl_stays keeps other a s ha hs
  refine ⟨a.foldl (fun t m => f m t) s, hp, hg, ?_⟩
  have hb' := foldl_stays keeps other b (f n (a.foldl (fun t m => f m t) s)) hb (keeps n _ hp)
  unfold eachStrip
  rw [hab, List.foldl_append, List.foldl_cons]
  exact hb'.2

/-! ### Reasons -/

@[simp] theorem raised_attached (r : Reason) (q : PortState) : (q.raised r).attached = q.attached := by
  unfold PortState.raised; split <;> rfl

/-- All that a raising does to a port. -/
theorem raised_eq (r : Reason) (q : PortState) :
    q.raised r =
      { q with pendingSet := if q.attached then q.pendingSet ||| r.set else q.pendingSet } := by
  unfold PortState.raised; split <;> rfl

theorem raiseAtRole_cases (r : Reason) (o : Option PortId) (s : State) :
    (o = none ∧ raiseAtRole r o s = s) ∨ ∃ p, o = some p ∧ raiseAtRole r o s = raiseAt r p s := by
  cases o with
  | none => exact .inl ⟨rfl, rfl⟩
  | some p => exact .inr ⟨p, rfl, rfl⟩

/-- A raising at a role changes ports alone. -/
theorem raiseAtRole_eq (r : Reason) (o : Option PortId) (s : State) :
    raiseAtRole r o s = { s with ports := (raiseAtRole r o s).ports } := by cases o <;> rfl

theorem raiseAtRole_port (r : Reason) (o : Option PortId) (s : State) (q : PortId) :
    (raiseAtRole r o s).port q = if o = some q then (s.port q).raised r else s.port q := by
  cases o with
  | none => simp [raiseAtRole]
  | some p => simp [raiseAtRole, raiseAt, port_modPort]

/-! ### Requests -/

/-- The port after a transaction that carries a request and is taken. -/
theorem transacted_taken {q : PortState} (h : q.takes = true) :
    q.transacted =
      { q with
        transaction := .idle, shiftOut := [],
        replySlot := if q.transaction = .idle then none else q.replySlot } := by
  obtain ⟨ha, ht⟩ : q.attached = true ∧ q.transaction ≠ .ignored := by simpa [PortState.takes] using h
  cases hq : q.transaction <;> simp_all [PortState.transacted, PortState.selRises, PortState.selFalls]

/-- The port after a transaction that is ignored. -/
theorem transacted_ignored {q : PortState} (h : q.takes = false) :
    q.transacted = { q with transaction := .idle, shiftOut := [] } := by
  cases ha : q.attached <;> cases hq : q.transaction <;>
    simp_all [PortState.takes, PortState.transacted, PortState.selRises, PortState.selFalls]

/-- A transaction in progress shifts out one bit for every bit clocked: those of its reply, then 0 (R163). -/
theorem sdo_opened {s : State} {p : PortId} (h : (s.port p).transaction = .opened) (clocks : Nat) :
    s.sdo p clocks =
      (List.range clocks).map fun i => ((s.port p).shiftOut.getD (i / 8) 0).getLsbD (7 - i % 8) := by
  simp only [State.sdo, PortState.outByte, h, Option.map_some]
  exact List.filterMap_eq_map (f := fun i => ((s.port p).shiftOut.getD (i / 8) 0).getLsbD (7 - i % 8)) ▸ rfl

/-- Without a transaction in progress nothing is shifted out (R163). -/
theorem sdo_not_opened {s : State} {p : PortId} (h : (s.port p).transaction ≠ .opened) (clocks : Nat) :
    s.sdo p clocks = [] := by
  have : ∀ k, (s.port p).outByte k = none := by
    intro k; unfold PortState.outByte; cases e : (s.port p).transaction <;> simp_all
  simp [State.sdo, this]

/-- A request that is taken runs its effect on the state with SEL fallen. -/
theorem request_taken {p : PortId} {s : State} (h : (s.port p).takes = true) (f : State → State) :
    request p f s = .next (f (s.modPort p PortState.transacted)) := by simp [request, h]

/-- A request that is not taken leaves the fall of SEL alone. -/
theorem request_ignored {p : PortId} {s : State} (h : (s.port p).takes = false) (f : State → State) :
    request p f s = .next (s.modPort p PortState.transacted) := by simp [request, h]

/-- A request always answers a next state, and keeps the queue where its effect does. -/
theorem request_next (p : PortId) (f : State → State) (hf : ∀ t, (f t).pending = t.pending) (s : State) :
    ∃ t, request p f s = .next t ∧ t.pending = s.pending := by
  unfold request
  refine ⟨_, rfl, ?_⟩
  split
  · simp [hf]
  · rfl

/-! ### Checks -/

theorem firstFailure_none {l : List (Option Status)} : firstFailure l = none ↔ ∀ o ∈ l, o = none := by
  induction l with
  | nil => simp [firstFailure]
  | cons o rest ih => cases o <;> simp [firstFailure, ih]

theorem failIf_none {b : Bool} {st : Status} : failIf b st = none ↔ b = false := by cases b <;> simp [failIf]

theorem otherPort_false {p : PortId} {o : Option PortId} : otherPort p o = false ↔ o = none ∨ o = some p := by
  cases o <;> simp [otherPort]

/-- The holder and toucher checks pass where the strip is open to the port. -/
theorem handFailure_none {p : PortId} {r : Strip} :
    handFailure p r = none ↔ (r.holder = none ∨ r.holder = some p) ∧ (r.toucher = none ∨ r.toucher = some p) := by
  simp [handFailure, firstFailure_none, failIf_none, otherPort_false]

/-- A change translates as a read does, and is refused by a view-only window. -/
theorem reachForChange_ok {q : PortState} {n : Nat} {k : StripNo} (h : reachForChange q n = .ok k) :
    reach q n = .ok k := by
  unfold reachForChange at h; unfold reach
  split at h
  · split at h <;> simp_all
  · cases h

end Sys2Proof.Machine
end

