-- ==== Sys2Proof/Laws/Cells.lean ====
section
/-!
SUPPORT. What the hand-offs to the engine do: used values and targets depend on the strip, the pass and the
widths alone; a retarget and a cut change the cells of one strip; a step of a ramp stays on the ramp.
-/
namespace Sys2Proof.Machine

/-! ### Used values and targets -/

theorem used_congr {s t : State} {n : StripNo} (hr : t.strip n = s.strip n)
    (hp : t.playback.passOpen = s.playback.passOpen) : t.used n = s.used n := by simp [State.used, hr, hp]

theorem destWidth_congr {a b : BusTable} (hp : a.premixWidth = b.premixWidth) (hm : a.masterWidth = b.masterWidth)
    (d : Dest) : a.destWidth d = b.destWidth d := by cases d <;> simp [BusTable.destWidth, hp, hm]

theorem target_congr {s t : State} {n : StripNo} (hr : t.strip n = s.strip n)
    (hp : t.playback.passOpen = s.playback.passOpen) (hw : t.busTable.premixWidth = s.busTable.premixWidth)
    (hm : t.busTable.masterWidth = s.busTable.masterWidth) (c : Channel) : t.target n c = s.target n c := by
  simp [State.target, used_congr hr hp, hr, destWidth_congr hw hm]

/-- A target depends on a strip through its used values and its destination. -/
theorem target_of_used {s t : State} {n : StripNo} (hu : t.used n = s.used n) (hd : (t.strip n).dest = (s.strip n).dest)
    (hw : t.busTable.premixWidth = s.busTable.premixWidth) (hm : t.busTable.masterWidth = s.busTable.masterWidth)
    (c : Channel) : t.target n c = s.target n c := by simp [State.target, hu, hd, destWidth_congr hw hm]

/-! ### Retargets and cuts -/

@[simp] theorem retarget_target (len v : Nat) (c : Cell) : (c.retarget len v).target = v := by
  unfold Cell.retarget; split <;> simp_all

@[simp] theorem retarget_current (len v : Nat) (c : Cell) : (c.retarget len v).current = c.current := by
  unfold Cell.retarget; split <;> rfl

theorem retarget_same {len v : Nat} {c : Cell} (h : c.target = v) : c.retarget len v = c := by simp [Cell.retarget, h]

theorem retarget_new {len v : Nat} {c : Cell} (h : c.target ≠ v) :
    c.retarget len v = { current := c.current, start := c.current, target := v, length := len, step := 0 } := by
  simp [Cell.retarget, h]

/-- A retarget of strip `n` gives each of its cells the target of its record, and leaves every other strip's. -/
theorem cells_retargetStrip (n m : StripNo) (s : State) (c : Channel) :
    ((retargetStrip n s).cells m)[c] =
      if n = m then (s.cells m)[c].retarget s.engine.rampLength (s.target m c) else (s.cells m)[c] := by
  unfold retargetStrip
  rw [cells_modCells]
  split
  · next h => subst h; rfl
  · rfl

theorem cells_retargetStrip_ne {n m : StripNo} (h : m ≠ n) (s : State) : (retargetStrip n s).cells m = s.cells m := by
  unfold retargetStrip
  rw [cells_modCells_vector, if_neg (Ne.symm h)]

theorem cells_cutStrip (n m : StripNo) (cells : Vector Cell 12) (s : State) (c : Channel) :
    ((cutStrip n cells s).cells m)[c] = if n = m then cells[c].cut (s.target m c) else (s.cells m)[c] := by
  unfold cutStrip
  rw [cells_modCells]
  split
  · next h => subst h; rfl
  · rfl

theorem cells_cutStrip_ne {n m : StripNo} (h : m ≠ n) (cells : Vector Cell 12) (s : State) :
    (cutStrip n cells s).cells m = s.cells m := by
  unfold cutStrip
  rw [cells_modCells_vector, if_neg (Ne.symm h)]

/-- The hand-off of a used value: nothing, or a retarget. -/
theorem handRetarget_cases (before : State) (n : StripNo) (s : State) :
    (s.used n = before.used n ∧ handRetarget before n s = s) ∨
      (s.used n ≠ before.used n ∧ handRetarget before n s = retargetStrip n s) := by
  by_cases h : s.used n = before.used n <;> simp [handRetarget, h]

/-- A hand-off changes the strip cells of the engine alone. -/
theorem handRetarget_eq (before : State) (n : StripNo) (s : State) :
    handRetarget before n s =
      { s with engine := { s.engine with stripCells := (handRetarget before n s).engine.stripCells } } := by
  rcases handRetarget_cases before n s with ⟨-, h⟩ | ⟨-, h⟩
  · rw [h]
  · rw [h]; rfl

/-- The end of a request: the cut of a changed route or polarity, or nothing. -/
theorem handCut_cases (before : State) (n : StripNo) (s : State) :
    (routeChanged (before.strip n) (s.strip n) = true ∧ handCut before n s = cutStrip n (before.cells n) s) ∨
      (routeChanged (before.strip n) (s.strip n) = false ∧ handCut before n s = s) := by
  cases h : routeChanged (before.strip n) (s.strip n) <;> simp [handCut, h]

theorem handCut_eq (before : State) (n : StripNo) (s : State) :
    handCut before n s =
      { s with engine := { s.engine with stripCells := (handCut before n s).engine.stripCells } } := by
  rcases handCut_cases before n s with ⟨-, h⟩ | ⟨-, h⟩
  · rw [h]; rfl
  · rw [h]

@[simp] theorem handCut_strip (before : State) (n m : StripNo) (s : State) :
    (handCut before n s).strip m = s.strip m := by rw [handCut_eq]; rfl

/-- A cut leaves every cell of the strip settled at the target of the record after the request (R10, R39). -/
theorem cells_handCut {before s : State} {n : StripNo} (h : routeChanged (before.strip n) (s.strip n) = true)
    (c : Channel) : ((handCut before n s).cells n)[c] = ((before.cells n)[c]).cut (s.target n c) := by
  rcases handCut_cases before n s with ⟨-, e⟩ | ⟨h', -⟩
  · rw [e, cells_cutStrip, if_pos rfl]
  · rw [h] at h'; cases h'

/-- The hand-off after a used value may have changed keeps the cells in step with the record: where the targets
were those of `before` and a target changes only with a used value, they are those of the new record. -/
theorem handRetarget_targets {before s : State} {n : StripNo}
    (hold : ∀ c : Channel, ((s.cells n)[c]).target = before.target n c)
    (hsame : s.used n = before.used n → ∀ c, s.target n c = before.target n c) (c : Channel) :
    (((handRetarget before n s).cells n)[c]).target = s.target n c := by
  rcases handRetarget_cases before n s with ⟨hu, h⟩ | ⟨-, h⟩
  · rw [h, hold, hsame hu]
  · rw [h, cells_retargetStrip, if_pos rfl, retarget_target]

/-! ### Steps of a ramp -/

theorem advance_settled {c : Cell} (h : c.length ≤ c.step) : c.advance = c := by
  simp [Cell.advance, Nat.not_lt.mpr h]

@[simp] theorem advance_start (c : Cell) : c.advance.start = c.start := by unfold Cell.advance; split <;> rfl

@[simp] theorem advance_target (c : Cell) : c.advance.target = c.target := by unfold Cell.advance; split <;> rfl

@[simp] theorem advance_length (c : Cell) : c.advance.length = c.length := by unfold Cell.advance; split <;> rfl

/-- The share of a ramp that `k` of `l` steps have made lies between nothing and the whole. -/
theorem tdiv_share (x : Int) {k l : Nat} (hk : k ≤ l) (hl : 0 < l) :
    min 0 x ≤ Int.tdiv (x * k) l ∧ Int.tdiv (x * k) l ≤ max 0 x := by
  have hl' : (0 : Int) < l := by exact_mod_cast hl
  rcases le_total 0 x with hx | hx
  · have h0 : 0 ≤ x * (k : Int) := mul_nonneg hx (by positivity)
    rw [Int.tdiv_eq_ediv_of_nonneg h0, min_eq_left hx, max_eq_right hx]
    refine ⟨Int.ediv_nonneg h0 hl'.le, Int.ediv_le_of_le_mul hl' ?_⟩
    exact mul_le_mul_of_nonneg_left (by exact_mod_cast hk) hx
  · have h0 : 0 ≤ -x * (k : Int) := mul_nonneg (by omega) (by positivity)
    have e : Int.tdiv (x * k) l = -((-x * k) / l) := by
      rw [← Int.tdiv_eq_ediv_of_nonneg h0, ← Int.neg_tdiv]; congr 1; ring
    have h1 : (-x * k) / (l : Int) ≤ -x := by
      refine Int.ediv_le_of_le_mul hl' ?_
      exact mul_le_mul_of_nonneg_left (by exact_mod_cast hk) (by omega)
    have h2 : 0 ≤ (-x * k) / (l : Int) := Int.ediv_nonneg h0 hl'.le
    rw [e, min_eq_right hx, max_eq_left hx]
    constructor <;> omega

/-- A step of a ramping cell gives the value at the next `k`. -/
theorem advance_current {c : Cell} (h : c.step < c.length) :
    (c.advance.current : Int) = c.start + Int.tdiv (((c.target : Int) - c.start) * (c.step + 1)) c.length := by
  have hb := tdiv_share ((c.target : Int) - c.start) (k := c.step + 1) (l := c.length) h (by omega)
  push_cast at hb
  simp only [Cell.advance, h, if_true]
  omega

theorem advance_step {c : Cell} (h : c.step < c.length) : c.advance.step = c.step + 1 := by simp [Cell.advance, h]

end Sys2Proof.Machine
end

