-- ==== Sys2Proof/Laws/Engine.lean ====
section
/-!
SUPPORT. What the sample period of the engine does: its sums as sums over the strips and the stems, the clamp to
the sample range, and the fields it leaves as they are.
-/
namespace Sys2Proof.Machine

/-- A fold that adds is the sum, with terms left out counted as 0. -/
theorem foldl_add_if {α : Type} (b : α → Bool) (g : α → Int) (l : List α) (a : Int) :
    l.foldl (fun acc x => if b x then acc + g x else acc) a = a + (l.map fun x => if b x then g x else 0).sum := by
  induction l generalizing a with
  | nil => simp
  | cons x rest ih =>
    rw [List.foldl_cons, ih]
    by_cases h : b x = true <;> simp [h, add_assoc]

/-- An accumulator is the sum over the strips that feed its bus. -/
theorem accumulate_eq (strips : Vector Strip 160) (cells : Vector (Vector Cell 12) 160) (samples : Vector Int 160)
    (feeds : Dest → Bool) (c : Channel) :
    accumulate strips cells samples feeds c =
      ∑ n : StripNo, if feeds strips[n].dest then samples[n] * ((cells[n])[c].current : Int) else 0 := by
  unfold accumulate
  rw [foldl_add_if (fun n : StripNo => feeds strips[n].dest), zero_add, Fin.sum_univ_def]

/-- A print sum is the sum over the stems in print. -/
theorem printSum_eq (print : Vector Bool 8) (stems : Vector (Vector Int 12) 8) (c : Channel) :
    printSum print stems c = ∑ i : StemNo, if print[i] then (stems[i])[c] else 0 := by
  unfold printSum
  rw [foldl_add_if (fun i : StemNo => print[i]), zero_add, Fin.sum_univ_def]

/-- A clamped value lies in the sample range. -/
theorem sat24_range (x : Int) : -8388608 ≤ sat24 x ∧ sat24 x ≤ 8388607 := by
  simp only [sat24, Config.sampleMin, Config.sampleMax]; omega

/-- The clamp leaves a value of the sample range. -/
theorem sat24_inside {x : Int} (h : -8388608 ≤ x) (h' : x ≤ 8388607) : sat24 x = x := by
  simp only [sat24, Config.sampleMin, Config.sampleMax]; omega

theorem overloads_iff (x : Int) : overloads x = true ↔ x < -8388608 ∨ 8388607 < x := by
  simp only [overloads, Bool.or_eq_true, decide_eq_true_eq]
  rfl

/-- Scaling rounds half upward at 2^28. -/
theorem scaled_eq (acc : Int) (gain : Nat) : scaled acc gain = Int.fdiv (acc * gain + 2 ^ 27) (2 ^ 28) := by
  rw [Int.fdiv_eq_ediv_of_nonneg _ (by norm_num)]; norm_num [scaled]

/-- The hand-off of the saturated buses changes the bus table and pending sets alone. -/
theorem takeSaturation_eq (sat : Saturated) (s : State) :
    takeSaturation sat s =
      { s with busTable := setClips sat s.busTable, ports := (takeSaturation sat s).ports } := by
  unfold takeSaturation; dsimp only; split <;> rfl

/-- All that the sample period of the engine changes. -/
theorem enginePeriod_eq (s : State) :
    enginePeriod s =
      { s with
        engine := s.mix.engine,
        busTable := setClips s.mix.saturated (takeLevels s.tickDue s.mix.handed s.busTable),
        audio := { s.audio with handed := s.mix.handed, handedBefore := s.audio.handed, engineTaken := true },
        ports := (enginePeriod s).ports } := by
  unfold enginePeriod; dsimp only; rw [takeSaturation_eq]

end Sys2Proof.Machine
end

