-- ==== Sys2Proof/Laws/Strips.lean ====
section
/-!
SUPPORT. What every effect of a change of one strip can do, said once: `OnlyAt n` holds from the state before to the
state after each operation of Machine/Writing.lean that acts on strip `n`, and with it the frame of the requests
that are built on them.
-/
namespace Sys2Proof.Machine

/-- From `s` to `t` nothing changes but strip `n`, its cells, the take records and the lost count, and the pending
sets and watch lists of the ports. -/
structure OnlyAt (n : StripNo) (s t : State) : Prop where
  strips : ∀ m, m ≠ n → t.strip m = s.strip m
  cells : ∀ m, m ≠ n → t.cells m = s.cells m
  engine : t.engine = { s.engine with stripCells := t.engine.stripCells }
  writing : t.writing = { s.writing with takes := t.writing.takes, lost := t.writing.lost }
  ports : ∀ q, t.port q = { s.port q with pendingSet := (t.port q).pendingSet, watches := (t.port q).watches }
  busTable : t.busTable = s.busTable
  timeline : t.timeline = s.timeline
  playback : t.playback = s.playback
  audio : t.audio = s.audio
  pending : t.pending = s.pending

theorem OnlyAt.refl (n : StripNo) (s : State) : OnlyAt n s s :=
  ⟨fun _ _ => rfl, fun _ _ => rfl, rfl, rfl, fun _ => rfl, rfl, rfl, rfl, rfl, rfl⟩

theorem OnlyAt.trans {n : StripNo} {s t u : State} (h : OnlyAt n s t) (k : OnlyAt n t u) : OnlyAt n s u where
  strips m hm := (k.strips m hm).trans (h.strips m hm)
  cells m hm := (k.cells m hm).trans (h.cells m hm)
  engine := by rw [k.engine, h.engine]
  writing := by rw [k.writing, h.writing]
  ports q := by rw [k.ports q, h.ports q]
  busTable := k.busTable.trans h.busTable
  timeline := k.timeline.trans h.timeline
  playback := k.playback.trans h.playback
  audio := k.audio.trans h.audio
  pending := k.pending.trans h.pending

theorem OnlyAt.modStrip (n : StripNo) (f : Strip → Strip) (s : State) : OnlyAt n s (s.modStrip n f) where
  strips _ hm := strip_modStrip_ne s f hm
  cells _ _ := rfl
  engine := rfl
  writing := rfl
  ports _ := rfl
  busTable := rfl
  timeline := rfl
  playback := rfl
  audio := rfl
  pending := rfl

theorem OnlyAt.retarget (n : StripNo) (s : State) : OnlyAt n s (retargetStrip n s) where
  strips _ _ := rfl
  cells _ hm := cells_retargetStrip_ne hm s
  engine := rfl
  writing := rfl
  ports _ := rfl
  busTable := rfl
  timeline := rfl
  playback := rfl
  audio := rfl
  pending := rfl

theorem OnlyAt.cut (n : StripNo) (cells : Vector Cell 12) (s : State) : OnlyAt n s (cutStrip n cells s) where
  strips _ _ := rfl
  cells _ hm := cells_cutStrip_ne hm cells s
  engine := rfl
  writing := rfl
  ports _ := rfl
  busTable := rfl
  timeline := rfl
  playback := rfl
  audio := rfl
  pending := rfl

theorem OnlyAt.handRetarget (before : State) (n : StripNo) (s : State) : OnlyAt n s (handRetarget before n s) := by
  rcases handRetarget_cases before n s with ⟨-, h⟩ | ⟨-, h⟩ <;> rw [h]
  · exact .refl n s
  · exact .retarget n s

theorem OnlyAt.handCut (before : State) (n : StripNo) (s : State) : OnlyAt n s (handCut before n s) := by
  rcases handCut_cases before n s with ⟨-, h⟩ | ⟨-, h⟩ <;> rw [h]
  · exact .cut n (before.cells n) s
  · exact .refl n s

/-! ### The take queue -/

/-- A take record at a queue with room is appended, and HIGH may be raised at the take port. -/
theorem appendTake_room {s : State} (h : s.writing.takes.length < 1024) (r : TakeRecord) :
    appendTake r s =
      if s.writing.takes.length < s.playback.highMark ∧ s.playback.highMark ≤ s.writing.takes.length + 1 then
        raiseAtRole .high s.writing.takePort { s with writing := { s.writing with takes := s.writing.takes ++ [r] } }
      else { s with writing := { s.writing with takes := s.writing.takes ++ [r] } } := by
  simp [appendTake, Config.queueSize, h]

/-- A take record at a full queue is lost and counted, and LOST is raised at the take port. -/
theorem appendTake_full {s : State} (h : 1024 ≤ s.writing.takes.length) (r : TakeRecord) :
    appendTake r s =
      raiseAtRole .lost s.writing.takePort
        { s with writing := { s.writing with lost := min 65535 (s.writing.lost + 1) } } := by
  simp [appendTake, Config.queueSize, Nat.not_lt.mpr h, saturate, Config.max16]

theorem raiseAtRole_onlyAt (n : StripNo) (r : Reason) (o : Option PortId) (s : State) :
    OnlyAt n s (raiseAtRole r o s) := by
  rw [raiseAtRole_eq]
  refine ⟨fun _ _ => rfl, fun _ _ => rfl, rfl, rfl, fun q => ?_, rfl, rfl, rfl, rfl, rfl⟩
  have h := raiseAtRole_port r o s q
  have e : ({ s with ports := (raiseAtRole r o s).ports } : State).port q = (raiseAtRole r o s).port q := rfl
  rw [e, h]
  split
  · rw [raised_eq]
  · rfl

/-- Queueing a take record changes the take queue, the lost count and pending sets alone. -/
theorem OnlyAt.appendTake (n : StripNo) (r : TakeRecord) (s : State) : OnlyAt n s (appendTake r s) := by
  have hw : ∀ w : Writing, w.takePort = s.writing.takePort → OnlyAt n s { s with writing := w } := fun w hp =>
    ⟨fun _ _ => rfl, fun _ _ => rfl, rfl, by cases w; simp_all, fun _ => rfl, rfl, rfl, rfl, rfl, rfl⟩
  rcases Nat.lt_or_ge s.writing.takes.length 1024 with h | h
  · rw [appendTake_room h]
    split
    · exact OnlyAt.trans (hw _ (by rfl)) (raiseAtRole_onlyAt n _ _ _)
    · exact hw _ (by rfl)
  · rw [appendTake_full h]
    exact OnlyAt.trans (hw _ (by rfl)) (raiseAtRole_onlyAt n _ _ _)

/-- A take record changes no strip and no cell. -/
theorem appendTake_strips (r : TakeRecord) (s : State) : (appendTake r s).strips = s.strips := by
  rcases Nat.lt_or_ge s.writing.takes.length 1024 with h | h
  · rw [appendTake_room h]; split
    · rw [raiseAtRole_eq]
    · rfl
  · rw [appendTake_full h, raiseAtRole_eq]

theorem appendTake_engine (r : TakeRecord) (s : State) : (appendTake r s).engine = s.engine := by
  rcases Nat.lt_or_ge s.writing.takes.length 1024 with h | h
  · rw [appendTake_room h]; split
    · rw [raiseAtRole_eq]
    · rfl
  · rw [appendTake_full h, raiseAtRole_eq]

@[simp] theorem appendTake_strip (r : TakeRecord) (s : State) (m : StripNo) : (appendTake r s).strip m = s.strip m := by
  simp [State.strip, appendTake_strips]

@[simp] theorem appendTake_cells (r : TakeRecord) (s : State) (m : StripNo) : (appendTake r s).cells m = s.cells m := by
  simp [State.cells, appendTake_engine]

@[simp] theorem appendTake_timeline (r : TakeRecord) (s : State) : (appendTake r s).timeline = s.timeline :=
  (OnlyAt.appendTake 0 r s).timeline

@[simp] theorem appendTake_playback (r : TakeRecord) (s : State) : (appendTake r s).playback = s.playback :=
  (OnlyAt.appendTake 0 r s).playback

@[simp] theorem appendTake_busTable (r : TakeRecord) (s : State) : (appendTake r s).busTable = s.busTable :=
  (OnlyAt.appendTake 0 r s).busTable

/-- What a take record does to the queue: appended where there is room. -/
theorem appendTake_takes (r : TakeRecord) (s : State) :
    (appendTake r s).writing.takes =
      if s.writing.takes.length < 1024 then s.writing.takes ++ [r] else s.writing.takes := by
  rcases Nat.lt_or_ge s.writing.takes.length 1024 with h | h
  · rw [appendTake_room h, if_pos h]; split
    · rw [raiseAtRole_eq]
    · rfl
  · rw [appendTake_full h, if_neg (Nat.not_lt.mpr h), raiseAtRole_eq]

/-- What a take record does to the lost count: one more where there is no room. -/
theorem appendTake_lost (r : TakeRecord) (s : State) :
    (appendTake r s).writing.lost =
      if s.writing.takes.length < 1024 then s.writing.lost else min 65535 (s.writing.lost + 1) := by
  rcases Nat.lt_or_ge s.writing.takes.length 1024 with h | h
  · rw [appendTake_room h, if_pos h]; split
    · rw [raiseAtRole_eq]
    · rfl
  · rw [appendTake_full h, if_neg (Nat.not_lt.mpr h), raiseAtRole_eq]

/-! ### Punching and the write state machine -/

theorem OnlyAt.setWriteState (n : StripNo) (w : WriteState) (s : State) : OnlyAt n s (setWriteState n w s) :=
  .modStrip n _ s

theorem OnlyAt.punchIn (n : StripNo) (s : State) : OnlyAt n s (punchIn n s) :=
  ((OnlyAt.modStrip n _ s).trans (.appendTake n _ _)).trans (.handRetarget s n _)

theorem OnlyAt.endPunch (reason : PunchReason) (mode : Mode) (n : StripNo) (w : WriteState) (s : State) :
    OnlyAt n s (endPunch reason mode n w s) := (OnlyAt.appendTake n _ s).trans (.modStrip n _ _)

theorem OnlyAt.punchOut (reason : PunchReason) (n : StripNo) (w : WriteState) (s : State) :
    OnlyAt n s (punchOut reason n w s) := (OnlyAt.endPunch reason _ n w s).trans (.handRetarget s n _)

/-- A punch-out leaves the strip with its write state set and, in TRIM mode, its trim at unity. -/
theorem strip_endPunch (reason : PunchReason) (mode : Mode) (n : StripNo) (w : WriteState) (s : State) :
    (endPunch reason mode n w s).strip n =
      { s.strip n with trim := if mode = .trim then 16384 else (s.strip n).trim, writeState := w } := by
  simp [Machine.endPunch, Config.unity]

@[simp] theorem handRetarget_strip (before : State) (n m : StripNo) (s : State) :
    (handRetarget before n s).strip m = s.strip m := by rw [handRetarget_eq]; rfl

@[simp] theorem handRetarget_writing (before : State) (n : StripNo) (s : State) :
    (handRetarget before n s).writing = s.writing := by rw [handRetarget_eq]

theorem strip_punchOut (reason : PunchReason) (n : StripNo) (w : WriteState) (s : State) :
    (punchOut reason n w s).strip n =
      { s.strip n with trim := if (s.strip n).mode = .trim then 16384 else (s.strip n).trim, writeState := w } := by
  simp [Machine.punchOut, strip_endPunch]

/-- A punch-in leaves the strip as R136 loads it. -/
theorem strip_punchIn (n : StripNo) (s : State) : (punchIn n s).strip n = s.loaded n := by
  simp [Machine.punchIn]

theorem OnlyAt.triggerRise (n : StripNo) (s : State) : OnlyAt n s (triggerRise n s) := by
  unfold Machine.triggerRise
  split
  · split
    · exact .punchIn n s
    · exact .setWriteState n _ s
  · split
    · exact .setWriteState n _ s
    · exact .refl n s
  all_goals exact .refl n s

theorem OnlyAt.triggerFall (n : StripNo) (s : State) : OnlyAt n s (triggerFall n s) := by
  unfold Machine.triggerFall
  split
  · exact .setWriteState n _ s
  · exact .punchOut _ n _ s
  · exact .punchOut _ n _ s
  · exact .setWriteState n _ s
  · exact .refl n s

theorem OnlyAt.triggerChange (before : State) (n : StripNo) (s : State) : OnlyAt n s (triggerChange before n s) := by
  unfold Machine.triggerChange
  split
  · split
    · exact .triggerRise n s
    · exact .triggerFall n s
  · exact .refl n s

/-- Without a change of the trigger of an armed strip nothing follows. -/
theorem triggerChange_same {before s : State} {n : StripNo} (h : s.armed n = false ∨ before.trigger n = s.trigger n) :
    triggerChange before n s = s := by
  rcases h with h | h <;> simp [Machine.triggerChange, h]

theorem OnlyAt.fallStrip (reason : PunchReason) (n : StripNo) (s : State) : OnlyAt n s (fallStrip reason n s) := by
  unfold Machine.fallStrip
  split
  · split
    · exact .punchOut _ n _ s
    · exact .punchOut _ n _ s
    · split
      · exact .setWriteState n _ s
      · exact .refl n s
    all_goals exact .refl n s
  · exact .refl n s

theorem OnlyAt.riseStrip (n : StripNo) (s : State) : OnlyAt n s (riseStrip n s) := by
  unfold Machine.riseStrip
  split
  · exact .punchIn n s
  · exact .refl n s

theorem OnlyAt.changeToucher (n : StripNo) (t : Option PortId) (s : State) : OnlyAt n s (changeToucher n t s) :=
  (OnlyAt.modStrip n _ s).trans (.triggerChange s n _)

theorem OnlyAt.changeMode (n : StripNo) (m : Mode) (s : State) : OnlyAt n s (changeMode n m s) := by
  unfold Machine.changeMode
  dsimp only
  split
  · exact .refl n s
  · refine OnlyAt.trans ?_ (.handRetarget s n _)
    split
    · exact (OnlyAt.modStrip n _ s).trans (.endPunch _ _ n _ _)
    · exact (OnlyAt.modStrip n _ s).trans (.setWriteState n _ _)

/-! ### Accepted changes -/

/-- A report changes the watch list and the pending set of the other ports alone. -/
theorem OnlyAt.report (p : PortId) (n : StripNo) (s : State) : OnlyAt n s (report p n s) := by
  refine ⟨fun _ _ => rfl, fun _ _ => rfl, rfl, rfl, fun q => ?_, rfl, rfl, rfl, rfl, rfl⟩
  simp only [Machine.report, port_mapPorts]
  split
  · rfl
  · unfold PortState.reported PortState.raised
    split
    · split <;> rfl
    · rfl

theorem OnlyAt.recordMoves (p : PortId) (n : StripNo) (l : List FieldValue) (s : State) :
    OnlyAt n s (recordMoves p n l s) := by
  unfold Machine.recordMoves
  induction l generalizing s with
  | nil => exact .refl n s
  | cons v rest ih => exact (OnlyAt.appendTake n _ s).trans (ih _)

/-- All that an accepted change of strip `n` can do, but for a cut. -/
theorem OnlyAt.writeChange (p : PortId) (n : StripNo) (r : Strip) (l : List FieldValue) (b : Bool) (s : State) :
    OnlyAt n s (writeChange p n r l b s) := by
  unfold Machine.writeChange
  refine OnlyAt.trans ?_ (.triggerChange s n _)
  have h1 : OnlyAt n s (Machine.handRetarget s n (s.setStrip n r)) := (OnlyAt.modStrip n _ s).trans (.handRetarget s n _)
  have h2 : OnlyAt n s (if (s.strip n).writeState.punched then Machine.recordMoves p n l (Machine.handRetarget s n (s.setStrip n r))
      else Machine.handRetarget s n (s.setStrip n r)) := by
    split
    · exact h1.trans (.recordMoves p n l _)
    · exact h1
  split
  · exact h2.trans (.report p n _)
  · exact h2

/-- All that an accepted change of strip `n` can do. -/
theorem OnlyAt.commit (p : PortId) (n : StripNo) (r : Strip) (l : List FieldValue) (b : Bool) (s : State) :
    OnlyAt n s (commit p n r l b s) := (OnlyAt.writeChange p n r l b s).trans (.handCut s n _)

theorem OnlyAt.applyCue (c : Cue) (s : State) : OnlyAt c.strip s (applyCue c s) :=
  (OnlyAt.modStrip c.strip _ s).trans (.handRetarget s c.strip _)

end Sys2Proof.Machine
end

