-- ==== Sys2Proof/Laws/Walk.lean ====
section
/-!
SUPPORT. What an event that reaches every strip can do (R135): a walk over the strips whose turn at strip `n`
changes strip `n` alone. Playback's scans and the timeline's operations follow from it.
-/
namespace Sys2Proof.Machine

/-- From `s` to `t` nothing changes but strips, their cells, the take records and the lost count, and the pending
sets and watch lists of the ports. -/
structure OnlyStrips (s t : State) : Prop where
  engine : t.engine = { s.engine with stripCells := t.engine.stripCells }
  writing : t.writing = { s.writing with takes := t.writing.takes, lost := t.writing.lost }
  ports : ∀ q, t.port q = { s.port q with pendingSet := (t.port q).pendingSet, watches := (t.port q).watches }
  busTable : t.busTable = s.busTable
  timeline : t.timeline = s.timeline
  playback : t.playback = s.playback
  audio : t.audio = s.audio
  pending : t.pending = s.pending

theorem OnlyStrips.refl (s : State) : OnlyStrips s s := ⟨rfl, rfl, fun _ => rfl, rfl, rfl, rfl, rfl, rfl⟩

theorem OnlyStrips.trans {s t u : State} (h : OnlyStrips s t) (k : OnlyStrips t u) : OnlyStrips s u where
  engine := by rw [k.engine, h.engine]
  writing := by rw [k.writing, h.writing]
  ports q := by rw [k.ports q, h.ports q]
  busTable := k.busTable.trans h.busTable
  timeline := k.timeline.trans h.timeline
  playback := k.playback.trans h.playback
  audio := k.audio.trans h.audio
  pending := k.pending.trans h.pending

theorem OnlyAt.onlyStrips {n : StripNo} {s t : State} (h : OnlyAt n s t) : OnlyStrips s t :=
  ⟨h.engine, h.writing, h.ports, h.busTable, h.timeline, h.playback, h.audio, h.pending⟩

/-- A walk whose turns each change their own strip changes strips alone. -/
theorem eachStrip_onlyStrips {f : StripNo → State → State} (h : ∀ n t, OnlyAt n t (f n t)) (s : State) :
    OnlyStrips s (eachStrip f s) :=
  eachStrip_keeps (P := OnlyStrips s) (fun n t ht => ht.trans (h n t).onlyStrips) (.refl s)

/-- After such a walk strip `n` and its cells are as its own turn left them, taken in a state that differs from the
first in other strips alone. -/
theorem eachStrip_turn {f : StripNo → State → State} (h : ∀ n t, OnlyAt n t (f n t)) (n : StripNo) (s : State) :
    ∃ t, OnlyStrips s t ∧ t.strip n = s.strip n ∧ t.cells n = s.cells n ∧
      (eachStrip f s).strip n = (f n t).strip n ∧ (eachStrip f s).cells n = (f n t).cells n := by
  obtain ⟨t, ht, hg, hw⟩ := eachStrip_at (f := f) (g := fun t => (t.strip n, t.cells n)) (P := OnlyStrips s)
    (fun m t ht => ht.trans (h m t).onlyStrips)
    (fun m t hm _ => by simp [(h m t).strips n (Ne.symm hm), (h m t).cells n (Ne.symm hm)]) (.refl s)
  exact ⟨t, ht, congrArg Prod.fst hg, congrArg Prod.snd hg, congrArg Prod.fst hw, congrArg Prod.snd hw⟩

/-- What strip `n` is armed for, and its trigger, depend on its own record, the pass and the timeline. -/
theorem OnlyStrips.armed {s t : State} (h : OnlyStrips s t) {n : StripNo} (hn : t.strip n = s.strip n) :
    t.armed n = s.armed n := by simp [State.armed, hn, h.playback]

theorem OnlyStrips.trigger {s t : State} (h : OnlyStrips s t) {n : StripNo} (hn : t.strip n = s.strip n) :
    t.trigger n = s.trigger n := by simp [State.trigger, hn, h.timeline]

theorem OnlyStrips.used {s t : State} (h : OnlyStrips s t) {n : StripNo} (hn : t.strip n = s.strip n) :
    t.used n = s.used n := used_congr hn (by rw [h.playback])

theorem OnlyStrips.target {s t : State} (h : OnlyStrips s t) {n : StripNo} (hn : t.strip n = s.strip n) (c : Channel) :
    t.target n c = s.target n c :=
  target_congr hn (by rw [h.playback]) (by rw [h.busTable]) (by rw [h.busTable]) c

theorem OnlyStrips.rampLength {s t : State} (h : OnlyStrips s t) : t.engine.rampLength = s.engine.rampLength := by
  rw [h.engine]

/-! ### Scans of the cue queue -/

/-- An arrival scan applies heads at the counter's frame and leaves the rest: strips and the cue queue alone. -/
theorem arrivalScan_frame (q : List Cue) (s : State) :
    OnlyStrips s (arrivalScan q s |>.withCues s.playback.cues) := by
  induction q generalizing s with
  | nil => exact .refl s
  | cons c rest ih =>
    unfold arrivalScan
    split
    · have h := OnlyAt.applyCue c s
      have k := ih (applyCue c s)
      rw [h.playback] at k
      exact h.onlyStrips.trans k
    · exact .refl s

/-- What an arrival scan leaves of the queue. -/
theorem arrivalScan_cues (q : List Cue) (s : State) :
    (arrivalScan q s).playback =
      { s.playback with cues := q.dropWhile fun c => decide (c.frame = s.timeline.counter) } := by
  induction q generalizing s with
  | nil => rfl
  | cons c rest ih =>
    unfold arrivalScan
    split
    · next h =>
      rw [ih, (OnlyAt.applyCue c s).playback, (OnlyAt.applyCue c s).timeline]
      simp [h]
    · next h => simp [h]

/-! ### Counting -/

theorem recount_same {reason : PunchReason} {s : State}
    (h : s.timeline.counting = (s.timeline.roll.filtered && s.timeline.settle == 0)) : recount reason s = s := by
  simp [recount, h]

/-- A fall of counting reaches every strip. -/
theorem recount_fall {reason : PunchReason} {s : State} (h : s.timeline.counting = true)
    (h' : (s.timeline.roll.filtered && s.timeline.settle == 0) = false) :
    recount reason s =
      eachStrip (fallStrip reason) (s.modTimeline fun tl => { tl with counting := false }) := by
  simp [recount, h, h']

/-- A rise of counting reaches every strip. -/
theorem recount_rise {reason : PunchReason} {s : State} (h : s.timeline.counting = false)
    (h' : (s.timeline.roll.filtered && s.timeline.settle == 0) = true) :
    recount reason s = eachStrip riseStrip (s.modTimeline fun tl => { tl with counting := true }) := by
  simp [recount, h, h']

/-- A recount sets the counting field by R97 and changes strips alone beside it. -/
theorem recount_frame (reason : PunchReason) (s : State) :
    OnlyStrips (s.modTimeline fun tl => { tl with counting := tl.roll.filtered && tl.settle == 0 })
      (recount reason s) := by
  cases h : s.timeline.counting <;> cases h' : (s.timeline.roll.filtered && s.timeline.settle == 0)
  · rw [recount_same (by rw [h, h'])]
    have : (s.modTimeline fun tl => { tl with counting := tl.roll.filtered && tl.settle == 0 }) = s := by
      simp only [State.modTimeline, h', ← h]
    rw [this]; exact .refl s
  · rw [recount_rise h h']
    simp only [State.modTimeline, h']
    exact eachStrip_onlyStrips (fun n t => .riseStrip n t) _
  · rw [recount_fall h h']
    simp only [State.modTimeline, h']
    exact eachStrip_onlyStrips (fun n t => .fallStrip reason n t) _
  · rw [recount_same (by rw [h, h'])]
    have : (s.modTimeline fun tl => { tl with counting := tl.roll.filtered && tl.settle == 0 }) = s := by
      simp only [State.modTimeline, h', ← h]
    rw [this]; exact .refl s

end Sys2Proof.Machine
end

