-- ==== Sys2Proof/Tests/Slice0.lean ====
section
/-!
SUPPORT. Tests of single commands against the worked examples and rules of the spec, and for every statement with
premises a witness: a concrete state and operands that meet them.
-/
namespace Sys2Proof.Tests

set_option Elab.async false

open Sys2Proof.Machine

/-! ### Helpers -/

/-- The state after one command. -/
def after (c : Instr) (s : State) : State :=
  match exec c s with
  | .next t => t
  | .fault _ => s
  | .refused _ => s

/-- The reply that a command leaves at port `p`. -/
def replyOf (p : PortId) (c : Instr) (s : State) : Option Reply := ((after c s).port p).replySlot

/-- The status of that reply. -/
def statusOf (p : PortId) (c : Instr) (s : State) : Option Status := (replyOf p c s).map (·.status)

/-- Bytes as a 13-byte value, with zeros after them. -/
def value (l : List Byte) : Value13 := Vector.ofFn fun i => l.getD i.val 0

/-- A pan entry. -/
def entry (c : Channel) (w : Nat) : PanEntry := { channel := c, weight := w }

/-- The pass open with this pass and take port. -/
def openBy (p : PortId) (s : State) : State :=
  { s with
    playback := { s.playback with passOpen := true, passPort := some p },
    writing := { s.writing with takePort := some p } }

/-- ROLL active and the timeline counting at frame `f`. -/
def rollingAt (f : Nat) (s : State) : State :=
  s.modTimeline fun t =>
    { t with counter := f, counting := true, roll := { t.roll with raw := true, filtered := true } }

/-- Another cue queue. -/
def withCues (l : List Cue) (s : State) : State := { s with playback := { s.playback with cues := l } }

/-- Other lines. -/
def levels (roll rev punch : Bool) : LineLevels := { roll, rev, punch }

/-! ### Well-formedness: the one check, that a frame fits -/

theorem test_cue_of_54_does_not_fit :
    (Instr.cue 0 (List.replicate 54 { frame := 0, strip := 0, field := 0, value := value [] })).wellFormed = false := by
  decide

theorem test_cue_of_53_fits :
    (Instr.cue 0 (List.replicate 53 { frame := 0, strip := 0, field := 0, value := value [] })).wellFormed = true := by
  decide

theorem test_patch_of_255_does_not_fit :
    (Instr.patchSet 0 0 (List.replicate 255 { kind := 0, first := 0, second := 0, flags := 0 })).wellFormed = false := by
  decide +kernel

theorem test_patch_of_254_fits :
    (Instr.patchSet 0 0 (List.replicate 254 { kind := 0, first := 0, second := 0, flags := 0 })).wellFormed = true := by
  decide +kernel

/-! ### Frames written out from R164, R177, R178 and R180 -/

theorem test_frame_null : readFrame 1 [0x00, 0x00, 0x00, 0x00] = .request (.null 1) := by decide +kernel

/-- Section 9.1, transaction T1. -/
theorem test_frame_readRun : readFrame 1 [0x06, 0x00, 0x00, 0x02, 0x08, 0x02] = .request (.readRun 1 8 2) := by
  decide +kernel

/-- Section 9.1, transaction T2: 9,000 is 2328H. -/
theorem test_frame_move_posted :
    readFrame 1 [0x01, 0x01, 0x00, 0x11, 0x0A, 0x00, 0x00, 0x00, 0x23, 0x28, 0, 0, 0, 0, 0, 0, 0, 0, 0, 0, 0] =
      .request (.move 1 true 10 0 0 0 (value [0x23, 0x28])) := by decide +kernel

/-- SET-BUS 18 with GAIN 40,000 (9C40H). -/
theorem test_frame_setBus :
    readFrame 3 [0x10, 0x00, 0x00, 0x07, 0x12, 0x02, 0x00, 0x9C, 0x40, 0x00, 0x00] =
      .request (.setBus 3 18 2 0 40000 0 0) := by decide +kernel

theorem test_frame_yield : readFrame 0 [0x22, 0x00, 0x00, 0x03, 0x01, 0x10, 0x02] = .request (.yield 0 1 16 2) := by
  decide +kernel

/-- LOCATE 12,000 (2EE0H). -/
theorem test_frame_locate :
    readFrame 0 [0x31, 0x00, 0x00, 0x04, 0x00, 0x00, 0x2E, 0xE0] = .request (.locate 0 12000) := by decide +kernel

/-- OPEN-PASS with marks 2,000 (07D0H) and 900 (0384H). -/
theorem test_frame_openPass :
    readFrame 3 [0x40, 0x00, 0x00, 0x04, 0x07, 0xD0, 0x03, 0x84] = .request (.openPass 3 2000 900) := by decide +kernel

/-- One cue: frame 501, strip 12, FADER 10,000 (2710H). -/
theorem test_frame_cue :
    readFrame 3 [0x42, 0x00, 0x00, 0x14, 0x01, 0x00, 0x00, 0x01, 0xF5, 0x0C, 0x00,
        0x27, 0x10, 0, 0, 0, 0, 0, 0, 0, 0, 0, 0, 0] =
      .request (.cue 3 [{ frame := 501, strip := 12, field := 0, value := value [0x27, 0x10] }]) := by decide +kernel

/-- Patch entry 112 selects INPUT 3 5 with safe-on-1. -/
theorem test_frame_patchSet :
    readFrame 0 [0x50, 0x00, 0x00, 0x06, 0x70, 0x01, 0x04, 0x03, 0x05, 0x02] =
      .request (.patchSet 0 112 [{ kind := 4, first := 3, second := 5, flags := 2 }]) := by decide +kernel

theorem test_frame_clear : readFrame 1 [0x62, 0x00, 0x00, 0x02, 0x04, 0x00] = .request (.clear 1 0x0400) := by
  decide +kernel

theorem test_frame_too_short : readFrame 0 [0x60, 0x00, 0x00] = .framing := by decide +kernel
theorem test_frame_truncated : readFrame 0 [0x06, 0x00, 0x00, 0x02, 0x08] = .framing := by decide +kernel
theorem test_frame_wrong_length : readFrame 0 [0x06, 0x00, 0x00, 0x01, 0x08] = .length := by decide +kernel
theorem test_frame_over_limit : readFrame 0 [0x06, 0x00, 0x03, 0xFD] = .length := by decide +kernel
theorem test_frame_unknown : readFrame 0 [0x0A, 0x00, 0x00, 0x00] = .unknown := by decide +kernel

/-- Bits come most significant first, and a part byte is dropped (R163, R164). -/
theorem test_bits_to_bytes :
    bytesOfBits [true, false, false, false, false, false, true, true, true, true] = [0x83] := by decide +kernel

/-! ### Arithmetic (sections 1.2, 2.3, 2.7, 2.8, 3.6, 3.8) -/

theorem test_trimmed_faders :
    trimmed 12000 20000 = 14648 ∧ trimmed 40000 30000 = 65535 ∧ trimmed 1 8192 = 1 ∧ trimmed 12000 20480 = 15000 ∧
      trimmed 13000 20480 = 16250 := by decide +kernel

theorem test_weighted_faders :
    weighted 12000 8000 = 5859 ∧ weighted 16384 8192 = 8192 ∧ weighted 65535 16384 = 65535 := by decide +kernel

/-- A cell on its way from `a` to `b` with length `l`, after step `k`. -/
def rampAt (a b l k : Nat) : Nat := (Cell.advance { current := 0, start := a, target := b, length := l, step := k - 1 }).current

theorem test_ramp_up : rampAt 0 8202 64 1 = 128 ∧ rampAt 0 8202 64 32 = 4101 ∧ rampAt 0 8202 64 64 = 8202 := by
  decide +kernel

theorem test_ramp_down :
    rampAt 8202 100 3 1 = 5502 ∧ rampAt 8202 100 3 2 = 2801 ∧ rampAt 8202 100 3 3 = 100 ∧
      rampAt 4101 0 64 1 = 4037 ∧ rampAt 4101 0 64 32 = 2051 := by decide +kernel

theorem test_ramp_reversed : rampAt 8192 16384 64 32 = 12288 ∧ rampAt 8192 0 64 32 = 4096 := by decide +kernel

theorem test_rounding :
    scaled 8192 16384 = 1 ∧ scaled (-8192) 16384 = 0 ∧ scaled (-12288) 16384 = -1 ∧ scaled (-24576) 16384 = -1 ∧
      scaled 40960 16384 = 3 ∧ scaled (-40960) 16384 = -2 := by decide +kernel

theorem test_saturation :
    sat24 (scaled 196608000000 16384) = 8388607 ∧ overloads (scaled 196608000000 16384) = true ∧
      scaled 68719468544 16384 = 4194304 ∧ scaled (-137438961664) 16384 = -8388608 ∧
      overloads (scaled (-137438961664) 16384) = false ∧ overloads (scaled (-137438970000) 16384) = true := by
  decide +kernel

theorem test_gain_ramp :
    scaled 196608000000 11392 = 8343750 ∧ overloads (scaled 196608000000 11520) = true ∧
      scaled 24576000000 256 = 23438 := by decide +kernel

theorem test_polarity : polarize true (-8388608) = 8388607 ∧ polarize true 5 = -5 ∧ polarize false 5 = 5 := by
  decide +kernel

theorem test_meter :
    Meter.take 2 false (-4194304) { value := 0, hold := 0 } = { value := 4194304, hold := 2 } ∧
      Meter.take 2 false 4194304 { value := 4194304, hold := 1 } = { value := 4194304, hold := 1 } ∧
      Meter.take 2 true 0 { value := 4194304, hold := 2 } = { value := 4194304, hold := 1 } ∧
      Meter.take 2 true 0 { value := 4194304, hold := 0 } = { value := 3670016, hold := 0 } ∧
      Meter.take 2 true 0 { value := 3211264, hold := 0 } = { value := 2809856, hold := 0 } := by decide +kernel

theorem test_samples_per_frame :
    samplesPerFrame .k48 .fps24 = 2000 ∧ samplesPerFrame .k48 .fps25 = 1920 ∧ samplesPerFrame .k96 .fps30 = 3200 := by
  decide +kernel

/-! ### Ports and windows (sections 9.1, 9.2) -/

/-- Port 1 as in the transactions of section 9.1: WATCH and REFUSED enabled, strip 10 held by port 2. -/
def desk91 : State :=
  (State.reset.modPort 1 fun q => { q with enableSet := 0x401 }).modStrip 10 fun r => { r with holder := some 2 }

theorem test_readRun_reply :
    ((after (.readRun 1 8 2) desk91).port 1).pointer = 10 ∧
      (replyOf 1 (.readRun 1 8 2) desk91).map (fun r => (r.status, r.payload.length)) = some (.ok, 87) := by
  decide +kernel

theorem test_posted_move_refused :
    ((after (.move 1 true 10 0 0 0 (value [0x23, 0x28])) desk91).port 1).refusals = 1 ∧
      ((after (.move 1 true 10 0 0 0 (value [0x23, 0x28])) desk91).port 1).pendingSet = 0x400 ∧
      (after (.move 1 true 10 0 0 0 (value [0x23, 0x28])) desk91).attn 1 = true ∧
      replyOf 1 (.move 1 true 10 0 0 0 (value [0x23, 0x28])) desk91 = none := by decide +kernel

theorem test_transaction_begin_idle_reply :
    ((after (.transactionBegin 1) (desk91.modPort 1 fun q => { q with pendingSet := 0x400 })).port 1).shiftOut =
      [0xFF, 0x00, 0x00, 0x00, 0x04, 0x00] := by decide +kernel

/-- The idle reply of a port with nothing pending, and 0 for the byte clocked beyond its end (R163). -/
theorem test_transaction_shifts_zeros_after_the_reply :
    (after (.transactionBegin 1) State.reset).sdo 1 56 = List.replicate 8 true ++ List.replicate 48 false ∧
      State.reset.sdo 1 56 = [] := by decide +kernel

theorem test_frame_rejected_reply :
    replyOf 1 (.frameRejected 1 [false, true, true, false, false, false, false, true]) desk91 =
      some { status := .framing, code := 0x61, payload := [] } := by decide +kernel

theorem test_status_reply :
    (replyOf 1 (.status 1) (desk91.modPort 1 fun q => { q with pendingSet := 0x400, refusals := 1 })).map (·.payload) =
      some [0x04, 0x00, 0x04, 0x01, 0x01] := by decide +kernel

theorem test_clear_refused :
    ((after (.clear 1 0x400) (desk91.modPort 1 fun q => { q with pendingSet := 0x401, refusals := 7 })).port 1).refusals =
        0 ∧
      ((after (.clear 1 0x400) (desk91.modPort 1 fun q => { q with pendingSet := 0x401, refusals := 7 })).port 1).pendingSet =
        0x001 := by decide +kernel

theorem test_null_leaves_no_reply : replyOf 1 (.null 1) desk91 = none := by decide +kernel

theorem test_enable_drops_reserved_bits : ((after (.enable 1 0xF041) State.reset).port 1).enableSet = 0x041 := by
  decide +kernel

/-- The overlapping windows of section 9.2. -/
def desk92 : State :=
  State.reset.modPort 1 fun q =>
    { q with
      windows := #v[{ enabled := true, first := 0, last := 39, base := 40, viewOnly := false },
        { enabled := true, first := 32, last := 47, base := 140, viewOnly := true },
        { enabled := true, first := 48, last := 63, base := 150, viewOnly := false }, Window.disabled] }

/-- Reads and changes of a fader through port 1's windows answer these statuses. -/
def moveThrough (k : Byte) : Option Status := statusOf 1 (.move 1 false k 0 0 0 (value [1, 2])) desk92

theorem test_windows_translate :
    ((after (.move 1 false 35 0 0 0 (value [1, 2])) desk92).strip 75).fader = 258 ∧ moveThrough 40 = some .view ∧
      ((after (.move 1 false 56 0 0 0 (value [1, 2])) desk92).strip 158).fader = 258 ∧ moveThrough 60 = some .range ∧
      moveThrough 70 = some .unmapped := by decide +kernel

theorem test_read_through_windows :
    ((replyOf 1 (.readRun 1 56 4) desk92).map fun r =>
        (r.payload[2]?, r.payload[45]?, (r.payload.drop 87) == List.replicate 86 0)) =
      some (some 158, some 159, true) ∧
      ((after (.readRun 1 56 4) desk92).port 1).pointer = 60 := by decide +kernel

theorem test_readNext_at_the_end :
    ((after (.readNext 1 2) (State.reset.modPort 1 fun q => { q with pointer := 255 })).port 1).pointer = 256 ∧
      (replyOf 1 (.readNext 1 2) (State.reset.modPort 1 fun q => { q with pointer := 255 })).map (·.payload) =
        some (2 :: List.replicate 86 0) := by decide +kernel

theorem test_windowSet :
    ((after (.windowSet 1 3 1 10 20 99 1) State.reset).port 1).windows[3] =
        { enabled := true, first := 10, last := 20, base := 99, viewOnly := true } ∧
      statusOf 1 (.windowSet 1 0 1 20 10 0 0) State.reset = some .range := by decide +kernel

theorem test_windowRead :
    (replyOf 1 (.windowRead 1) desk92).map (fun r => r.payload.take 12) =
      some [0, 1, 0, 39, 40, 0, 1, 1, 32, 47, 140, 1] := by decide +kernel

/-! ### Strips (sections 1.4 to 1.10) -/

/-- Strip 50 in a TRIM punch by port 1, section 7.3: shadow fader 12,000. -/
def desk73 (ws : WriteState) (toucher : Option PortId) (trim : Nat) : State :=
  (rollingAt 2000 (openBy 0 State.reset)).modStrip 50 fun r =>
    { r with
      mode := .trim, dest := .stem 2, shadowFader := some 12000, mute := false, trim, writeState := ws, toucher }

theorem test_move_add_in_trim :
    ((after (.move 1 false 50 0 1 0 (value [0, 0, 0x10, 0])) (desk73 .writing (some 1) 16384)).strip 50).trim = 20480 ∧
      ((after (.move 1 false 50 0 1 0 (value [0, 0, 0x10, 0])) (desk73 .writing (some 1) 16384)).used 50).fader = 15000 ∧
      (after (.move 1 false 50 0 1 0 (value [0, 0, 0x10, 0])) (desk73 .writing (some 1) 16384)).writing.takes =
        [.move 2000 50 1 (.trim 20480)] := by decide +kernel

/-- The mute group of section 1.5. -/
def desk15 : State :=
  ((((((openBy 3 State.reset).modStrip 20 fun r => { r with mute := false }).modStrip 22 fun r =>
    { r with mute := false, holder := some 2 }).modStrip 23 fun r => { r with mute := false }).modStrip 24 fun r =>
    { r with mute := false, mode := .playback }).modStrip 25 fun r =>
    { r with mute := false, mode := .touch, writeState := .writing, toucher := some 1 }).modPort 2 fun q =>
    { q with watches := [{ strip := 23, hit := false, mover := none }] }

theorem test_flags_mute_group :
    replyOf 1 (.flags 1 false 20 6 0 1 1) desk15 =
        some { status := .held, code := 0x02, payload := [4, 0x00, 0x14] } ∧
      ([20, 21, 22, 23, 24, 25].map fun n => ((after (.flags 1 false 20 6 0 1 1) desk15).strip n).mute) =
        [true, true, false, true, false, true] := by decide +kernel

theorem test_flags_mute_group_effects :
    (after (.flags 1 true 20 6 0 1 1) desk15).writing.takes = [.move 0 25 1 (.mute true)] ∧
      ((after (.flags 1 true 20 6 0 1 1) desk15).port 2).watches = [{ strip := 23, hit := true, mover := some 1 }] ∧
      ((after (.flags 1 true 20 6 0 1 1) desk15).port 1).refusals = 1 := by decide +kernel

/-- Strip 30 of section 1.6, and premix 5 of width 1. -/
def desk16 : State :=
  { State.reset.modStrip 30 fun r =>
      { r with mute := false, dest := .premix 2, pan := [entry 0 16384, entry 1 8000] } with
    busTable := { State.reset.busTable with premixWidth := State.reset.busTable.premixWidth.set 5 1 } }

theorem test_setRoute_shape :
    statusOf 0 (.setRoute 0 30 ⟨0, 0, 0⟩ ⟨1, 5⟩ 0 (value [])) desk16 = some .shape ∧
      statusOf 0 (.setRoute 0 31 ⟨2, 3, 0⟩ ⟨1, 4⟩ 0 (value [])) desk16 = some .shape ∧
      statusOf 0 (.setRoute 0 31 ⟨2, 3, 0⟩ ⟨2, 2⟩ 0 (value [])) desk16 = some .ok := by decide +kernel

theorem test_setRoute_cut :
    ((after (.setRoute 0 30 ⟨0, 0, 0⟩ ⟨1, 5⟩ 1 (value [1, 0, 0x40, 0])) desk16).strip 30).dest = .premix 5 ∧
      ((after (.setRoute 0 30 ⟨0, 0, 0⟩ ⟨1, 5⟩ 1 (value [1, 0, 0x40, 0])) desk16).cells 30).toList.map (·.current) =
        16384 :: List.replicate 11 0 := by decide +kernel

theorem test_setStrip_writes_the_record :
    (after (.setStrip 0 5 ⟨1, 3, 7⟩ 1 ⟨2, 6⟩ 1000 0 (value [1, 2, 0x40, 0]) 1 1) State.reset).strip 5 =
      { Strip.reset with
        source := .input 3 7, inverted := true, dest := .stem 6, fader := 1000, mute := false, pan := [entry 2 16384],
        mode := .playback, linePunch := true } := by decide +kernel

/-- Strip 50 WRITING in TRIM under its line punch alone, with a trim to return. -/
def trimPunched : State :=
  ((desk73 .writing none 20480).modStrip 50 fun r => { r with linePunch := true }).modTimeline fun t =>
    { t with punch := { t.punch with filtered := true } }

/-- A whole record queues the fader's record and then the punch-out of the mode (R25), and a changed route is a cut
to the targets under the new mode, which plays the shadow (R10). Line punch off ends a punch with RELEASE, which returns
the trim, before the mode changes (R133, R139). -/
theorem test_setStrip_changes_the_mode_last :
    (after (.setStrip 1 8 ⟨0, 0, 0⟩ 0 ⟨0, 0⟩ 900 0 (value [1, 0, 0x40, 0]) 0 0)
        ((rollingAt 7 (openBy 3 State.reset)).modStrip 8 fun r =>
          { r with mute := false, mode := .write, writeState := .writing })).writing.takes =
        [.move 7 8 1 (.fader 900), .punchOut 7 8 .modeChange] ∧
      ((after (.setStrip 1 8 ⟨0, 0, 0⟩ 0 ⟨2, 1⟩ 16384 0 (value [1, 0, 0x40, 0]) 1 0)
        ((openBy 3 State.reset).modStrip 8 fun r =>
          { r with mute := false, dest := .stem 0, shadowFader := some 12000 })).cells 8)[0] = Cell.settledAt 12000 ∧
      ((fun t : State => decide (t.writing.takes = [.punchOut 2000 50 .release] ∧ (t.strip 50).trim = 16384 ∧
          (t.strip 50).mode = .live ∧ (t.strip 50).writeState = .off))
        (after (.setStrip 1 50 ⟨0, 0, 0⟩ 0 ⟨2, 2⟩ 16384 0 (value [1, 0, 0x40, 0]) 0 0) trimPunched)) = true := by
  decide +kernel

theorem test_setMode_onto_a_shadow :
    ((after (.setMode 0 7 1) ((openBy 3 State.reset).modStrip 7 fun r =>
        { r with mute := false, dest := .stem 0, shadowFader := some 12000 })).cells 7)[0].target = 12000 ∧
      ((after (.setMode 0 7 3) (openBy 3 State.reset)).strip 7).writeState = .ready := by decide +kernel

theorem test_setMode_ends_a_punch :
    (after (.setMode 1 50 0) (desk73 .writing (some 1) 20480)).writing.takes = [.punchOut 2000 50 .modeChange] ∧
      ((after (.setMode 1 50 0) (desk73 .writing (some 1) 20480)).strip 50).trim = 16384 := by decide +kernel

/-- The two cells of section 2.7, at the reversal. -/
theorem test_pan_moved_across_channels :
    ((after (.move 0 false 5 2 0 0 (value [1, 1, 0x40, 0]))
      ((State.reset.modStrip 5 fun r => { r with mute := false, dest := .stem 1 }).modCells 5 fun c _ =>
        Cell.settledAt (if c = 0 then 16384 else 0))).cells 5).toList.take 3 =
      [{ current := 16384, start := 16384, target := 0, length := 64, step := 0 },
       { current := 0, start := 0, target := 16384, length := 64, step := 0 }, Cell.settledAt 0] := by decide +kernel

theorem test_readCells :
    (replyOf 0 (.readCells 0 1 0) State.reset).map (·.payload) =
        some [0, 64, 1, 0x40, 0, 0x40, 0, 0x40, 0, 0, 64, 0, 64] ∧
      (replyOf 0 (.readCells 0 0 0) State.reset).map (·.payload.length) = some 123 := by decide +kernel

theorem test_setRamp :
    (after (.setRamp 0 0) State.reset).engine.rampLength = 1 ∧
      (after (.setRamp 0 2000) State.reset).engine.rampLength = 1024 ∧
      (after (.setRamp 0 3) State.reset).engine.rampLength = 3 := by decide +kernel

/-! ### Buses (sections 3.2, 3.3, 3.5, 3.6) -/

/-- Premix 4 of section 3.2: held by port 1, with two strips that feed it. -/
def desk32 : State :=
  ((State.reset.modBus 4 fun b => { b with holder := some 1 }).modStrip 60 fun r =>
    { r with dest := .premix 4, pan := [entry 0 16384, entry 1 16384] }).modStrip 61 fun r =>
    { r with dest := .premix 4, pan := [entry 2 16384], shadowPan := some [entry 4 16384] }

theorem test_setBus_statuses :
    statusOf 2 (.setBus 2 4 2 0 12000 0 0) desk32 = some .held ∧
      statusOf 1 (.setBus 1 4 1 2 0 0 0) desk32 = some .inUse ∧
      statusOf 1 (.setBus 1 4 5 3 0 0 0) desk32 = some .ok ∧
      statusOf 1 (.setBus 1 4 8 0 0 0 0) desk32 = some .shape ∧
      statusOf 1 (.setBus 1 4 4 0 0 2 0) desk32 = some .range ∧
      statusOf 1 (.setBus 1 4 2 0 0 2 2) desk32 = some .ok := by decide +kernel

theorem test_setBus_gain_cell :
    (after (.setBus 1 4 2 0 12000 0 0) desk32).engine.gainCells[4] =
        { current := 16384, start := 16384, target := 12000, length := 64, step := 0 } ∧
      (after (.setBus 1 4 2 0 12000 0 0) desk32).engine.gainCells[5] = Cell.settledAt 16384 ∧
      ((after (.setBus 1 4 2 0 12000 0 0) desk32).bus 4).gain = 12000 := by decide +kernel

theorem test_setMaster_in_use :
    statusOf 3 (.setMaster 3 4) (State.reset.modStrip 3 fun r =>
        { r with dest := .stem 0, pan := [entry 0 16384, entry 5 8000] }) = some .inUse ∧
      (after (.setMaster 3 4) State.reset).busTable.masterWidth = 4 := by decide +kernel

theorem test_busRead :
    (replyOf 0 (.busRead 0 4 1) desk32).map (·.payload) = some [12, 0, 1, 4, 0, 6, 0x40, 0, 0, 0, 1, 0] ∧
      statusOf 0 (.busRead 0 10 15) desk32 = some .range := by decide +kernel

theorem test_clearClip :
    ((after (.clearClip 0 0x00080000) ((State.reset.modBus 19 fun b => { b with clip := true }).modBus 3 fun b =>
        { b with clip := true })).bus 19).clip = false ∧
      (replyOf 0 (.clearClip 0 0x00080000) ((State.reset.modBus 19 fun b => { b with clip := true }).modBus 3 fun b =>
        { b with clip := true })).map (·.payload) = some [0, 0, 0, 8] := by decide +kernel

theorem test_meterConfig : (after (.meterConfig 0 2) State.reset).busTable.holdSetting = 2 := by decide +kernel

theorem test_meterRead :
    (replyOf 0 (.meterRead 0) State.reset).map (fun r => (r.payload.length, r.payload.take 2)) =
      some (438, [12, 100]) := by decide +kernel

/-! ### Positions (chapter 4) -/

/-- Ports 0 and 1 hold runs as in section 4.3, and port 0 touches strip 120. -/
def desk43 : State :=
  (((State.reset.modStrip 10 fun r => { r with holder := some 0 }).modStrip 45 fun r =>
    { r with holder := some 1 }).modStrip 120 fun r => { r with toucher := some 0 }).modBus 16 fun b =>
    { b with holder := some 0 }

theorem test_claim_refused :
    (replyOf 2 (.claim 2 0 10 16) desk43) = some { status := .held, code := 0x20, payload := [0, 10, 0] } ∧
      (replyOf 2 (.claim 2 0 112 16) desk43) = some { status := .touched, code := 0x20, payload := [8, 120, 0] } ∧
      ((after (.claim 2 0 10 16) desk43).strip 16).holder = none := by decide +kernel

theorem test_claim_of_a_run :
    ([15, 16, 31, 32].map fun n => ((after (.claim 2 0 16 16) desk43).strip n).holder) = [none, some 2, some 2, none] := by
  decide +kernel

theorem test_release_twice :
    (replyOf 1 (.release 1 0 40 16) desk43).map (·.payload) = some [1] ∧
      ((after (.release 1 0 40 16) desk43).strip 45).holder = none ∧
      (replyOf 2 (.release 2 0 40 16) desk43).map (·.payload) = some [0] := by decide +kernel

theorem test_yield_bus :
    ((after (.yield 0 1 16 2) desk43).bus 16).holder = some 2 ∧
      ((after (.yield 0 1 16 2) desk43).port 2).pendingSet = 0x004 := by decide +kernel

theorem test_touch_loads_the_used_fader :
    ((after (.touch 1 50) (desk73 .ready none 16384)).strip 50).fader = 12000 ∧
      (after (.touch 1 50) (desk73 .ready none 16384)).writing.takes =
        [.punchIn 2000 50 (some 1) .trim 12000 false [entry 0 16384] (some 16384)] ∧
      statusOf 2 (.touch 2 45) desk43 = some .held := by decide +kernel

theorem test_untouch_punches_out :
    (after (.untouch 1 50) (desk73 .writing (some 1) 20480)).writing.takes = [.punchOut 2000 50 .release] ∧
      ((after (.untouch 1 50) (desk73 .writing (some 1) 20480)).strip 50).trim = 16384 ∧
      ((after (.untouch 1 50) (desk73 .writing (some 1) 20480)).strip 50).writeState = .ready := by decide +kernel

/-- Port 0 watches strips 40 and 41 (section 4.4). -/
def desk44 : State :=
  State.reset.modPort 0 fun q =>
    { q with watches := [{ strip := 40, hit := false, mover := none }, { strip := 41, hit := true, mover := some 2 }] }

theorem test_watch_add_and_remove :
    statusOf 0 (.watchAdd 0 40) desk44 = some .duplicate ∧
      ((after (.watchAdd 0 42) desk44).port 0).watches.length = 3 ∧
      ((after (.watchRemove 0 40) desk44).port 0).watches = [{ strip := 41, hit := true, mover := some 2 }] := by
  decide +kernel

theorem test_watch_hit :
    ((after (.move 1 false 40 0 0 0 (value [1, 2])) desk44).port 0).watches.head? =
        some { strip := 40, hit := true, mover := some 1 } ∧
      ((after (.move 1 false 40 0 0 0 (value [1, 2])) desk44).port 0).pendingSet = 0x001 ∧
      ((after (.move 0 false 40 0 0 0 (value [1, 2])) desk44).port 0).watches = (desk44.port 0).watches := by
  decide +kernel

theorem test_watchRead :
    (replyOf 0 (.watchRead 0) desk44).map (·.payload) = some [2, 40, 0, 0xFF, 41, 1, 2] ∧
      ((after (.watchRead 0) desk44).port 0).watches.map (·.hit) = [false, false] := by decide +kernel

theorem test_signal :
    ((after (.signal 3 0 2) State.reset).port 0).signals = #v[false, false, true, false] ∧
      ((after (.signal 3 0 2) State.reset).port 0).pendingSet = 0x002 ∧
      statusOf 3 (.signal 3 3 2) State.reset = some .self := by decide +kernel

theorem test_clearSignal :
    (replyOf 0 (.clearSignal 0 2) (State.reset.modPort 0 fun q =>
      { q with signals := #v[false, true, true, false] })).map (·.payload) = some [4] := by decide +kernel

/-- Snapshot A of section 4.6, with strip 3 as it stands before the first RECALL. -/
def desk46 : State :=
  (State.reset.modStrip 3 fun r =>
    { r with mute := false, dest := .stem 0, fader := 12000, inverted := true }).modPort 0 fun q =>
    { q with
      recallStack :=
        [{ strip := 3, fader := 12000, mute := false, pan := [entry 0 16384, entry 5 8000], inverted := false }] }

theorem test_save :
    ((after (.save 0 3) desk46).port 0).recallStack.head? =
        some { strip := 3, fader := 12000, mute := false, pan := [entry 0 16384], inverted := true } ∧
      (replyOf 0 (.save 0 3) desk46).map (·.payload) = some [2] := by decide +kernel

theorem test_recall_is_a_cut :
    ((after (.recallStrip 0) desk46).cells 3)[5].current = 5859 ∧
      ((after (.recallStrip 0) desk46).strip 3).inverted = false ∧
      replyOf 0 (.recallStrip 0) desk46 = some { status := .ok, code := 0x2B, payload := [3, 0] } := by decide +kernel

theorem test_attach :
    (after (.attach 2) (State.reset.modPort 2 fun _ => PortState.fresh false .idle)).port 2 = PortState.fresh true .idle := by
  decide +kernel

/-- Port 2 of section 4.7, with one touched strip and one held. -/
def desk47 : State :=
  (((rollingAt 9 (openBy 3 State.reset)).modStrip 20 fun r =>
    { r with mode := .touch, writeState := .writing, holder := some 2, toucher := some 2 }).modStrip 21 fun r =>
    { r with mode := .latch, writeState := .writing, holder := some 2, toucher := some 2 }).modPort 2 fun q =>
    { q with watches := [{ strip := 40, hit := true, mover := some 1 }] }

theorem test_detach :
    ((after (.detach 2) desk47).strip 20).writeState = .ready ∧ ((after (.detach 2) desk47).strip 21).writeState = .latched ∧
      ((after (.detach 2) desk47).strip 20).holder = none ∧
      (after (.detach 2) desk47).writing.takes = [.punchOut 9 20 .release] ∧
      ((after (.detach 2) desk47).port 2).watches = [] ∧ ((after (.detach 2) desk47).port 0).pendingSet = 0x008 := by
  decide +kernel

/-! ### Timeline (chapter 5) -/

theorem test_lineConfig :
    (after (.lineConfig 0 2 1 10) State.reset).timeline.punch =
        { raw := false, activeLow := true, filter := 10, count := 0, filtered := false } ∧
      statusOf 0 (.lineConfig 0 3 0 0) State.reset = some .range := by decide +kernel

theorem test_locate :
    (after (.locate 0 12000) (State.reset.modTimeline fun t => { t with phase := 700 })).timeline.settle = 4000 ∧
      (after (.locate 0 12000) (State.reset.modTimeline fun t => { t with phase := 700 })).timeline.counter = 12000 ∧
      (after (.locate 0 12000) (State.reset.modTimeline fun t => { t with phase := 700 })).timeline.phase = 0 ∧
      statusOf 0 (.locate 0 16777216) State.reset = some .range := by decide +kernel

theorem test_locate_ends_punches_in_strip_order :
    (after (.locate 0 12000) ([7, 44, 120].foldl (fun s n => s.modStrip n fun r =>
      { r with mode := .write, writeState := .writing }) (rollingAt 12300 (openBy 3 State.reset)))).writing.takes =
      [.punchOut 12000 7 .locate, .punchOut 12000 44 .locate, .punchOut 12000 120 .locate] := by decide +kernel

/-- The worked example of section 7.5: strips 7, 44 and 120 WRITING, high mark 960, and so many records waiting. -/
def filling (waiting : Nat) : State :=
  (fun s : State =>
      { s with
        playback := { s.playback with highMark := 960 },
        writing := { s.writing with takes := List.replicate waiting (.move 1 9 0 (.mute true)) } })
    ([7, 44, 120].foldl (fun s n => s.modStrip n fun r => { r with mode := .write, writeState := .writing })
      (rollingAt 12300 (openBy 3 State.reset)))

/-- Section 7.5: from 958 records the locate goes to 961 and raises HIGH at the take port; from 1,023 strip 7's record
fills the queue, which raises nothing, and the two after it are dropped, counted lost, and raise LOST. The locate itself
raises STREAM there (R122). -/
theorem test_filling_the_take_queue :
    ((fun t : State => decide (t.writing.takes.length = 961 ∧ t.writing.lost = 0 ∧ (t.port 3).pendingSet = 0x140))
      (after (.locate 0 12000) (filling 958))) = true ∧
    ((fun t : State => decide (t.writing.takes.length = 1024 ∧ t.writing.takes[1023]? = some (.punchOut 12000 7 .locate) ∧
        t.writing.lost = 2 ∧ (t.port 3).pendingSet = 0x240 ∧ (t.strip 120).writeState = .ready))
      (after (.locate 0 12000) (filling 1023))) = true := by decide +kernel

theorem test_loopSet :
    (after (.loopSet 0 1000 1002 1) State.reset).timeline.loopEnabled = true ∧
      statusOf 0 (.loopSet 0 1002 1000 1) State.reset = some .range ∧
      statusOf 0 (.loopSet 0 1002 1000 0) State.reset = some .ok := by decide +kernel

theorem test_timelineConfig :
    (after (.timelineConfig 0 25) State.reset).timeline.rate = .fps25 ∧
      statusOf 0 (.timelineConfig 0 25) (rollingAt 0 State.reset) = some .rolling := by decide +kernel

theorem test_timelineRead :
    (replyOf 0 (.timelineRead 0) (rollingAt 12000 State.reset)).map (fun r => r.payload.take 12) =
      some [0, 0, 0x2E, 0xE0, 0, 0, 24, 48, 1, 0, 0, 0] := by decide +kernel

/-- Section 5.6 at p + 31: ROLL passes its filter and the phase advances in the same period. -/
theorem test_roll_filter_passes :
    (after (.timelineSamplePeriod (levels true false false)) (State.reset.modTimeline fun t =>
      { t with counter := 1000, roll := { t.roll with raw := true, count := 31 } })).timeline =
      { Timeline.reset with
        counter := 1000, phase := 1, counting := true,
        roll := { raw := true, activeLow := false, filter := 32, count := 0, filtered := true } } := by decide +kernel

/-- R98: ROLL and PUNCH become active in one period, and a READY strip with line punch on punches in at it. -/
theorem test_roll_and_punch_rise_together :
    ((fun t : State => decide (t.timeline.counting = true ∧ (t.strip 7).writeState = .writing ∧
        t.writing.takes = [.punchIn 0 7 none .touch 12000 false [entry 0 16384] none]))
      (after (.lineChange .punch (levels true false true)) (((openBy 3 State.reset).modStrip 7 fun r =>
        { r with
          mute := false, mode := .touch, writeState := .ready, linePunch := true, shadowFader := some 12000 }).modTimeline
            fun t => { t with roll := { t.roll with filter := 1 }, punch := { t.punch with filter := 1 } }))) = true := by
  decide +kernel

/-- Section 5.6 at p + 6,030: the boundary at the loop end is a wrap. -/
theorem test_loop_wrap :
    (after (.frameBoundary (levels true false false)) ((rollingAt 1002 State.reset).modTimeline fun t =>
      { t with phase := 1999, loopStart := 1000, loopEnd := 1002, loopEnabled := true })).timeline =
      { (rollingAt 1000 State.reset).timeline with
        settle := 4000, counting := false, loopStart := 1000, loopEnd := 1002, loopEnabled := true } := by decide +kernel

theorem test_direction_change :
    (after (.lineChange .rev (levels true true false)) ((rollingAt 2400 State.reset).modTimeline fun t =>
      { t with phase := 720, rev := { t.rev with count := 31, raw := true } })).timeline.reverse = true ∧
      (after (.lineChange .rev (levels true true false)) ((rollingAt 2400 State.reset).modTimeline fun t =>
      { t with phase := 720, rev := { t.rev with count := 31, raw := true } })).timeline.settle = 4000 := by decide +kernel

/-- Frame 1,000 at the last period of a settle, with a WRITE strip READY over a shadow. -/
def settling : State :=
  ((rollingAt 1000 (openBy 3 State.reset)).modTimeline fun t => { t with settle := 1, counting := false }).modStrip 7
    fun r => { r with mute := false, mode := .write, writeState := .ready, shadowFader := some 12000 }

theorem test_settle_ends :
    ((fun t : State => decide (t.timeline.counting = true ∧ (t.strip 7).fader = 12000 ∧
      t.writing.takes = [.punchIn 1000 7 none .write 12000 false [entry 0 16384] none]))
      (after (.settleEnd (levels true false false)) settling)) = true := by decide +kernel

/-! ### Playback (chapter 6) -/

/-- Section 6.1: marks of 2,000 and 900, and a strip touched at the opening. -/
theorem test_openPass :
    ((fun t : State => decide ((t.port 3).replySlot =
        some { status := .ok, code := 0x40, payload := [0x04, 0x00, 0x03, 0x84] } ∧ (t.strip 7).writeState = .wait))
      (after (.openPass 3 2000 900) (State.reset.modStrip 7 fun r =>
        { r with mute := false, mode := .touch, dest := .stem 0, shadowFader := some 12000, toucher := some 0 }))) =
      true := by decide +kernel

theorem test_closePass_by_another_port : statusOf 1 (.closePass 1) (openBy 3 State.reset) = some .notPass := by
  decide +kernel

theorem test_closePass : (after (.closePass 3) (openBy 3 State.reset)).writing.takePort = none := by decide +kernel

/-- A FADER cue as it is sent. -/
def faderCue (frame : BitVec 32) (strip hi lo : Byte) : CueField := { frame, strip, field := 0, value := value [hi, lo] }

/-- Section 6.6: five cues taken and a sixth out of order. -/
theorem test_cue_order :
    replyOf 3 (.cue 3
      [faderCue 501 12 0x27 0x10, { frame := 501, strip := 12, field := 1, value := value [1] },
        { frame := 502, strip := 40, field := 2, value := value [1, 0, 0x4E, 0x20] }, faderCue 502 22 0x1F 0x40,
        { frame := 503, strip := 12, field := 1, value := value [0] }, faderCue 502 12 0x2A 0xF8])
      (rollingAt 500 (openBy 3 State.reset)) = some { status := .order, code := 0x42, payload := [5, 0, 5] } := by
  decide +kernel

/-- Section 6.6 at frame 503: one cue applied on arrival, one late. -/
theorem test_cue_late :
    replyOf 3 (.cue 3 [faderCue 503 12 0x2E 0xE0, faderCue 502 12 0x2A 0xF8]) (rollingAt 503 (openBy 3 State.reset)) =
        some { status := .late, code := 0x42, payload := [1, 0, 0] } ∧
      (after (.cue 3 [faderCue 503 12 0x2E 0xE0, faderCue 502 12 0x2A 0xF8])
        (rollingAt 503 (openBy 3 State.reset))).playback.stale = 1 := by decide +kernel

theorem test_boundary_applies_cues :
    ((after (.frameBoundary (levels true false false)) (withCues
      [{ frame := 502, strip := 40, value := .pan [entry 0 16384] }, { frame := 502, strip := 22, value := .fader 8000 },
        { frame := 503, strip := 12, value := .mute false }]
      ((rollingAt 501 (openBy 3 State.reset)).modTimeline fun t => { t with phase := 1999 }))).strip 22).shadowFader =
      some 8000 := by decide +kernel

theorem test_passRead :
    (replyOf 0 (.passRead 0) (openBy 3 State.reset)).map (fun r => r.payload.take 11) =
      some [1, 3, 3, 0, 0, 0, 0, 0, 64, 3, 0xC0] := by decide +kernel

theorem test_take :
    (after (.take 3 1) { openBy 3 State.reset with
      writing := { takes := [.punchOut 5 7 .loop, .move 6 8 1 (.mute true)], takePort := some 3, lost := 0 } }).writing.takes =
        [.move 6 8 1 (.mute true)] ∧
      statusOf 3 (.take 3 1) (openBy 3 State.reset) = some .empty := by decide +kernel

/-! ### Audio interface (chapter 8) -/

/-- LOCKED, with every lane UP but lane 3, which has counted `k` good markers. -/
def desk85 (k : Nat) : State :=
  { State.reset with
    audio := { State.reset.audio with
      locked := true,
      lanes := Vector.ofFn fun l =>
        { up := l != 3, markers := if l = 3 then k else 0, slots := Vector.replicate 16 0 } } }

/-- A frame whose slot 5 holds −2. -/
def frame5 : Vector LaneSample 16 := Vector.ofFn fun i => if i = 5 then BitVec.ofInt 24 (-2) else 0

theorem test_lane_counts :
    (after (.laneFrame 3 true frame5) (desk85 8)).audio.lanes[3].markers = 9 ∧
      (after (.laneFrame 3 false frame5) (desk85 9)).audio.lanes[3].markers = 0 := by decide +kernel

theorem test_lane_comes_up :
    (after (.laneUp 3 frame5) (desk85 15)).audio.lanes[3].up = true ∧
      (after (.laneUp 3 frame5) (desk85 15)).audio.lanes[3].slots[5] = -2 ∧
      (after (.laneUp 3 frame5) (desk85 15)).audio.trigger1 = false := by decide +kernel

theorem test_edge_windows :
    insideWindow .k48 62000 = true ∧ insideWindow .k48 66000 = true ∧ insideWindow .k48 61999 = false ∧
      insideWindow .k48 66001 = false := by decide +kernel

theorem test_wclkEdge_counts :
    (after (.wclkEdge 64000) { State.reset with
      audio := { State.reset.audio with measuring := true, lockCount := 7 } }).audio.lockCount = 8 ∧
      (after (.wclkTimeout) { State.reset with
        audio := { State.reset.audio with measuring := true, lockCount := 7 } }).audio.lockCount = 0 := by decide +kernel

theorem test_syncLock :
    (after .syncLock { State.reset with
      audio := { State.reset.audio with measuring := true, lockCount := 255 } }).audio.locked = true := by decide +kernel

theorem test_samplePeriodReference :
    (after .samplePeriodReference { State.reset with
      audio := { State.reset.audio with engineTaken := true } }).audio.engineTaken = false := by decide +kernel

theorem test_missingEdge : (after .missingEdge (desk85 0)).audio.missing = 1 := by decide +kernel

/-- Section 8.6 at p + 3. -/
theorem test_syncLoss :
    (after .syncLoss { desk85 0 with audio := { (desk85 0).audio with missing := 3 } }).audio.locked = false ∧
      (after .syncLoss { desk85 0 with audio := { (desk85 0).audio with missing := 3 } }).audio.lanes[0].up = false ∧
      ((after .syncLoss { desk85 0 with audio := { (desk85 0).audio with missing := 3 } }).port 0).pendingSet = 0x020 := by
  decide +kernel

/-- Entry 112 selects INPUT 3 5 with safe-on-1 (section 8.5). -/
def desk85Patched (k : Nat) : State :=
  { desk85 k with
    audio := { (desk85 k).audio with
      patch := (desk85 k).audio.patch.set 112 { selection := .input 3 5, safe0 := false, safe1 := true },
      handed := { Handed.zero with
        raw := Handed.zero.raw.set 3 (Vector.ofFn fun i => if i = 5 then (-2 : Int) else 0),
        master := Vector.ofFn fun c => (100 + c.val : Int) } } }

theorem test_outputFrame_safe :
    ((after .outputFrame (desk85Patched 0)).audio.outFrames[7])[0] = 0 ∧
      ((after .outputFrame (desk85Patched 0)).audio.outFrames[0])[11] = 111 := by decide +kernel

theorem test_outputFrame_input :
    ((after .outputFrame { desk85Patched 0 with
      audio := (desk85Patched 0).audio.modLane 3 fun _ => Lane.upWith (Vector.replicate 16 0) }).audio.outFrames[7])[0] =
      -2 := by decide +kernel

theorem test_patchSet_and_read :
    (after (.patchSet 0 112 [{ kind := 4, first := 3, second := 5, flags := 2 }]) State.reset).audio.patch[112] =
        { selection := .input 3 5, safe0 := false, safe1 := true } ∧
      (replyOf 0 (.patchRead 0 16 1) State.reset).map (·.payload) = some [1, 16, 2, 0, 0, 0] := by decide +kernel

theorem test_laneRead :
    (replyOf 0 (.laneRead 0) (desk85 8)).map (·.payload) =
      some [48, 1, 0, 0, 1, 0, 1, 0, 1, 0, 0, 8, 1, 0, 1, 0, 1, 0, 1, 0, 0, 1] := by decide +kernel

/-! ### The whole part -/

theorem test_deviceReset :
    ((after (.deviceReset .k96 #v[true, false, true, true]) (desk85 8)).port 1).attached = false ∧
      (after (.deviceReset .k96 #v[true, false, true, true]) (desk85 8)).audio.rate = .k96 ∧
      (after (.deviceReset .k96 #v[true, false, true, true]) (desk85 8)).audio.locked = false := by decide +kernel

/-- An input of 1,000 on strip 0 through a cell and a gain of unity reaches stem 0, the master and its meter. -/
def desk2 : State :=
  { (State.reset.modStrip 0 fun r => { r with mute := false, source := .input 0 0, dest := .stem 0 }).modCells 0 fun c _ =>
      Cell.settledAt (if c = 0 then 16384 else 0) with
    audio := State.reset.audio.modLane 0 fun _ => Lane.upWith (Vector.ofFn fun i => if i = 0 then (-1000 : Int) else 0) }

theorem test_engine_sample_period :
    ((fun t : State => decide ((t.engine.accumulators[16])[0] = -16384000 ∧ t.audio.handed.master[0] = -1000 ∧
      t.busTable.stemMeters[0] = { value := 1000, hold := 100 } ∧ t.busTable.tickCounter = 1))
      (after .engineSamplePeriod desk2)) = true := by decide +kernel

/-- The tick counter reaches 480 (section 3.6); where it does not, METER_TICK has no effect (log 4). -/
theorem test_meterTick :
    (after .meterTick { desk2 with busTable := { desk2.busTable with tickCounter := 479 } }).busTable.tickCounter = 0 ∧
      (after .meterTick desk2).busTable.tickCounter = 0 := by
  decide +kernel

/-- Cell 12 of strip 1 at step 63 of a ramp from 0 to 8,202 (section 2.3). -/
theorem test_cellSettle :
    ((after (.cellSettle 12) (desk2.modCells 1 fun _ _ =>
      { current := 8073, start := 0, target := 8202, length := 64, step := 63 })).engine.cell 12).current = 8202 := by
  decide +kernel

theorem test_step_takes_the_front :
    (match step { State.reset with pending := [.setRamp 0 3, .null 0] } with
      | .next t => t.engine.rampLength == 3 && decide (t.pending = [.null 0])
      | .fault _ => false
      | .refused _ => false) = true := by decide +kernel

/-! ### Witnesses: reading a translation -/

theorem reached {q : PortState} {k : Nat} {n : StripNo}
    (h : (match reachForChange q k with
      | .ok m => decide (m = n)
      | .error _ => false) = true) : reachForChange q k = .ok n := by
  revert h; cases reachForChange q k <;> simp

theorem turned {q : PortState} {k : Nat} {st : Status}
    (h : (match reachForChange q k with
      | .ok _ => false
      | .error e => decide (e = st)) = true) : reachForChange q k = .error st := by
  revert h; cases reachForChange q k <;> simp

theorem seen {q : PortState} {k : Nat} {n : StripNo}
    (h : (match reach q k with
      | .ok m => decide (m = n)
      | .error _ => false) = true) : reach q k = .ok n := by
  revert h; cases reach q k <;> simp

theorem unseen {q : PortState} {k : Nat} {st : Status}
    (h : (match reach q k with
      | .ok _ => false
      | .error e => decide (e = st)) = true) : reach q k = .error st := by
  revert h; cases reach q k <;> simp

/-- Every position of a run reaches a strip for which `f` holds. -/
theorem run_reached {q : PortState} {a : Nat} {f : StripNo → Bool}
    (h : ∀ j : Fin 16, (match reachForChange q (a + j.val) with
      | .ok m => f m
      | .error _ => false) = true) (j : Fin 16) : ∃ m, reachForChange q (a + j.val) = .ok m ∧ f m = true := by
  have := h j; revert this; cases reachForChange q (a + j.val) <;> simp

/-- Whether a list is a lawful pan list. -/
def lawfulPan (l : List PanEntry) : Bool := panShaped l && l.all fun e => decide (e.weight ≤ 16384)

theorem panLawful {l : List PanEntry} (h : lawfulPan l = true) : PanLawful l := by
  simp only [lawfulPan, Bool.and_eq_true, List.all_eq_true, decide_eq_true_eq] at h
  exact ⟨h.1, h.2⟩

theorem panAllowedOf {w : Option Nat} {l : List PanEntry}
    (h : (panShaped l && (w.all fun k => l.all fun e => decide (e.channel.val < k))) = true) : panAllowed w l := by
  simp only [panShaped, distinctChannels, Bool.and_eq_true, decide_eq_true_eq] at h
  refine ⟨h.1.1.1, h.1.1.2, h.1.2, ?_⟩
  rintro k rfl
  simpa using h.2

/-! ### Witnesses: the machine and the laws that every step keeps -/

/-- A punch under an open pass: strip 7 held, touched and writing, a cell on its ramp, a cue waiting, lists and a lane
in use, and a command in the queue. -/
def busy : State :=
  { withCues [{ frame := 501, strip := 7, value := .fader 1 }, { frame := 502, strip := 7, value := .mute true }]
      (((((rollingAt 500 (openBy 3 State.reset)).modStrip 7 fun r =>
        { r with mode := .touch, writeState := .writing, holder := some 0, toucher := some 0 }).modStrip 8 fun r =>
        { r with shadowPan := some [entry 0 16384] }).modCells 3 fun _ _ =>
        { current := 10, start := 10, target := 0, length := 64, step := 0 }).modPort 0 fun q =>
        { q with
          watches := [{ strip := 40, hit := true, mover := some 1 }],
          recallStack := [{ strip := 3, fader := 1, mute := true, pan := [entry 5 8000], inverted := false }] }) with
    audio := (desk85 3).audio, pending := [.null 0] }

theorem witness_StepTakesTheFrontCommand : busy.pending = .null 0 :: [] ∧ State.reset.pending = [] := by decide +kernel

theorem busy_steps : ∃ t, step busy = .next t := ⟨_, rfl⟩

theorem witness_StepKeepsHoldersAndTouchersLawful : busy.HandsLaw ∧ ∃ t, step busy = .next t := by
  refine ⟨⟨?_, ?_, ?_, ?_⟩, busy_steps⟩ <;> try unfold State.isAttached
  all_goals decide +kernel

theorem witness_StepKeepsPortsWithinTheirSizes : busy.PortsLaw ∧ ∃ t, step busy = .next t := by
  refine ⟨fun p => ⟨?_, ?_, ?_, ?_, ?_, ?_, ?_, ?_⟩, busy_steps⟩ <;> revert p <;> decide +kernel

theorem busy_pansLaw : busy.PansLaw where
  live_lawful n := panLawful (by revert n; decide +kernel)
  live_fits := by decide +kernel
  sources := by decide +kernel
  shadow_lawful n l h := panLawful (by
    have : ∀ n, ((busy.strip n).shadowPan.all lawfulPan) = true := by decide +kernel
    have := this n; rw [h] at this; exact this)
  cue_lawful c hc l h := by
    have : ∀ c ∈ busy.playback.cues, (match c.value with
        | .pan l => lawfulPan l
        | _ => true) = true := by decide +kernel
    have := this c hc; rw [h] at this; exact panLawful this
  snapshot_lawful p k hk := panLawful (by revert p k; decide +kernel)

theorem witness_StepKeepsPansAndSourcesLawful : busy.PansLaw ∧ ∃ t, step busy = .next t := ⟨busy_pansLaw, busy_steps⟩

/-- Whether a cell is on its ramp, its values in range. -/
def lawfulCell (c : Cell) : Bool :=
  decide (c.start ≤ 65535 ∧ c.target ≤ 65535 ∧ c.current ≤ 65535 ∧ 1 ≤ c.length ∧ c.length ≤ 1024 ∧ c.step ≤ c.length ∧
    min c.start c.target ≤ c.current ∧ c.current ≤ max c.start c.target ∧ (c.step = c.length → c.current = c.target))

theorem cellLaw {c : Cell} (h : lawfulCell c = true) : c.Law := by
  obtain ⟨h1, h2, h3, h4, h5, h6, h7, h8, h9⟩ := of_decide_eq_true h
  exact ⟨h1, h2, h3, h4, h5, h6, h7, h8, h9⟩

/-- Whether a fader and the weights of a pan are in range. -/
def lawfulValue : FieldValue → Bool
  | .fader v => decide (v ≤ 65535)
  | .pan l => l.all fun e => decide (e.weight ≤ 16384)
  | .mute _ | .trim _ => true

theorem busy_valuesLaw : busy.ValuesLaw where
  faders := by decide +kernel
  trims := by decide +kernel
  shadow_faders n v h := by
    have : ∀ n, ((busy.strip n).shadowFader.all fun v => decide (v ≤ 65535)) = true := by decide +kernel
    have := this n; rw [h] at this; exact of_decide_eq_true this
  gains := by decide +kernel
  cue_faders c hc v h := by
    have : ∀ c ∈ busy.playback.cues, lawfulValue c.value = true := by decide +kernel
    have := this c hc; rw [h] at this; exact of_decide_eq_true this
  snapshot_faders p k hk := by revert p k; decide +kernel
  weights n e he := by revert n e; decide +kernel
  shadow_weights n l h := by
    have : ∀ n, ((busy.strip n).shadowPan.all fun l => l.all fun e => decide (e.weight ≤ 16384)) = true := by
      decide +kernel
    have := this n; rw [h] at this; simpa using this
  cue_weights c hc l h := by
    have : ∀ c ∈ busy.playback.cues, lawfulValue c.value = true := by decide +kernel
    have := this c hc; rw [h] at this; simpa [lawfulValue] using this
  snapshot_weights p k hk := by revert p k; decide +kernel

theorem witness_StepKeepsCellsOnTheirRamps : busy.CellsLaw ∧ ∃ t, step busy = .next t :=
  ⟨⟨busy_valuesLaw, by decide +kernel, by decide +kernel, fun n c => cellLaw (by revert n c; decide +kernel),
    fun b => cellLaw (by revert b; decide +kernel)⟩, busy_steps⟩

theorem witness_StepKeepsTargetsInStepWithRecords : busy.TargetsLaw ∧ ∃ t, step busy = .next t :=
  ⟨⟨by decide +kernel, by decide +kernel⟩, busy_steps⟩

theorem witness_StepKeepsTheTimelineLawful : busy.TimelineLaw ∧ ∃ t, step busy = .next t := by
  refine ⟨⟨?_, ?_, ?_, ?_, ?_, ?_, ?_, ?_, ?_⟩, busy_steps⟩
  · rintro (_ | _ | _) <;> exact ⟨by decide +kernel, by decide +kernel, by decide +kernel⟩
  all_goals decide +kernel

theorem witness_StepKeepsCuesAheadInPlayOrder : busy.CuesLaw ∧ ∃ t, step busy = .next t :=
  ⟨⟨by decide +kernel, by unfold inPlayOrder; decide +kernel, by unfold ahead; decide +kernel, by decide +kernel,
    by decide +kernel⟩, busy_steps⟩

theorem busy_rolesLaw : busy.RolesLaw := by
  refine ⟨?_, ?_, ?_, ?_, ?_, ?_⟩ <;> try unfold State.isAttached
  all_goals decide +kernel

theorem busy_writingLaw : busy.WritingLaw := by
  refine ⟨by decide +kernel, fun n => ⟨?_, ?_, ?_, ?_, ?_, ?_, ?_⟩⟩ <;> revert n <;> decide +kernel

theorem witness_StepKeepsWriteStatesAndRolesLawful : busy.WritingLaw ∧ busy.RolesLaw ∧ ∃ t, step busy = .next t :=
  ⟨busy_writingLaw, busy_rolesLaw, busy_steps⟩

theorem witness_StepKeepsLanesSilentUntilUp : busy.LanesLaw ∧ ∃ t, step busy = .next t := by
  refine ⟨⟨?_, ?_, ?_, ?_, fun l => ⟨?_, ?_, ?_, ?_, ?_, ?_, ?_⟩⟩, busy_steps⟩ <;> try revert l
  all_goals decide +kernel

/-! ### Witnesses: transactions and frames -/

/-- Port 2 detached. -/
def detached2 : State := State.reset.modPort 2 fun _ => PortState.fresh false .idle

/-- Port 2 attached again within a transaction. -/
def ignored2 : State := State.reset.modPort 2 fun _ => PortState.fresh true .ignored

theorem witness_RequestsNotTakenAreIgnoredWhole :
    (Instr.status 2).sender = some 2 ∧ (detached2.port 2).attached = false ∧ (ignored2.port 2).transaction = .ignored := by
  decide +kernel

/-- An idle reply, its last bit and the bit after it, and a reply that waits. -/
theorem witness_TransactionBeginTakesTheWaitingReply :
    ((State.reset.port 2).transaction = .idle ∧ (State.reset.port 2).attached = true ∧
      (State.reset.port 2).replySlot = none ∧ 47 < 56 ∧
      47 / 8 < ([0xFF, 0, 0, 0] ++ bytes2 (((State.reset.port 2).pendingSet &&& (State.reset.port 2).enableSet).setWidth 16)
        ++ []).length ∧ 48 < 56 ∧
      ([0xFF, 0, 0, 0] ++ bytes2 (((State.reset.port 2).pendingSet &&& (State.reset.port 2).enableSet).setWidth 16)
        ++ []).length ≤ 48 / 8) ∧
      ((detached2.port 2).transaction = .idle ∧ (detached2.port 2).attached = false) ∧
      (ignored2.port 2).transaction ≠ .idle ∧ (ignored2.port 2).transaction ≠ .opened ∧
      ((after (.setRamp 2 7) State.reset).port 2).replySlot = reply 0x09 .ok [0, 7] := by decide +kernel

theorem witness_FrameIsRefusedOrTakenAsItsRequest :
    ((State.reset.port 0).takes = true ∧ frameFailure (bytesOfBits [true, false]) = some .framing) ∧
      (detached2.port 2).takes = false ∧ (ignored2.port 2).takes = false ∧
      frameFailure (bytesOfBits (List.replicate 32 false)) = none := by decide +kernel

theorem witness_EncodedRequestReadsBack :
    (Instr.cue 3 [faderCue 501 12 0x27 0x10]).sender = some 3 ∧
      (Instr.cue 3 [faderCue 501 12 0x27 0x10]).wellFormed = true := by decide +kernel

theorem witness_LowestEnabledWindowTranslates_windows :
    (desk92.port 1).takes = true ∧
      (∀ i : Fin 4, ¬((desk92.port 1).windows[i].enabled = true ∧ (desk92.port 1).windows[i].first ≤ (70 : Byte).toNat ∧
        (70 : Byte).toNat ≤ (desk92.port 1).windows[i].last)) ∧
      ((desk92.port 1).windows[(1 : Fin 4)].enabled = true ∧ (desk92.port 1).windows[(1 : Fin 4)].first ≤ (40 : Byte).toNat ∧
        (40 : Byte).toNat ≤ (desk92.port 1).windows[(1 : Fin 4)].last ∧
        (∀ j : Fin 4, j < 1 → ¬((desk92.port 1).windows[j].enabled = true ∧
          (desk92.port 1).windows[j].first ≤ (40 : Byte).toNat ∧ (40 : Byte).toNat ≤ (desk92.port 1).windows[j].last)) ∧
        (148 : StripNo).val = (desk92.port 1).windows[(1 : Fin 4)].base.val +
          ((40 : Byte).toNat - (desk92.port 1).windows[(1 : Fin 4)].first)) ∧
      ((desk92.port 1).windows[(2 : Fin 4)].enabled = true ∧ (desk92.port 1).windows[(2 : Fin 4)].first ≤ (58 : Byte).toNat ∧
        (58 : Byte).toNat ≤ (desk92.port 1).windows[(2 : Fin 4)].last ∧
        (∀ j : Fin 4, j < 2 → ¬((desk92.port 1).windows[j].enabled = true ∧
          (desk92.port 1).windows[j].first ≤ (58 : Byte).toNat ∧ (58 : Byte).toNat ≤ (desk92.port 1).windows[j].last)) ∧
        160 ≤ (desk92.port 1).windows[(2 : Fin 4)].base.val +
          ((58 : Byte).toNat - (desk92.port 1).windows[(2 : Fin 4)].first)) := by decide +kernel

theorem witness_LowestEnabledWindowTranslates_refusals :
    (desk92.port 1).takes = true ∧ reachForChange (desk92.port 1) (40 : Byte).toNat = .error .view ∧
      reach (desk92.port 1) (70 : Byte).toNat = .error .unmapped ∧ reach (desk92.port 1) (58 : Byte).toNat = .error .range :=
  ⟨by decide +kernel, turned (by decide +kernel), unseen (by decide +kernel), unseen (by decide +kernel)⟩

/-- Port 1 of section 9.2 with its surface pointer at a number. -/
def pointedAt (k : Nat) : State := desk92.modPort 1 fun q => { q with pointer := k }

/-- Surface 40 reaches strip 148 through a view-only window, and surface 70 no strip, each with the pointer at it. -/
theorem witness_LowestEnabledWindowTranslates_reads :
    (((pointedAt 40).port 1).takes = true ∧ ((pointedAt 40).port 1).pointer = (40 : Byte).toNat ∧
      reach ((pointedAt 40).port 1) (40 : Byte).toNat = .ok 148) ∧
    (((pointedAt 70).port 1).takes = true ∧ ((pointedAt 70).port 1).pointer = (70 : Byte).toNat ∧
      reach ((pointedAt 70).port 1) (70 : Byte).toNat = .error .unmapped) :=
  ⟨⟨by decide +kernel, by decide +kernel, seen (by decide +kernel)⟩, by decide +kernel, by decide +kernel,
    unseen (by decide +kernel)⟩

/-! ### Witnesses: changes of strips -/

/-- A pan value as it is carried. -/
def panValue (l : List PanEntry) : Value13 := value (wPan l)

theorem witness_MoveFaderWritesFaderOrTrim :
    ((State.reset.port 0).takes = true ∧ reachForChange (State.reset.port 0) (159 : Byte).toNat = .ok 159 ∧
      (State.reset.strip 159).openTo 0 ∧ State.reset.writesLive 159 ∧
      faderMoved 0 (value [0xFF, 0xFF]) (State.reset.strip 159).fader = some 65535 ∧
      faderMoved 1 (value [0xFF, 0xFF, 0x00, 0x01]) (State.reset.strip 159).fader = some 0) ∧
    (((desk73 .writing (some 1) 16384).port 1).takes = true ∧
      reachForChange ((desk73 .writing (some 1) 16384).port 1) (50 : Byte).toNat = .ok 50 ∧
      ((desk73 .writing (some 1) 16384).strip 50).openTo 1 ∧ (desk73 .writing (some 1) 16384).writesTrim 50 ∧
      faderMoved 1 (value [0, 0, 0x10, 0]) ((desk73 .writing (some 1) 16384).strip 50).trim = some 20480) :=
  ⟨⟨by decide +kernel, reached (by decide +kernel), by decide +kernel⟩, by decide +kernel, reached (by decide +kernel),
    by decide +kernel⟩

theorem witness_MoveMuteAndPanWriteTheCarriedValue :
    (State.reset.port 0).takes = true ∧ reachForChange (State.reset.port 0) (0 : Byte).toNat = .ok 0 ∧
      (State.reset.strip 0).openTo 0 ∧ State.reset.writesLive 0 ∧ (value [1])[0] = (if true then 1 else 0) ∧
      (value [0])[0] = (if false then 1 else 0) ∧ (readPan (panValue [entry 11 16384, entry 0 5])).count ≤ 4 ∧
      (readPan (panValue [entry 11 16384, entry 0 5])).entries = some [entry 11 16384, entry 0 5] ∧
      panAllowed (State.reset.busTable.destWidth (State.reset.strip 0).dest) [entry 11 16384, entry 0 5] :=
  ⟨by decide +kernel, reached (by decide +kernel), by decide +kernel, by decide +kernel, by decide +kernel,
    by decide +kernel, by decide +kernel, by decide +kernel, panAllowedOf (by decide +kernel)⟩

/-- A strip with three pan entries to a stem. -/
def threeEntries : State :=
  State.reset.modStrip 9 fun r => { r with dest := .stem 0, pan := [entry 0 1, entry 1 2, entry 2 3] }

theorem witness_MovePanEntryEditsOneEntry :
    (threeEntries.port 0).takes = true ∧ reachForChange (threeEntries.port 0) (9 : Byte).toNat = .ok 9 ∧
      (threeEntries.strip 9).openTo 0 ∧ threeEntries.writesLive 9 ∧ (3 : Byte).toNat ≤ 3 ∧ (0 : Byte).toNat ≤ 3 ∧
      ((value [11, 0, 7, 0])[3] = (if (some (entry 11 7)).isSome then 0 else 1) ∧
        readEntry (value [11, 0, 7, 0])[0] (join2 (value [11, 0, 7, 0])[1] (value [11, 0, 7, 0])[2]) = some (entry 11 7) ∧
        panEntryMoved (threeEntries.strip 9).pan 3 (some (entry 11 7)) = some [entry 0 1, entry 1 2, entry 2 3, entry 11 7] ∧
        panAllowed (threeEntries.busTable.destWidth (threeEntries.strip 9).dest)
          [entry 0 1, entry 1 2, entry 2 3, entry 11 7]) ∧
      ((value [0, 0, 0, 1])[3] = (if (none : Option PanEntry).isSome then 0 else 1) ∧
        panEntryMoved (threeEntries.strip 9).pan 0 none = some [entry 1 2, entry 2 3] ∧
        panAllowed (threeEntries.busTable.destWidth (threeEntries.strip 9).dest) [entry 1 2, entry 2 3]) :=
  ⟨by decide +kernel, reached (by decide +kernel), by decide +kernel, by decide +kernel, by decide, by decide,
    ⟨by decide +kernel, by decide +kernel, by decide +kernel, panAllowedOf (by decide +kernel)⟩, by decide +kernel,
    by decide +kernel, panAllowedOf (by decide +kernel)⟩

theorem witness_RefusedChangesChangeNothing_translation :
    (desk92.port 1).takes = true ∧ reachForChange (desk92.port 1) (40 : Byte).toNat = .error .view :=
  ⟨by decide +kernel, turned (by decide +kernel)⟩

theorem witness_RefusedChangesChangeNothing_hands :
    (desk43.port 2).takes = true ∧
      (∃ n, reachForChange (desk43.port 2) (45 : Byte).toNat = .ok n ∧ ∃ q, (desk43.strip n).holder = some q ∧ q ≠ 2) ∧
      ∃ n, reachForChange (desk43.port 2) (120 : Byte).toNat = .ok n ∧
        ((desk43.strip n).holder = none ∨ (desk43.strip n).holder = some 2) ∧
        ∃ q, (desk43.strip n).toucher = some q ∧ q ≠ 2 :=
  ⟨by decide +kernel, ⟨45, reached (by decide +kernel), by decide +kernel⟩, 120, reached (by decide +kernel),
    by decide +kernel⟩

theorem witness_RefusedChangesChangeNothing_modes :
    (desk15.port 1).takes = true ∧ ∃ n, reachForChange (desk15.port 1) (24 : Byte).toNat = .ok n ∧
      (desk15.strip n).openTo 1 ∧ (0 : Byte).toNat ≤ 3 ∧ (3 : Byte).toNat ≤ 3 ∧ ¬desk15.moveOpen n 0 ∧ ¬desk15.moveOpen n 3 :=
  ⟨by decide +kernel, 24, reached (by decide +kernel), by decide +kernel⟩

theorem threeEntries_open :
    (threeEntries.port 0).takes = true ∧ reachForChange (threeEntries.port 0) (9 : Byte).toNat = .ok 9 ∧
      (threeEntries.strip 9).openTo 0 ∧ ∀ field : Byte, threeEntries.moveOpen 9 field :=
  ⟨by decide +kernel, reached (by decide +kernel), by decide +kernel, fun _ => .inl (by decide +kernel)⟩

/-- Each value out of its range, on a strip with three pan entries. -/
theorem witness_RefusedChangesChangeNothing_range :
    moveOutOfRange (threeEntries.strip 9) 4 0 0 (value []) ∧ moveOutOfRange (threeEntries.strip 9) 0 2 0 (value []) ∧
      moveOutOfRange (threeEntries.strip 9) 0 1 0 (value [0, 1, 0, 0]) ∧
      moveOutOfRange (threeEntries.strip 9) 1 1 0 (value [0xFF, 0xFF, 0, 0]) ∧
      moveOutOfRange (threeEntries.strip 9) 3 0 4 (value []) ∧ moveOutOfRange (threeEntries.strip 9) 3 1 4 (value []) ∧
      moveOutOfRange (threeEntries.strip 9) 1 0 0 (value [2]) ∧
      moveOutOfRange (threeEntries.strip 9) 2 0 0 (value [4, 0, 0, 0, 1, 0, 0, 2, 0, 0, 12]) ∧
      moveOutOfRange (threeEntries.strip 9) 3 0 0 (value [0, 0, 0, 2]) ∧
      moveOutOfRange (threeEntries.strip 9) 3 0 3 (value [0, 0, 0, 1]) ∧
      moveOutOfRange (threeEntries.strip 9) 3 0 0 (value [12, 0, 0, 0]) := by
  refine ⟨?_, ?_, ?_, ?_, ?_, ?_, ?_, ?_, ?_, ?_, ?_⟩ <;> unfold moveOutOfRange <;> decide +kernel

/-- Each wrong shape, its values in range: ADD on MUTE, five entries, a channel carried twice, the last entry removed,
and an entry that repeats another's channel. -/
theorem witness_RefusedChangesChangeNothing_shape :
    (¬moveOutOfRange (threeEntries.strip 9) 1 1 0 (value [0, 0, 0xFF, 0xFF]) ∧
      moveMisshapen (some 12) (threeEntries.strip 9) 1 1 0 (value [0, 0, 0xFF, 0xFF])) ∧
    (¬moveOutOfRange (threeEntries.strip 9) 2 0 0 (value [5]) ∧
      moveMisshapen (some 12) (threeEntries.strip 9) 2 0 0 (value [5])) ∧
    (¬moveOutOfRange (threeEntries.strip 9) 2 0 0 (value [2]) ∧
      moveMisshapen (some 12) (threeEntries.strip 9) 2 0 0 (value [2])) ∧
    (¬moveOutOfRange (State.reset.strip 9) 3 0 0 (value [0, 0, 0, 1]) ∧
      moveMisshapen none (State.reset.strip 9) 3 0 0 (value [0, 0, 0, 1])) ∧
    ¬moveOutOfRange (threeEntries.strip 9) 3 0 3 (value [2, 0, 5, 0]) ∧
      moveMisshapen (some 12) (threeEntries.strip 9) 3 0 3 (value [2, 0, 5, 0]) := by
  refine ⟨⟨?_, .inl ?_⟩, ⟨?_, .inr (.inl ⟨?_, ?_, .inl ?_⟩)⟩, ⟨?_, .inr (.inl ⟨?_, ?_, .inr ?twice⟩)⟩,
    ⟨?_, .inr (.inr ⟨?_, ?_, .inl ?_⟩)⟩, ?_, .inr (.inr ⟨?_, ?_, .inr ⟨?_, entry 2 5, ?_,
      [entry 0 1, entry 1 2, entry 2 3, entry 2 5], ?_, fun h => absurd h.2.2.1 (by decide +kernel)⟩⟩)⟩
  case twice =>
    intro l h
    have : l = [entry 0 0, entry 0 0] := by
      have e : (readPan (value [2])).entries = some [entry 0 0, entry 0 0] := by decide +kernel
      rw [e] at h; exact (Option.some.inj h).symm
    subst this
    exact fun h => absurd h.2.2.1 (by decide +kernel)
  all_goals (try unfold moveOutOfRange); decide +kernel

/-- Strip 33 of section 7.7, with the line punch and the footswitch as given. -/
def desk77 (ws : WriteState) (linePunch punch : Bool) : State :=
  ((rollingAt 4015 (openBy 3 State.reset)).modStrip 33 fun r =>
    { r with mode := .latch, mute := false, dest := .stem 1, writeState := ws, linePunch, shadowFader := some 10000 }
      ).modTimeline fun t => { t with punch := { t.punch with filtered := punch } }

theorem witness_FlagsAtOnePositionWritesTheSelection :
    (State.reset.port 1).takes = true ∧ reachForChange (State.reset.port 1) (33 : Byte).toNat = .ok 33 ∧
      (State.reset.strip 33).openTo 1 ∧ (2 : Byte).toNat ≤ 2 ∧ State.reset.writesLive 33 ∧ State.reset.armed 33 = false ∧
      (flagged 2 7 7 (State.reset.strip 33)).inverted ≠ (State.reset.strip 33).inverted :=
  ⟨by decide +kernel, reached (by decide +kernel), by decide +kernel⟩

/-- Line punch turned on under READY, and off under WRITING. -/
theorem witness_FlagsAtOnePositionWritesTheSelection_triggers :
    (((desk77 .ready false true).port 1).takes = true ∧
      reachForChange ((desk77 .ready false true).port 1) (33 : Byte).toNat = .ok 33 ∧
      ((desk77 .ready false true).strip 33).openTo 1 ∧ (0 : Byte).toNat ≤ 2 ∧ (4 : Byte).getLsbD 0 = false ∧
      (desk77 .ready false true).armed 33 = true ∧ ((desk77 .ready false true).strip 33).mode.triggered ∧
      ((desk77 .ready false true).strip 33).toucher = none ∧ (desk77 .ready false true).timeline.punch.filtered = true ∧
      ((desk77 .ready false true).strip 33).linePunch = false ∧
      (flagged 0 4 0 ((desk77 .ready false true).strip 33)).linePunch = true) ∧
    (((desk77 .writing true true).port 1).takes = true ∧
      reachForChange ((desk77 .writing true true).port 1) (33 : Byte).toNat = .ok 33 ∧
      ((desk77 .writing true true).strip 33).openTo 1 ∧ (1 : Byte).toNat ≤ 2 ∧
      (desk77 .writing true true).armed 33 = true ∧ ((desk77 .writing true true).strip 33).mode.triggered ∧
      ((desk77 .writing true true).strip 33).toucher = none ∧ (desk77 .writing true true).timeline.punch.filtered = true ∧
      ((desk77 .writing true true).strip 33).linePunch = true ∧
      (flagged 1 4 0 ((desk77 .writing true true).strip 33)).linePunch = false) :=
  ⟨⟨by decide +kernel, reached (by decide +kernel), by decide +kernel⟩, by decide +kernel, reached (by decide +kernel),
    by decide +kernel⟩

/-- Bad counts, and a run with a position applied and one refused. -/
theorem witness_FlagsRunWritesEveryAppliedStrip :
    (desk15.port 1).takes = true ∧ ¬(1 ≤ (0 : Byte).toNat ∧ (0 : Byte).toNat ≤ 16) ∧
      ¬(1 ≤ (17 : Byte).toNat ∧ (17 : Byte).toNat ≤ 16) ∧ 1 ≤ (16 : Byte).toNat ∧ (16 : Byte).toNat ≤ 16 ∧
      (3 : Byte).getLsbD 2 = false ∧ flagsReach 1 0 3 desk15 (20 + 0) = some 20 ∧
      flagsRefusal 1 0 3 desk15 (20 + 2) = some .held ∧ flagsRefusal 1 3 3 desk15 (20 + 0) = some .range := by
  decide +kernel

/-- LINE-PUNCH over two positions that reach two strips, and a run beyond surface 255. -/
theorem witness_FlagsRunWritesEveryAppliedStrip_triggers :
    ((desk77 .ready false true).port 1).takes = true ∧ 1 ≤ (2 : Byte).toNat ∧ (2 : Byte).toNat < 16 ∧
      (33 : Byte).toNat + (2 : Byte).toNat ≤ 255 ∧ 255 < (255 : Byte).toNat + (1 : Byte).toNat ∧
      (4 : Byte).getLsbD 2 = true ∧ flagsReach 1 0 4 (desk77 .ready false true) (33 + 0) = some 33 ∧
      (∀ i ∈ List.range (2 : Byte).toNat, ∀ j ∈ List.range (2 : Byte).toNat,
        flagsReach 1 0 4 (desk77 .ready false true) ((33 : Byte).toNat + i) ≠ none →
        flagsReach 1 0 4 (desk77 .ready false true) ((33 : Byte).toNat + i) =
          flagsReach 1 0 4 (desk77 .ready false true) ((33 : Byte).toNat + j) → i = j) := by
  decide +kernel

theorem witness_SetRouteWritesTheRouteOrRefusesItsShape_accepted :
    (desk16.port 0).takes = true ∧ reachForChange (desk16.port 0) (30 : Byte).toNat = .ok 30 ∧
      (desk16.strip 30).openTo 0 ∧ readSource ⟨1, 7, 15⟩ = some (.input 7 15) ∧
      readDest ⟨1, 5⟩ = some (.premix 5) ∧
      ((1 : Byte) = 1 ∧ (readPan (panValue [entry 0 16384])).count ≤ 4 ∧
        (readPan (panValue [entry 0 16384])).entries = some [entry 0 16384] ∧ desk16.writesLive 30) ∧
      panAllowed (desk16.busTable.destWidth (.premix 5)) [entry 0 16384] ∧
      (∀ b c d, Source.input 7 15 = .premix b c → Dest.premix 5 ≠ .premix d) :=
  ⟨by decide +kernel, reached (by decide +kernel), by decide +kernel, by decide +kernel, by decide +kernel,
    by decide +kernel, panAllowedOf (by decide +kernel), nofun⟩

theorem witness_SetRouteWritesTheRouteOrRefusesItsShape_refused :
    (desk16.port 0).takes = true ∧ reachForChange (desk16.port 0) (30 : Byte).toNat = .ok 30 ∧
      (desk16.strip 30).openTo 0 ∧ readDest ⟨1, 5⟩ = some (.premix 5) ∧
      readSource ⟨2, 3, 0⟩ = some (.premix 3 0) ∧ readDest ⟨1, 4⟩ = some (.premix 4) ∧
      ∃ w, desk16.busTable.destWidth (.premix 5) = some w ∧ ∃ e ∈ (desk16.strip 30).pan, w ≤ e.channel.val :=
  ⟨by decide +kernel, reached (by decide +kernel), by decide +kernel, by decide +kernel, by decide +kernel,
    by decide +kernel, 1, by decide +kernel, by decide +kernel⟩

/-- Strip 30 playing back under an open pass. -/
def playing16 : State := (openBy 3 desk16).modStrip 30 fun r => { r with mode := .playback }

/-- A carried pan that differs on a strip that plays back, a byte out of each range, and a pan that is no pan list. -/
theorem witness_SetRouteWritesTheRouteOrRefusesItsShape_statuses :
    ((playing16.port 0).takes = true ∧ reachForChange (playing16.port 0) (30 : Byte).toNat = .ok 30 ∧
      (playing16.strip 30).openTo 0 ∧ ¬carriesPan (panValue [entry 0 16384]) (playing16.strip 30).pan ∧
      ¬playing16.writesLive 30 ∧ carriesPan (panValue [entry 0 16384, entry 1 8000]) (playing16.strip 30).pan) ∧
    (desk16.writesLive 30 ∧ sourceOutOfRange ⟨3, 0, 0⟩ ∧ sourceOutOfRange ⟨1, 8, 0⟩ ∧ sourceOutOfRange ⟨1, 0, 16⟩ ∧
      sourceOutOfRange ⟨2, 16, 0⟩ ∧ sourceOutOfRange ⟨2, 0, 12⟩ ∧ destOutOfRange ⟨3, 0⟩ ∧ destOutOfRange ⟨1, 16⟩ ∧
      destOutOfRange ⟨2, 8⟩ ∧ 1 < (2 : Byte).toNat ∧ panOutOfRange (value [1, 12])) ∧
    ((readPan (value [5])).entries.isSome = true ∧ 4 < (readPan (value [5])).count ∧
      (readPan (value [0])).entries = some [] ∧ ¬panAllowed (desk16.busTable.destWidth (.premix 5)) []) :=
  ⟨⟨by decide +kernel, reached (by decide +kernel), by decide +kernel⟩, by decide +kernel, by decide +kernel,
    by decide +kernel, by decide +kernel, fun h => absurd h.1 (by decide)⟩

theorem witness_SetStripWritesTheCarriedRecord_unarmed :
    (State.reset.port 0).takes = true ∧ reachForChange (State.reset.port 0) (5 : Byte).toNat = .ok 5 ∧
      (State.reset.strip 5).openTo 0 ∧
      readStripValues ⟨1, 3, 7⟩ 1 ⟨2, 6⟩ 1000 0 (panValue [entry 2 16384]) 0 1 =
        some { source := .input 3 7, inverted := true, dest := .stem 6, fader := 1000, mute := false,
               pan := readPan (panValue [entry 2 16384]), mode := .live, linePunch := true } ∧
      (readPan (panValue [entry 2 16384])).count ≤ 4 ∧
      (readPan (panValue [entry 2 16384])).entries = some [entry 2 16384] ∧
      panAllowed (State.reset.busTable.destWidth (.stem 6)) [entry 2 16384] ∧
      routeAllowed (.input 3 7) (.stem 6) = true ∧ State.reset.writesLive 5 ∧ State.reset.armed 5 = false ∧
      Mode.live = (State.reset.strip 5).mode ∧
      ¬(Source.input 3 7 = (State.reset.strip 5).source ∧ Dest.stem 6 = (State.reset.strip 5).dest ∧
        true = (State.reset.strip 5).inverted) :=
  ⟨by decide +kernel, reached (by decide +kernel), by decide +kernel, by decide +kernel, by decide +kernel,
    by decide +kernel, panAllowedOf (by decide +kernel), by decide +kernel⟩

/-- A strip WRITING under its port's touch whose fader and mode change, and a LATCHED one whose fader changes; each
keeps its route. -/
theorem witness_SetStripWritesTheCarriedRecord_punched :
    ((busy.port 0).takes = true ∧ reachForChange (busy.port 0) (7 : Byte).toNat = .ok 7 ∧ (busy.strip 7).openTo 0 ∧
      readStripValues ⟨0, 0, 0⟩ 0 ⟨0, 0⟩ 900 1 (panValue [entry 0 16384]) 0 0 =
        some { source := .none, inverted := false, dest := .none, fader := 900, mute := true,
               pan := readPan (panValue [entry 0 16384]), mode := .live, linePunch := false } ∧
      (readPan (panValue [entry 0 16384])).count ≤ 4 ∧
      (readPan (panValue [entry 0 16384])).entries = some [entry 0 16384] ∧
      panAllowed (busy.busTable.destWidth .none) [entry 0 16384] ∧ routeAllowed .none .none = true ∧
      busy.writesLive 7 ∧ busy.punching 7 ∧ (busy.strip 7).toucher ≠ none ∧ Mode.live ≠ (busy.strip 7).mode ∧
      Source.none = (busy.strip 7).source ∧ Dest.none = (busy.strip 7).dest ∧ false = (busy.strip 7).inverted ∧
      differing (busy.strip 7) 900 true [entry 0 16384] = [.fader 900]) ∧
    (((desk77 .latched false false).port 1).takes = true ∧
      reachForChange ((desk77 .latched false false).port 1) (33 : Byte).toNat = .ok 33 ∧
      ((desk77 .latched false false).strip 33).openTo 1 ∧
      readStripValues ⟨0, 0, 0⟩ 0 ⟨2, 1⟩ 900 0 (panValue [entry 0 16384]) 4 0 =
        some { source := .none, inverted := false, dest := .stem 1, fader := 900, mute := false,
               pan := readPan (panValue [entry 0 16384]), mode := .latch, linePunch := false } ∧
      panAllowed ((desk77 .latched false false).busTable.destWidth (.stem 1)) [entry 0 16384] ∧
      (desk77 .latched false false).writesLive 33 ∧ (desk77 .latched false false).punching 33 ∧
      Mode.latch = ((desk77 .latched false false).strip 33).mode ∧
      false = ((desk77 .latched false false).strip 33).linePunch ∧
      Source.none = ((desk77 .latched false false).strip 33).source ∧
      Dest.stem 1 = ((desk77 .latched false false).strip 33).dest) :=
  ⟨⟨by decide +kernel, reached (by decide +kernel), by decide +kernel, by decide +kernel, by decide +kernel,
    by decide +kernel, panAllowedOf (by decide +kernel), by decide +kernel⟩, by decide +kernel, reached (by decide +kernel),
    by decide +kernel, by decide +kernel, panAllowedOf (by decide +kernel), by decide +kernel⟩

/-- Line punch off and another mode on a strip that its line punch alone keeps WRITING in TRIM, its automated fields as
held; and the refusals: another fader on that strip, a byte out of its range, a pan that is no pan list, and a premix
that feeds a premix. -/
theorem witness_SetStripWritesTheCarriedRecord_trim :
    ((trimPunched.port 1).takes = true ∧ reachForChange (trimPunched.port 1) (50 : Byte).toNat = .ok 50 ∧
      (trimPunched.strip 50).openTo 1 ∧
      (trimPunched.strip 50).keepsAutomated 16384 0 (panValue [entry 0 16384]) ∧ ¬trimPunched.writesLive 50 ∧
      readStripValues ⟨0, 0, 0⟩ 0 ⟨2, 2⟩ 16384 0 (panValue [entry 0 16384]) 0 0 =
        some { source := .none, inverted := false, dest := .stem 2, fader := 16384, mute := false,
               pan := readPan (panValue [entry 0 16384]), mode := .live, linePunch := false } ∧
      (readPan (panValue [entry 0 16384])).count ≤ 4 ∧
      (readPan (panValue [entry 0 16384])).entries = some [entry 0 16384] ∧
      panAllowed (trimPunched.busTable.destWidth (.stem 2)) [entry 0 16384] ∧ routeAllowed .none (.stem 2) = true ∧
      trimPunched.punching 50 ∧ (trimPunched.strip 50).trim ≠ 16384 ∧ (trimPunched.strip 50).toucher = none ∧
      trimPunched.linePunched 50 ∧ Mode.live ≠ (trimPunched.strip 50).mode) ∧
    (¬(trimPunched.strip 50).keepsAutomated 900 0 (panValue [entry 0 16384]) ∧ 5 < (6 : Byte).toNat ∧
      1 < (2 : Byte).toNat) ∧
    (State.reset.writesLive 5 ∧
      readStripValues ⟨0, 0, 0⟩ 0 ⟨0, 0⟩ 900 0 (value [0]) 0 0 =
        some { source := .none, inverted := false, dest := .none, fader := 900, mute := false, pan := readPan (value [0]),
               mode := .live, linePunch := false } ∧
      (readPan (value [0])).entries = some [] ∧ ¬panAllowed (State.reset.busTable.destWidth .none) [] ∧
      routeAllowed (.premix 3 0) (.premix 4) = false) :=
  ⟨⟨by decide +kernel, reached (by decide +kernel), by decide +kernel, by decide +kernel, by decide +kernel,
    by decide +kernel, by decide +kernel, by decide +kernel, panAllowedOf (by decide +kernel), by decide +kernel⟩,
    by decide +kernel, by decide +kernel, by decide +kernel, by decide +kernel, fun h => absurd h.1 (by decide), rfl⟩

/-- The mode held, another mode in the middle of a punch, and an unknown mode. -/
theorem witness_SetModeEndsThePunchAndArmsAfresh :
    ((desk73 .writing (some 1) 20480).port 1).takes = true ∧
      reachForChange ((desk73 .writing (some 1) 20480).port 1) (50 : Byte).toNat = .ok 50 ∧
      ((desk73 .writing (some 1) 20480).strip 50).openTo 1 ∧ readMode 5 = some .trim ∧ readMode 0 = some .live ∧
      Mode.trim = ((desk73 .writing (some 1) 20480).strip 50).mode ∧
      Mode.live ≠ ((desk73 .writing (some 1) 20480).strip 50).mode ∧
      (desk73 .writing (some 1) 20480).armed 50 = true ∧
      ((desk73 .writing (some 1) 20480).strip 50).writeState = .writing ∧ 5 < (6 : Byte).toNat :=
  ⟨by decide +kernel, reached (by decide +kernel), by decide +kernel⟩

theorem witness_ReadsReturnARunOfRecordsAndMoveThePointer :
    (desk92.port 1).takes = true ∧ (1 ≤ (16 : Byte).toNat ∧ (16 : Byte).toNat ≤ 16) ∧
      ¬(1 ≤ (0 : Byte).toNat ∧ (0 : Byte).toNat ≤ 16) ∧ ¬(1 ≤ (17 : Byte).toNat ∧ (17 : Byte).toNat ≤ 16) := by
  decide +kernel

theorem witness_StripRecordHoldsEachItemAtItsOffset :
    ((threeEntries.strip 9).pan.length ≤ 4 ∧ (threeEntries.strip 9).shadowPan = none) ∧
      (busy.strip 8).pan.length ≤ 4 ∧ (busy.strip 8).shadowPan = some [entry 0 16384] ∧
      [entry 0 16384].length ≤ 4 := by decide +kernel

/-! ### Witnesses: cells and the engine -/

theorem witness_ReadCellsAndSetRampAnswerTheRampLength :
    (desk92.port 1).takes = true ∧ reach (desk92.port 1) (40 : Byte).toNat = .ok 148 ∧
      (23 : Byte).toNat = (23 : BusNo).val ∧ 24 ≤ (24 : Byte).toNat ∧
      reach (desk92.port 1) (70 : Byte).toNat = .error .unmapped ∧ 2 ≤ (2 : Byte).toNat :=
  ⟨by decide +kernel, seen (by decide +kernel), by decide, by decide, unseen (by decide +kernel), by decide⟩

theorem witness_UsedValuesFollowPassModeAndWriteState :
    State.reset.playback.passOpen = false ∧
      (busy.playback.passOpen = true ∧ (busy.strip 7).mode = .touch ∧ (busy.strip 7).writeState = .writing) ∧
      (desk15.playback.passOpen = true ∧ (desk15.strip 24).mode = .playback) ∧
      ((desk77 .ready true false).playback.passOpen = true ∧ ((desk77 .ready true false).strip 33).mode = .latch ∧
        ((desk77 .ready true false).strip 33).writeState = .ready) ∧
      ((desk73 .ready none 16384).playback.passOpen = true ∧ ((desk73 .ready none 16384).strip 50).mode = .trim ∧
        ((desk73 .ready none 16384).strip 50).trim = 16384 ∧
        ((desk73 .ready none 16384).strip 50).shadowFader.getD ((desk73 .ready none 16384).strip 50).fader ≤ 65535) := by
  decide +kernel

theorem witness_CellTargetFollowsUsedValuesAndWidth :
    (State.reset.used 0).mute = true ∧ (State.reset.strip 0).dest = .none ∧
      (desk16.busTable.destWidth (desk16.strip 30).dest = some 6 ∧ 6 ≤ (6 : Channel).val ∧ (desk16.used 30).mute = false ∧
        (1 : Channel).val < 6 ∧ entry 1 8000 ∈ (desk16.used 30).pan ∧
        (∀ d ∈ (desk16.used 30).pan, d.channel = 1 → d = entry 1 8000) ∧ (entry 1 8000).channel = 1 ∧
        (entry 1 8000).weight ≤ 16384 ∧ (∀ d ∈ (desk16.used 30).pan, d.channel = 0 → d = entry 0 16384) ∧
        (entry 0 16384).weight = 16384) ∧
      (∀ e ∈ (desk16.used 30).pan, e.channel ≠ 2) ∧ (desk16.strip 30).dest = .premix 2 ∧
      ((desk73 .ready none 16384).strip 50).dest = .stem 2 := by decide +kernel

theorem witness_RampStepsRunFromStartToTarget :
    ((State.reset.engine.cell 1943).length ≤ (State.reset.engine.cell 1943).step) ∧
      ((busy.engine.cell 36).step < (busy.engine.cell 36).length ∧
        ((busy.engine.cell 36).current : Int) = (busy.engine.cell 36).start +
          Int.tdiv ((((busy.engine.cell 36).target : Int) - (busy.engine.cell 36).start) * (busy.engine.cell 36).step)
            (busy.engine.cell 36).length) := by decide +kernel

/-- A cell at its last step. -/
def lastStep : State :=
  State.reset.modCells 159 fun _ _ => { current := 9, start := 0, target := 10, length := 64, step := 63 }

theorem witness_RampStepsRunFromStartToTarget_last :
    (lastStep.engine.cell 1919).step < (lastStep.engine.cell 1919).length ∧
      (lastStep.engine.cell 1919).step + 1 = (lastStep.engine.cell 1919).length := by decide +kernel

/-- `desk2` under a master width of 4, with no stem in print. -/
def silent2 : State := { desk2 with busTable := { desk2.busTable with masterWidth := 4, print := Vector.replicate 8 false } }

theorem witness_BusOutputsAreTheScaledExactSums :
    (∀ n, routeAllowed (desk2.strip n).source (desk2.strip n).dest = true) ∧
      (5 : Channel).val < desk2.busTable.premixWidth[(0 : PremixNo)] ∧
      desk2.busTable.premixWidth[(0 : PremixNo)] ≤ (6 : Channel).val ∧ (11 : Channel).val < desk2.busTable.masterWidth ∧
      ((∀ n, routeAllowed (silent2.strip n).source (silent2.strip n).dest = true) ∧
        silent2.busTable.masterWidth ≤ (4 : Channel).val) ∧
      (∀ (l : LaneNo) (k : SlotNo), (-8388608 ≤ (desk2.audio.lanes[l]).slots[k] ∧
          (desk2.audio.lanes[l]).slots[k] ≤ 8388607) ∧
        -8388608 ≤ (silent2.audio.lanes[l]).slots[k] ∧ (silent2.audio.lanes[l]).slots[k] ≤ 8388607) := by
  decide +kernel

/-- The stem outputs after a sample period of `desk2`, in the sample range, and so their sum. -/
theorem witness_PrintMasterIsTheClampedSumOfStemsInPrint :
    ((fun t : State => decide (
        -8388608 ≤ (∑ k : StemNo, if desk2.busTable.print[k] = true then (t.audio.handed.stem[k])[(0 : Channel)] else 0) ∧
        (∑ k : StemNo, if desk2.busTable.print[k] = true then (t.audio.handed.stem[k])[(0 : Channel)] else 0) ≤ 8388607))
      (after .engineSamplePeriod desk2)) = true := by decide +kernel

theorem witness_PrintMasterIsTheClampedSumOfStemsInPrint_narrow :
    silent2.busTable.masterWidth ≤ (4 : Channel).val ∧ ∀ k : StemNo, silent2.busTable.print[k] = false := by
  decide +kernel

theorem witness_AccumulatorsNeverExceedFortyEightBits :
    (∀ (n : StripNo) (c : Channel), ((desk2.cells n)[c]).current ≤ 65535 ∧ ((desk2.cells n)[c]).start ≤ 65535 ∧
      ((desk2.cells n)[c]).target ≤ 65535) ∧
    (∀ (l : LaneNo) (k : SlotNo), -8388608 ≤ (desk2.audio.lanes[l]).slots[k] ∧ (desk2.audio.lanes[l]).slots[k] ≤ 8388607) := by
  decide +kernel

/-- The tick due, and cell 1,919 one step from its target. -/
theorem witness_MetersTakePeaksHoldAndFall :
    { lastStep with busTable := { lastStep.busTable with tickCounter := 479 } }.tickDue = true ∧
      (lastStep.engine.cell 1919).step + 1 = (lastStep.engine.cell 1919).length := by decide +kernel

/-- An entry silenced by a safe trigger, an entry that plays, and a slot absent at 96 kHz. -/
theorem witness_OutputFrameCarriesThePatchedValues :
    ((desk85Patched 0).audio.patch[112].safe1 = true ∧ ∃ i : LaneNo, (desk85Patched 0).audio.lanes[i].up = false) ∧
      ((desk85Patched 0).audio.rate = .k48 ∧ (desk85Patched 0).audio.patch[11].safe0 = false ∧
        (desk85Patched 0).audio.patch[11].safe1 = false) ∧
      ((State.afterReset .k96 State.reset.ports).audio.rate = .k96 ∧ 8 ≤ (8 : SlotNo).val) := by decide +kernel

/-! ### Witnesses: buses -/

/-- No bus 24, a bus held by another port, and for the port that may write bus 4: widths at both ends, a width that a
live pan goes beyond, and a print flag on a premix. -/
theorem witness_SetBusWritesTheSelectedFields :
    (desk32.port 1).takes = true ∧ 23 < (24 : Byte).toNat ∧ ((desk32.port 2).takes = true ∧
      ∃ q, (desk32.bus 4).holder = some q ∧ q ≠ 2) ∧
      ((desk32.bus 4).holder = none ∨ (desk32.bus 4).holder = some 1) ∧
      ((7 : Byte).getLsbD 0 = true ∧ ¬(1 ≤ (13 : Byte).toNat ∧ (13 : Byte).toNat ≤ 12) ∧
        ¬(1 ≤ (0 : Byte).toNat ∧ (0 : Byte).toNat ≤ 12)) ∧
      ((8 : Byte).getLsbD 3 = true ∧ (4 : BusNo).val < 16 ∧ (8 : Byte).getLsbD 0 = false) ∧
      ((1 : Byte).getLsbD 0 = true ∧ 16 ≤ (16 : BusNo).val ∧ (desk32.bus 16).holder = none) ∧
      ((7 : Byte).getLsbD 3 = false ∧ (2 : Byte).toNat < desk32.busTable.busWidth 4 ∧
        ∃ (n : StripNo) (d : PremixNo), d.val = (4 : BusNo).val ∧ (desk32.strip n).dest = .premix d ∧
          ∃ e ∈ (desk32.strip n).pan, (2 : Byte).toNat ≤ e.channel.val) ∧
      ((3 : Byte).toNat < desk32.busTable.busWidth 4 ∧
        ∀ (n : StripNo) (d : PremixNo), d.val = (4 : BusNo).val → (desk32.strip n).dest = .premix d →
          ∀ e ∈ (desk32.strip n).pan, e.channel.val < (3 : Byte).toNat) ∧
      ((4 : Byte).getLsbD 2 = true ∧ (8 : Byte).getLsbD 3 = true ∧ 1 < (2 : Byte).toNat) ∧
      ((3 : Byte).getLsbD 2 = false ∧ (3 : Byte).getLsbD 3 = false ∧ (7 : Byte).getLsbD 2 = true ∧
        (1 : Byte) = wFlag true) := by decide +kernel

/-- Strip 3 of section 4.6 with its second entry on channel 5. -/
def stem5 : State := State.reset.modStrip 3 fun r => { r with dest := .stem 0, pan := [entry 0 16384, entry 5 8000] }

theorem witness_SetMasterWritesTheWidthAndZeroesMeters :
    (stem5.port 3).takes = true ∧ ¬(1 ≤ (0 : Byte).toNat ∧ (0 : Byte).toNat ≤ 12) ∧
      ¬(1 ≤ (13 : Byte).toNat ∧ (13 : Byte).toNat ≤ 12) ∧ (12 : Byte).toNat ≤ 12 ∧
      ((4 : Byte).toNat < stem5.busTable.masterWidth ∧
        ∃ (n : StripNo) (k : StemNo), (stem5.strip n).dest = .stem k ∧
          ∃ e ∈ (stem5.strip n).pan, (4 : Byte).toNat ≤ e.channel.val) ∧
      ((6 : Byte).toNat < stem5.busTable.masterWidth ∧
        ∀ (n : StripNo) (k : StemNo), (stem5.strip n).dest = .stem k →
          ∀ e ∈ (stem5.strip n).pan, e.channel.val < (6 : Byte).toNat) := by decide +kernel

theorem witness_ClipAndMeterRequestsTouchTheirFieldsAlone :
    (State.reset.port 0).takes = true ∧
      (1 ≤ (16 : Byte).toNat ∧ (16 : Byte).toNat ≤ 16 ∧ (8 : Byte).toNat + (16 : Byte).toNat ≤ 24) ∧
      ¬(1 ≤ (16 : Byte).toNat ∧ (16 : Byte).toNat ≤ 16 ∧ (9 : Byte).toNat + (16 : Byte).toNat ≤ 24) ∧
      ¬(1 ≤ (0 : Byte).toNat ∧ (0 : Byte).toNat ≤ 16 ∧ (0 : Byte).toNat + (0 : Byte).toNat ≤ 24) := by decide +kernel

/-! ### Witnesses: positions -/

theorem witness_ClaimHoldsTheWholeRunOrNothing_ranges :
    (desk43.port 2).takes = true ∧ 2 ≤ (2 : Byte).toNat ∧ ¬(1 ≤ (0 : Byte).toNat ∧ (0 : Byte).toNat ≤ 16) ∧
      ¬(1 ≤ (17 : Byte).toNat ∧ (17 : Byte).toNat ≤ 16) ∧ 1 ≤ (16 : Byte).toNat ∧ (16 : Byte).toNat ≤ 16 ∧
      24 < (9 : Byte).toNat + (16 : Byte).toNat ∧ (8 : Byte).toNat + (16 : Byte).toNat ≤ 24 := by decide +kernel

/-- A run that leaves port 1's windows at its third position (section 9.2). -/
theorem witness_ClaimHoldsTheWholeRunOrNothing_translation :
    (desk92.port 1).takes = true ∧ (2 : Fin 16).val < (16 : Byte).toNat ∧
      reachForChange (desk92.port 1) ((56 : Byte).toNat + (2 : Fin 16).val) = .error .range ∧
      ∀ j < (2 : Fin 16), ∃ m, reachForChange (desk92.port 1) ((56 : Byte).toNat + j.val) = .ok m := by
  refine ⟨by decide +kernel, by decide, turned (by decide +kernel), ?_⟩
  intro j hj
  have h : j = 0 ∨ j = 1 := by omega
  rcases h with rfl | rfl
  · exact ⟨158, reached (by decide +kernel)⟩
  · exact ⟨159, reached (by decide +kernel)⟩

/-- Section 4.3: position 0 held, position 8 touched, and a free run. -/
theorem witness_ClaimHoldsTheWholeRunOrNothing_hands :
    ((∀ j : Fin 16, j.val < (16 : Byte).toNat → ∃ m, reachForChange (desk43.port 2) ((10 : Byte).toNat + j.val) = .ok m) ∧
      reachForChange (desk43.port 2) ((10 : Byte).toNat + (0 : Fin 16).val) = .ok 10 ∧
      (desk43.strip 10).holder = some 0 ∧ (0 : PortId) ≠ 2 ∧
      ∀ j < (0 : Fin 16), ∀ m, reachForChange (desk43.port 2) ((10 : Byte).toNat + j.val) = .ok m →
        (desk43.strip m).holder = none ∨ (desk43.strip m).holder = some 2) ∧
    ((∀ j : Fin 16, j.val < (16 : Byte).toNat → ∀ m, reachForChange (desk43.port 2) ((112 : Byte).toNat + j.val) = .ok m →
        (desk43.strip m).holder = none ∨ (desk43.strip m).holder = some 2) ∧
      reachForChange (desk43.port 2) ((112 : Byte).toNat + (8 : Fin 16).val) = .ok 120 ∧
      (desk43.strip 120).toucher = some 0 ∧
      ∀ j < (8 : Fin 16), ∀ m, reachForChange (desk43.port 2) ((112 : Byte).toNat + j.val) = .ok m →
        (desk43.strip m).openTo 2) ∧
    ((∀ j : Fin 16, j.val < (16 : Byte).toNat → ∃ m, reachForChange (desk43.port 2) ((16 : Byte).toNat + j.val) = .ok m) ∧
      ∀ j : Fin 16, j.val < (16 : Byte).toNat → ∀ m, reachForChange (desk43.port 2) ((16 : Byte).toNat + j.val) = .ok m →
        (desk43.strip m).openTo 2) := by
  have h1 := run_reached (q := desk43.port 2) (a := (10 : Byte).toNat) (f := fun _ => true) (by decide +kernel)
  have h2 := run_reached (q := desk43.port 2) (a := (112 : Byte).toNat)
    (f := fun m => (desk43.strip m).holder == none && (decide ((desk43.strip m).openTo 2) || m == 120)) (by decide +kernel)
  have h3 := run_reached (q := desk43.port 2) (a := (16 : Byte).toNat)
    (f := fun m => decide ((desk43.strip m).openTo 2)) (by decide +kernel)
  refine ⟨⟨fun j _ => ?_, reached (by decide +kernel), by decide +kernel, by decide, fun j hj => absurd hj (by omega)⟩,
    ⟨fun j _ m hm => ?_, reached (by decide +kernel), by decide +kernel, fun j hj m hm => ?_⟩, fun j _ => ?_,
    fun j _ m hm => ?_⟩
  · obtain ⟨m, h, -⟩ := h1 j; exact ⟨m, h⟩
  · obtain ⟨k, h, hf⟩ := h2 j
    rw [h] at hm; cases hm
    simp only [Bool.and_eq_true, beq_iff_eq] at hf
    exact .inl hf.1
  · obtain ⟨k, h, hf⟩ := h2 j
    have e : k = m := by rw [h] at hm; cases hm; rfl
    subst e
    simp only [Bool.and_eq_true, Bool.or_eq_true, decide_eq_true_eq, beq_iff_eq] at hf
    rcases hf.2 with o | rfl
    · exact o
    · exfalso
      have far : ∀ i : Fin 16, i < 8 → (match reachForChange (desk43.port 2) ((112 : Byte).toNat + i.val) with
        | .ok m => m != 120
        | .error _ => false) = true := by decide +kernel
      have := far j hj
      rw [h] at this
      exact absurd this (by decide)
  · obtain ⟨m, h, -⟩ := h3 j; exact ⟨m, h⟩
  · obtain ⟨k, h, hf⟩ := h3 j
    rw [h] at hm; cases hm
    exact of_decide_eq_true hf

theorem witness_ClaimHoldsTheWholeRunOrNothing_buses :
    ((0 : Fin 16).val < (1 : Byte).toNat ∧ (16 : BusNo).val = (16 : Byte).toNat + (0 : Fin 16).val ∧
      (desk43.bus 16).holder = some 0 ∧
      ∀ a : BusNo, (16 : Byte).toNat ≤ a.val → a < 16 → (desk43.bus a).holder = none ∨ (desk43.bus a).holder = some 2) ∧
    (23 : Byte).toNat + (1 : Byte).toNat ≤ 24 ∧
      ∀ b : BusNo, (23 : Byte).toNat ≤ b.val → b.val < (23 : Byte).toNat + (1 : Byte).toNat →
        (desk43.bus b).holder = none ∨ (desk43.bus b).holder = some 2 := by decide +kernel

/-- Port 0 holds strip 10 and bus 16; port 3 is detached. -/
def desk43Three : State := desk43.modPort 3 fun _ => PortState.fresh false .idle

theorem witness_ReleaseAndYieldMoveTheHolder :
    (desk43Three.port 0).takes = true ∧ (1 ≤ (16 : Byte).toNat ∧ (16 : Byte).toNat ≤ 16) ∧
      (8 : Byte).toNat + (16 : Byte).toNat ≤ 24 ∧ 24 < (9 : Byte).toNat + (16 : Byte).toNat ∧
      ¬(1 ≤ (0 : Byte).toNat ∧ (0 : Byte).toNat ≤ 16) ∧
      (reachForChange (desk43Three.port 0) (10 : Byte).toNat = .ok 10 ∧ (desk43Three.strip 10).holder = some 0 ∧
        (desk43Three.port 3).attached = false ∧ (desk43Three.port 2).attached = true ∧ (2 : PortId) ≠ 0) ∧
      (reachForChange (desk43Three.port 0) (45 : Byte).toNat = .ok 45 ∧ (desk43Three.strip 45).holder ≠ some 0) ∧
      ((16 : Byte).toNat = (16 : BusNo).val ∧ (desk43Three.bus 16).holder = some 0) ∧
      ((23 : Byte).toNat = (23 : BusNo).val ∧ (desk43Three.bus 23).holder ≠ some 0) ∧ 24 ≤ (24 : Byte).toNat ∧
      3 < (4 : Byte).toNat ∧ 1 < (2 : Byte).toNat :=
  ⟨by decide +kernel, by decide, by decide, by decide, by decide,
    ⟨reached (by decide +kernel), by decide +kernel⟩, ⟨reached (by decide +kernel), by decide +kernel⟩, by decide +kernel⟩

/-- A touch that the yielding port loses with the strip. -/
theorem witness_ReleaseAndYieldMoveTheHolder_touch :
    (desk47.port 2).takes = true ∧ reachForChange (desk47.port 2) (20 : Byte).toNat = .ok 20 ∧
      (desk47.strip 20).holder = some 2 ∧ (desk47.port 1).attached = true ∧ (1 : PortId) ≠ 2 ∧
      (desk47.strip 20).toucher = some 2 ∧ desk47.armed 20 = true ∧ (desk47.strip 20).mode.triggered ∧
      ¬desk47.linePunched 20 :=
  ⟨by decide +kernel, reached (by decide +kernel), by decide +kernel⟩

/-- A touch that punches in a strip whose used values it keeps (R131), and one that drives nothing. -/
theorem witness_TouchAndUntouchDriveTheWriteState_touch :
    (((desk73 .ready none 16384).port 1).takes = true ∧
      reachForChange ((desk73 .ready none 16384).port 1) (50 : Byte).toNat = .ok 50 ∧
      ((desk73 .ready none 16384).strip 50).openTo 1 ∧
      ((desk73 .ready none 16384).armed 50 = true ∧ ((desk73 .ready none 16384).strip 50).mode.triggered ∧
        ((desk73 .ready none 16384).strip 50).toucher = none ∧ ¬(desk73 .ready none 16384).linePunched 50) ∧
      ((desk73 .ready none 16384).strip 50).writeState = .ready ∧
      (desk73 .ready none 16384).timeline.counting = true ∧ ((desk73 .ready none 16384).used 50).pan ≠ [] ∧
      (∀ w, (desk73 .ready none 16384).busTable.destWidth ((desk73 .ready none 16384).strip 50).dest = some w →
        ∀ e ∈ ((desk73 .ready none 16384).used 50).pan, e.channel.val < w) ∧
      ((desk73 .ready none 16384).strip 50).trim = 16384) ∧
    ((State.reset.port 1).takes = true ∧ reachForChange (State.reset.port 1) (50 : Byte).toNat = .ok 50 ∧
      (State.reset.strip 50).openTo 1 ∧ State.reset.armed 50 = false) := by
  refine ⟨⟨by decide +kernel, reached (by decide +kernel), by decide +kernel, by decide +kernel, by decide +kernel,
    by decide +kernel, by decide +kernel, ?_, by decide +kernel⟩, by decide +kernel, reached (by decide +kernel),
    by decide +kernel⟩
  intro w hw
  have h : (desk73 .ready none 16384).busTable.destWidth ((desk73 .ready none 16384).strip 50).dest = some 12 := by
    decide +kernel
  rw [h] at hw; cases hw
  decide +kernel

/-- An untouch by the toucher that punches out, one that drives nothing, and one by another port. -/
theorem witness_TouchAndUntouchDriveTheWriteState_untouch :
    (((desk73 .writing (some 1) 20480).port 1).takes = true ∧
      reach ((desk73 .writing (some 1) 20480).port 1) (50 : Byte).toNat = .ok 50 ∧
      ((desk73 .writing (some 1) 20480).strip 50).toucher = some 1 ∧
      ((desk73 .writing (some 1) 20480).armed 50 = true ∧ ((desk73 .writing (some 1) 20480).strip 50).mode.triggered ∧
        ¬(desk73 .writing (some 1) 20480).linePunched 50)) ∧
    ((desk43.port 0).takes = true ∧ reach (desk43.port 0) (120 : Byte).toNat = .ok 120 ∧
      (desk43.strip 120).toucher = some 0 ∧ desk43.armed 120 = false) ∧
    ((desk43.port 2).takes = true ∧ reach (desk43.port 2) (120 : Byte).toNat = .ok 120 ∧
      (desk43.strip 120).toucher ≠ some 2) :=
  ⟨⟨by decide +kernel, seen (by decide +kernel), by decide +kernel⟩,
    ⟨by decide +kernel, seen (by decide +kernel), by decide +kernel⟩, by decide +kernel, seen (by decide +kernel),
    by decide +kernel⟩

/-- Port 0's list with room, and full. -/
def fullWatch : State :=
  State.reset.modPort 0 fun q => { q with watches := [0, 1, 2, 3].map fun n => { strip := n, hit := false, mover := none } }

theorem witness_WatchAndSignalRequestsKeepTheirLists :
    ((desk44.port 0).takes = true ∧ reach (desk44.port 0) (40 : Byte).toNat = .ok 40 ∧
      ∃ w ∈ (desk44.port 0).watches, w.strip = 40) ∧
    (reach (desk44.port 0) (42 : Byte).toNat = .ok 42 ∧ (∀ w ∈ (desk44.port 0).watches, w.strip ≠ 42) ∧
      (desk44.port 0).watches.length < 4) ∧
    ((fullWatch.port 0).takes = true ∧ reach (fullWatch.port 0) (42 : Byte).toNat = .ok 42 ∧
      (∀ w ∈ (fullWatch.port 0).watches, w.strip ≠ 42) ∧ 4 ≤ (fullWatch.port 0).watches.length) ∧
    reach (desk44.port 0) (200 : Byte).toNat = .error .unmapped ∧ 3 < (4 : Byte).toNat ∧
    ((2 : PortId) ≠ 0 ∧ (detached2.port 2).attached = false ∧ (detached2.port 0).takes = true) ∧
    (desk44.port 2).attached = true :=
  ⟨⟨by decide +kernel, seen (by decide +kernel), by decide +kernel⟩, ⟨seen (by decide +kernel), by decide +kernel⟩,
    ⟨by decide +kernel, seen (by decide +kernel), by decide +kernel⟩, unseen (by decide +kernel), by decide +kernel⟩

/-- `desk46` under a master width of 4, with strip 3 held or touched by port 2, and with strip 3 in playback. -/
def narrow46 : State := { desk46 with busTable := { desk46.busTable with masterWidth := 4 } }
def held46 : State := desk46.modStrip 3 fun r => { r with holder := some 2 }
def touched46 : State := desk46.modStrip 3 fun r => { r with toucher := some 2 }
def playing46 : State := (openBy 3 desk46).modStrip 3 fun r => { r with mode := .playback }

/-- Snapshot A of section 4.6. -/
def snapshotA : Snapshot :=
  { strip := 3, fader := 12000, mute := false, pan := [entry 0 16384, entry 5 8000], inverted := false }

/-- A snapshot that is taken, one that no longer fits, one whose strip another port holds or touches, and one refused for
its mode. -/
theorem witness_SaveAndRecallWorkTheStack :
    ((desk46.port 0).takes = true ∧ reachForChange (desk46.port 0) (3 : Byte).toNat = .ok 3 ∧
      (desk46.strip 3).openTo 0 ∧ desk46.writesLive 3 ∧ (desk46.port 0).recallStack = snapshotA :: [] ∧
      desk46.busTable.panFits (desk46.strip snapshotA.strip).dest snapshotA.pan = true) ∧
    ((State.reset.port 0).takes = true ∧ (State.reset.port 0).recallStack = []) ∧
    ((narrow46.port 0).takes = true ∧ (narrow46.strip 3).openTo 0 ∧ narrow46.writesLive 3 ∧
      (narrow46.port 0).recallStack = snapshotA :: [] ∧
      narrow46.busTable.panFits (narrow46.strip snapshotA.strip).dest snapshotA.pan = false) ∧
    ((held46.port 0).takes = true ∧ (held46.port 0).recallStack = snapshotA :: [] ∧
      ∃ q, (held46.strip snapshotA.strip).holder = some q ∧ q ≠ 0) ∧
    ((touched46.port 0).takes = true ∧ (touched46.port 0).recallStack = snapshotA :: [] ∧
      (touched46.strip snapshotA.strip).holder = none ∧
      ∃ q, (touched46.strip snapshotA.strip).toucher = some q ∧ q ≠ 0) ∧
    ((playing46.port 0).takes = true ∧ (playing46.strip 3).openTo 0 ∧ ¬playing46.writesLive 3 ∧
      (playing46.port 0).recallStack = snapshotA :: [] ∧ snapshotA.pan ≠ (playing46.strip 3).pan) :=
  ⟨⟨by decide +kernel, reached (by decide +kernel), by decide +kernel⟩, by decide +kernel⟩

/-- Port 3 with the pass role, and port 2 with the take role of a closed pass. -/
def drained : State :=
  { State.reset with writing := { takes := [.punchOut 5 7 .loop], takePort := some 2, lost := 65535 } }

theorem witness_AttachAndDetachSettleThePort :
    (detached2.port 2).attached = false ∧
      ((desk47.port 2).attached = true ∧ desk47.playback.passPort ≠ some 2 ∧ desk47.writing.takePort ≠ some 2 ∧
        (desk47.port 0).attached = true ∧ (desk47.strip 20).toucher = some 2 ∧ desk47.armed 20 = true ∧
        (desk47.strip 20).mode.triggered ∧ ¬desk47.linePunched 20 ∧ (desk47.strip 19).toucher ≠ some 2) ∧
      ((desk47.port 3).attached = true ∧ desk47.playback.passPort = some 3 ∧ desk47.armed 20 = true) ∧
      ((drained.port 2).attached = true ∧ drained.playback.passPort ≠ some 2 ∧ drained.writing.takePort = some 2 ∧
        drained.playback.passOpen = false) := by decide +kernel

/-! ### Witnesses: the timeline -/

theorem witness_TimelineRequestsWriteTheirFieldsAlone :
    (State.reset.port 0).takes = true ∧ 2 < (3 : Byte).toNat ∧ 1 < (2 : Byte).toNat ∧
      ((0 : BitVec 32).toNat ≤ 16777215 ∧ (16777215 : BitVec 32).toNat ≤ 16777215 ∧
        (0 : BitVec 32).toNat ≤ (16777215 : BitVec 32).toNat) ∧
      16777215 < (16777216 : BitVec 32).toNat ∧ (0 : BitVec 32).toNat < (1 : BitVec 32).toNat ∧
      ((0 : Byte).toNat ≠ 24 ∧ (0 : Byte).toNat ≠ 25 ∧ (0 : Byte).toNat ≠ 30) ∧
      ((30 : Byte).toNat = FrameRate.fps30.fps ∧ State.reset.timeline.roll.filtered = false) ∧
      ((rollingAt 0 State.reset).port 0).takes = true ∧ (rollingAt 0 State.reset).timeline.roll.filtered = true := by
  decide +kernel

theorem witness_LocatePlacesTheFrameAndEndsPunches :
    ((busy.port 0).takes = true ∧ 16777215 < (16777216 : BitVec 32).toNat ∧ (16777215 : BitVec 32).toNat ≤ 16777215 ∧
      busy.timeline.counting = true ∧ busy.playback.passOpen = true ∧ busy.playback.passPort = some 3 ∧
      (busy.port 3).attached = true) ∧ State.reset.timeline.counting = false := by decide +kernel

/-- A steady period while the reel rolls, and the last one of a settle, at which a WRITE strip punches in. -/
theorem witness_SteadyPeriodFiltersSettlesAndCounts :
    (busy.timeline.roll.changes true = false ∧ busy.timeline.rev.changes false = false ∧
      busy.timeline.punch.changes true = false ∧ busy.timeline.settle = 0 ∧ busy.timeline.roll.filtered = true ∧
      busy.timeline.phase + 1 < framePeriods busy.audio.rate busy.timeline.rate ∧
      busy.timeline.counting = (busy.timeline.roll.filtered && busy.timeline.settle == 0)) ∧
    ((fun t : Timeline => decide (t.roll.changes true = false ∧ t.rev.changes false = false ∧ t.punch.changes false = false ∧
        t.settle = 1 ∧ t.roll.filtered = true ∧ t.counting = (t.roll.filtered && t.settle == 0)))
      settling.timeline) = true ∧ settling.risesIn 7 := by decide +kernel

/-- The last period of a frame, with a cue at the next frame. -/
def lastOfFrame : State := busy.modTimeline fun t => { t with phase := 1999 }

/-- The last period of the loop's last frame. -/
def lastOfLoop : State :=
  lastOfFrame.modTimeline fun t => { t with loopStart := 400, loopEnd := 500, loopEnabled := true }

theorem witness_BoundaryMovesTheFrameOrWrapsTheLoop :
    (lastOfFrame.timeline.roll.changes true = false ∧ lastOfFrame.timeline.rev.changes false = false ∧
      lastOfFrame.timeline.punch.changes false = false ∧ lastOfFrame.timeline.settle = 0 ∧
      lastOfFrame.timeline.roll.filtered = true ∧ lastOfFrame.timeline.counting = true ∧
      framePeriods lastOfFrame.audio.rate lastOfFrame.timeline.rate ≤ lastOfFrame.timeline.phase + 1 ∧
      (∀ c ∈ lastOfFrame.playback.cues, if lastOfFrame.timeline.reverse then c.frame < lastOfFrame.timeline.counter
        else lastOfFrame.timeline.counter < c.frame) ∧
      501 = (if lastOfFrame.timeline.reverse then lastOfFrame.timeline.counter - 1
        else if lastOfFrame.timeline.counter < 16777215 then lastOfFrame.timeline.counter + 1
        else lastOfFrame.timeline.counter) ∧
      lastOfFrame.timeline.counter ≤ 16777215 ∧
      ¬(lastOfFrame.timeline.reverse = false ∧ lastOfFrame.timeline.loopEnabled = true ∧
        lastOfFrame.timeline.counter = lastOfFrame.timeline.loopEnd)) ∧
    (lastOfLoop.timeline.roll.changes true = false ∧ lastOfLoop.timeline.rev.changes false = false ∧
      lastOfLoop.timeline.punch.changes false = false ∧ lastOfLoop.timeline.settle = 0 ∧
      lastOfLoop.timeline.roll.filtered = true ∧ lastOfLoop.timeline.counting = true ∧
      framePeriods lastOfLoop.audio.rate lastOfLoop.timeline.rate ≤ lastOfLoop.timeline.phase + 1 ∧
      lastOfLoop.playback.cues = lastOfFrame.playback.cues ∧ lastOfLoop.timeline.reverse = false ∧
      lastOfLoop.timeline.loopEnabled = true ∧ lastOfLoop.timeline.counter = lastOfLoop.timeline.loopEnd) := by
  decide +kernel

/-- An open pass over a stopped reel, with a WRITE strip READY. -/
def stopped : State := (openBy 3 State.reset).modStrip 7 fun r => { r with mode := .write, writeState := .ready }

/-- A line whose next differing period passes its filter. -/
def ripe (l : LineRecord) : LineRecord := { l with filter := 1 }

theorem witness_LineChangeReachesCountingDirectionOrTriggers :
    ((fun t : Timeline => decide (t.counting = (t.roll.filtered && t.settle == 0) ∧ t.roll.changes false = true ∧
        t.rev.changes false = false ∧ t.punch.changes false = false ∧ t.roll.filtered = true ∧ t.settle = 0))
      (busy.modTimeline fun t => { t with roll := ripe t.roll }).timeline) = true ∧
    ((fun t : Timeline => decide (t.counting = (t.roll.filtered && t.settle == 0) ∧ t.roll.changes true = true ∧
        t.rev.changes false = false ∧ t.punch.changes false = false ∧ t.roll.filtered = false ∧ t.settle = 0 ∧
        t.phase + 1 < framePeriods .k48 t.rate))
      (stopped.modTimeline fun t => { t with roll := ripe t.roll }).timeline) = true ∧ stopped.risesIn 7 ∧
    ((fun t : Timeline => decide (t.counting = (t.roll.filtered && t.settle == 0) ∧ t.rev.changes true = true ∧
        t.roll.changes true = false ∧ t.punch.changes false = false ∧ t.counting = true))
      (busy.modTimeline fun t => { t with rev := ripe t.rev }).timeline) = true ∧
    ((fun t : Timeline => decide (t.counting = (t.roll.filtered && t.settle == 0) ∧ t.punch.changes true = true ∧
        t.roll.changes true = false ∧ t.rev.changes false = false ∧ 1 < t.settle))
      (busy.modTimeline fun t => { t with punch := ripe t.punch, settle := 2, counting := false }).timeline) = true ∧
    ((fun t : Timeline => decide (t.counting = (t.roll.filtered && t.settle == 0) ∧ t.punch.changes true = true ∧
        t.roll.changes true = false ∧ t.rev.changes false = false ∧ t.settle = 0 ∧
        t.phase + 1 < framePeriods .k48 t.rate))
      ((desk77 .ready true false).modTimeline fun t => { t with punch := ripe t.punch }).timeline) = true ∧
    ((desk77 .ready true false).armed 33 = true ∧ ((desk77 .ready true false).strip 33).mode.triggered ∧
      ((desk77 .ready true false).strip 33).linePunch = true ∧ ((desk77 .ready true false).strip 33).toucher = none) := by
  decide +kernel

/-- Lines that change together or beside the timeline's own work: ROLL active in the last period of a frame and of a
settle, REV and ROLL together, ROLL and PUNCH together; and cues that lie ahead. -/
theorem witness_LineChangeReachesCountingDirectionOrTriggers_stages :
    (busy.timeline.counting = (busy.timeline.roll.filtered && busy.timeline.settle == 0) ∧
      (∀ c ∈ busy.playback.cues, if busy.timeline.reverse then c.frame < busy.timeline.counter
        else busy.timeline.counter < c.frame) ∧ busy.timeline.counter ≤ 16777215) ∧
    ((fun t : Timeline => decide (t.counting = (t.roll.filtered && t.settle == 0) ∧ t.roll.changes true = true ∧
        t.settle = 0 ∧ framePeriods .k48 t.rate ≤ t.phase + 1))
      (stopped.modTimeline fun t => { t with roll := ripe t.roll, phase := 1999 }).timeline) = true ∧
    ((fun t : Timeline => decide (t.counting = (t.roll.filtered && t.settle == 0) ∧ t.roll.changes true = true ∧
        t.settle = 1))
      (stopped.modTimeline fun t => { t with roll := ripe t.roll, settle := 1 }).timeline) = true ∧
    ((fun t : Timeline => decide (t.counting = (t.roll.filtered && t.settle == 0) ∧ t.roll.changes false = true ∧
        t.rev.changes true = true ∧ t.punch.changes true = true))
      (busy.modTimeline fun t => { t with roll := ripe t.roll, rev := ripe t.rev, punch := ripe t.punch }).timeline) = true ∧
    ((fun t : Timeline => decide (t.counting = (t.roll.filtered && t.settle == 0) ∧ t.roll.changes true = true ∧
        t.rev.changes false = false ∧ t.punch.changes true = true))
      (stopped.modTimeline fun t => { t with roll := ripe t.roll, punch := ripe t.punch }).timeline) = true ∧
    stopped.playback.cues = [] ∧ stopped.timeline.counter ≤ 16777215 := by decide +kernel

/-! ### Witnesses: playback and writing -/

theorem witness_OpenAndClosePassArmAndDisarm :
    (busy.port 3).takes = true ∧ busy.playback.passOpen = true ∧ busy.playback.passPort = some 3 ∧
      ((drained.port 2).takes = true ∧ drained.playback.passOpen = false ∧ drained.writing.takes ≠ [] ∧
        drained.playback.passPort ≠ some 2) ∧
      (State.reset.playback.passOpen = false ∧ State.reset.writing.takes = []) := by decide +kernel

/-- A pass whose cue queue is full. -/
def fullQueue : State :=
  withCues (List.replicate 1024 { frame := 501, strip := 12, value := .fader 1 }) (rollingAt 500 (openBy 3 State.reset))

/-- A request of cues that is appended behind those waiting, the refusals of the whole request, and of one cue: range,
order, full and shape; and a request that its second cue ends. -/
theorem witness_CueIsAppendedAppliedDroppedOrRefused_queue :
    ((busy.port 3).takes = true ∧ busy.playback.passPort = some 3 ∧ busy.playback.passPort ≠ some 1 ∧
      ¬(1 ≤ ([] : List CueField).length ∧ ([] : List CueField).length ≤ 16) ∧
      53 < (List.replicate 54 (faderCue 1 1 1 1)).length) ∧
    (1 ≤ [faderCue 502 12 0x27 0x10].length ∧ [faderCue 502 12 0x27 0x10].length ≤ 16 ∧
      [faderCue 502 12 0x27 0x10].map readCue =
        [{ frame := 502, strip := 12, value := .fader 10000 }].map (fun c : Cue => some { cue := c, shaped := true }) ∧
      busy.playback.cues.length + 1 ≤ 1024 ∧
      (∀ c ∈ busy.playback.cues ++ [{ frame := 502, strip := 12, value := .fader 10000 }],
        if busy.timeline.reverse then c.frame < busy.timeline.counter else busy.timeline.counter < c.frame) ∧
      (busy.playback.cues ++ [({ frame := 502, strip := 12, value := .fader 10000 } : Cue)]).Pairwise (fun c d =>
        if busy.timeline.reverse then d.frame ≤ c.frame else c.frame ≤ d.frame)) ∧
    readCue (faderCue 502 160 0 0) = none ∧
    (readCue (faderCue 501 12 0 1) = some { cue := { frame := 501, strip := 12, value := .fader 1 }, shaped := true } ∧
      busy.playback.cues.getLast? = some { frame := 502, strip := 7, value := .mute true } ∧
      (if busy.timeline.reverse then (502 : Nat) < 501 else (501 : Nat) < 502)) ∧
    ((fullQueue.port 3).takes = true ∧ fullQueue.playback.passPort = some 3 ∧ 1024 ≤ fullQueue.playback.cues.length ∧
      fullQueue.playback.cues.getLast? = some { frame := 501, strip := 12, value := .fader 1 } ∧
      ¬(if fullQueue.timeline.reverse then (501 : Nat) < 501 else (501 : Nat) < 501)) ∧
    (readCue { frame := 502, strip := 12, field := 2, value := value [0] } =
        some { cue := { frame := 502, strip := 12, value := .pan [] }, shaped := false } ∧
      ¬(if busy.timeline.reverse then (502 : Nat) < 502 else (502 : Nat) < 502)) ∧
    ([faderCue 502 12 0x27 0x10] ≠ [] ∧ [faderCue 501 12 0 1, faderCue 503 1 0 1] ≠ [] ∧
      [faderCue 502 12 0x27 0x10].length + [faderCue 501 12 0 1, faderCue 503 1 0 1].length ≤ 16) := by decide +kernel

/-- On an empty queue: a cue behind the frame, one at it without the shape of a pan list, and one at it that is
applied. -/
theorem witness_CueIsAppendedAppliedDroppedOrRefused_empty :
    ((rollingAt 503 (openBy 3 State.reset)).port 3).takes = true ∧
      (rollingAt 503 (openBy 3 State.reset)).playback.passPort = some 3 ∧
      (rollingAt 503 (openBy 3 State.reset)).playback.cues = [] ∧
      (readCue (faderCue 502 12 0 1) = some { cue := { frame := 502, strip := 12, value := .fader 1 }, shaped := true } ∧
        (if (rollingAt 503 (openBy 3 State.reset)).timeline.reverse then
            (rollingAt 503 (openBy 3 State.reset)).timeline.counter < 502
          else 502 < (rollingAt 503 (openBy 3 State.reset)).timeline.counter)) ∧
      (readCue { frame := 503, strip := 12, field := 2, value := value [0] } =
        some { cue := { frame := 503, strip := 12, value := .pan [] }, shaped := false } ∧
        503 = (rollingAt 503 (openBy 3 State.reset)).timeline.counter) ∧
      readCue (faderCue 503 12 0 1) = some { cue := { frame := 503, strip := 12, value := .fader 1 }, shaped := true } := by
  decide +kernel

theorem witness_TakeRemovesTheOldestRecords :
    (drained.port 2).takes = true ∧ (drained.port 0).takes = true ∧ drained.writing.takePort ≠ some 0 ∧
      drained.writing.takePort = some 2 ∧ (1 ≤ (16 : Byte).toNat ∧ (16 : Byte).toNat ≤ 16) ∧
      ¬(1 ≤ (0 : Byte).toNat ∧ (0 : Byte).toNat ≤ 16) ∧ ¬(1 ≤ (17 : Byte).toNat ∧ (17 : Byte).toNat ≤ 16) ∧
      drained.writing.takes ≠ [] ∧
      ((busy.port 3).takes = true ∧ busy.writing.takePort = some 3 ∧ busy.writing.takes = []) := by decide +kernel

/-! ### Witnesses: the audio interface and a port's own requests -/

theorem witness_PatchAndLaneRequestsAnswerTheirRuns :
    (State.reset.port 0).takes = true ∧
      (1 ≤ [PatchField.mk 4 3 5 2].length ∧ [PatchField.mk 4 3 5 2].length ≤ 16 ∧
        (127 : Byte).toNat + [PatchField.mk 4 3 5 2].length ≤ 128 ∧
        [PatchField.mk 4 3 5 2].map readPatch =
          [{ selection := .input 3 5, safe0 := false, safe1 := true }].map some) ∧
      (∃ e ∈ [PatchField.mk 5 0 0 0], readPatch e = none) ∧
      ¬(1 ≤ [PatchField.mk 4 3 5 2].length ∧ [PatchField.mk 4 3 5 2].length ≤ 16 ∧
        (128 : Byte).toNat + [PatchField.mk 4 3 5 2].length ≤ 128) ∧
      254 < (List.replicate 255 (PatchField.mk 0 0 0 0)).length ∧
      (1 ≤ (16 : Byte).toNat ∧ (16 : Byte).toNat ≤ 16 ∧ (112 : Byte).toNat + (16 : Byte).toNat ≤ 128) ∧
      ¬(1 ≤ (16 : Byte).toNat ∧ (16 : Byte).toNat ≤ 16 ∧ (113 : Byte).toNat + (16 : Byte).toNat ≤ 128) := by
  decide +kernel

/-- FREE with and without an edge held, at the 255th and 256th good period, and LOCKED at the third and fourth missing
edge; spacings at the window's ends and beyond them. -/
theorem witness_SyncMonitorLocksFollowsAndLoses :
    State.reset.audio.locked = false ∧ State.reset.audio.measuring = false ∧ (desk85 0).audio.locked = true ∧
      (∀ d ∈ [62000, 66000], 31 * 64000 ≤ 32 * d ∧ 32 * d ≤ 33 * 64000) ∧
      (∀ d ∈ [61999, 66001], ¬(31 * 64000 ≤ 32 * d ∧ 32 * d ≤ 33 * 64000)) ∧
      ({ State.reset.audio with measuring := true, lockCount := 254 }.measuring = true ∧
        { State.reset.audio with measuring := true, lockCount := 254 }.lockCount + 1 < 256) ∧
      256 ≤ { State.reset.audio with measuring := true, lockCount := 255 }.lockCount + 1 ∧
      { (desk85 0).audio with missing := 2 }.missing + 1 < 4 ∧ 4 ≤ { (desk85 0).audio with missing := 3 }.missing + 1 := by
  decide +kernel

/-- A lane UP, the first to fall, and a DOWN lane at its 15th and 16th marker, LOCKED and FREE. -/
theorem witness_LanesComeUpAfterSixteenMarkersAndFallAtOneMissing :
    (desk85 0).audio.lanes[(0 : LaneNo)].up = true ∧
      (∀ i : LaneNo, ((desk85 0).audio.modLane 3 fun _ => Lane.upWith (Vector.replicate 16 0)).lanes[i].up = true) ∧
      ((desk85 14).audio.lanes[(3 : LaneNo)].up = false ∧ (desk85 14).audio.locked = true ∧
        (desk85 14).audio.lanes[(3 : LaneNo)].markers + 1 < 16) ∧
      16 ≤ (desk85 15).audio.lanes[(3 : LaneNo)].markers + 1 ∧
      (State.reset.audio.lanes[(3 : LaneNo)].up = false ∧ State.reset.audio.locked = false) := by decide +kernel

/-- A port outside a transaction, and in one with an empty reply slot; WINDOW-SET at the ends of its ranges. -/
theorem witness_PortRequestsTouchTheRequesterAlone :
    (desk91.port 1).takes = true ∧ (desk91.port 1).transaction ≠ .opened ∧
      (((desk91.modPort 1 PortState.selRises).port 1).transaction = .opened ∧
        ((desk91.modPort 1 PortState.selRises).port 1).replySlot = none) ∧
      3 < (4 : Byte).toNat ∧ 159 < (160 : Byte).toNat ∧ (19 : Byte).toNat < (20 : Byte).toNat ∧ 1 < (2 : Byte).toNat ∧
      ((3 : Byte).toNat = (3 : Fin 4).val ∧ (159 : Byte).toNat = (159 : StripNo).val ∧
        (20 : Byte).toNat ≤ (20 : Byte).toNat) := by decide +kernel

end Sys2Proof.Tests
end

/-!
PROOFS. The used values of a strip, one equation per row of the table of R7, and the trimmed fader at unity trim (R8).
-/
namespace Sys2Proof.Machine

theorem punched_iff {w : WriteState} : w.punched = true ↔ w = .writing ∨ w = .latched := by
  cases w <;> simp [WriteState.punched]

/-- WRITE, TOUCH and LATCH: the modes whose rows of R7 depend on the write state. -/
def Mode.byWriteState (m : Mode) : Prop := m = .write ∨ m = .touch ∨ m = .latch

/-! ### The rows of R7 -/

@[simp] theorem used_of_closed (r : Strip) : r.used false = r.live := rfl

theorem used_of_live {r : Strip} (hm : r.mode = .live) : r.used true = r.live := by simp [Strip.used, hm]

theorem used_of_playback {r : Strip} (hm : r.mode = .playback) : r.used true = r.shadowed := by simp [Strip.used, hm]

theorem used_of_byWriteState {r : Strip} (hm : r.mode.byWriteState) :
    r.used true = if r.writeState.punched then r.live else r.shadowed := by
  rcases hm with hm | hm | hm <;> simp [Strip.used, hm]

theorem used_of_trim {r : Strip} (hm : r.mode = .trim) :
    r.used true = { r.shadowed with fader := trimmed r.shadowed.fader r.trim } := by simp [Strip.used, hm]

theorem used_of_punched {r : Strip} (hm : r.mode.byWriteState) (hw : r.writeState = .writing ∨ r.writeState = .latched) :
    r.used true = r.live := by rw [used_of_byWriteState hm, if_pos (punched_iff.mpr hw)]

theorem used_of_waiting {r : Strip} (hm : r.mode.byWriteState) (hw : r.writeState = .wait ∨ r.writeState = .ready) :
    r.used true = r.shadowed := by
  have hn : ¬r.writeState.punched = true := by
    rcases hw with hw | hw <;> simp [punched_iff, hw]
  rw [used_of_byWriteState hm, if_neg hn]

/-! ### The trimmed fader -/

/-- Half of 16,384 added to a multiple of it is rounded away, so unity trim leaves a fader in range as it is (R8). -/
theorem trimmed_unity {base : Nat} (h : base ≤ Config.max16) : trimmed base 16384 = base := by
  have hq : (base * 16384 + 8192) / 16384 = base := by omega
  rw [trimmed, hq, Nat.min_eq_right h]

/-- Settles O31: each premise selects rows of the table, with the pass open or closed. -/
theorem usedValuesFollowPassModeAndWriteState : Obligations.UsedValuesFollowPassModeAndWriteState := by
  intro n s
  refine ⟨fun h => ?_, fun hp h => ?_, fun hp hm => ?_⟩
  · change (s.strip n).used s.playback.passOpen = (s.strip n).live
    cases hp : s.playback.passOpen with
    | false => exact used_of_closed _
    | true =>
      rcases h with hc | hm | ⟨hm, hw⟩
      · exact absurd hp (by simp [hc])
      · exact used_of_live hm
      · exact used_of_punched hm hw
  · change (s.strip n).used s.playback.passOpen = (s.strip n).shadowed
    rw [hp]
    rcases h with hm | ⟨hm, hw⟩
    · exact used_of_playback hm
    · exact used_of_waiting hm hw
  · have hu : s.used n = { (s.strip n).shadowed with fader := trimmed (s.strip n).shadowed.fader (s.strip n).trim } := by
      rw [State.used, hp, used_of_trim hm]
    refine ⟨hu, fun ht hb => ?_⟩
    rw [hu, ht]
    exact trimmed_unity hb

end Sys2Proof.Machine

/-!
PROOFS. Coefficient cells and the summing arithmetic: the rows of R34's target, the ramp of a cell over one sample
period of the engine (R38), and the bound of the accumulators (R46).
-/
namespace Sys2Proof.Machine

/-! ### The rows of R34 -/

theorem targetOf_muted {u : Used} (h : u.mute = true) (width : Option Nat) (c : Channel) : targetOf u width c = 0 := by
  simp [targetOf, h]

@[simp] theorem targetOf_noWidth (u : Used) (c : Channel) : targetOf u none c = 0 := by simp [targetOf]

theorem targetOf_beyond (u : Used) {w : Nat} {c : Channel} (h : w ≤ c.val) : targetOf u (some w) c = 0 := by
  simp [targetOf, h]

/-- A channel that no pan entry names. -/
theorem targetOf_unnamed {u : Used} {c : Channel} (h : ∀ e ∈ u.pan, e.channel ≠ c) (width : Option Nat) :
    targetOf u width c = 0 := by
  have hf : u.pan.find? (·.channel == c) = none := by simpa using h
  cases width <;> simp [targetOf, hf]

/-- The entry that alone names channel `c` is the one found. -/
theorem find_of_only {l : List PanEntry} {c : Channel} {e : PanEntry} (he : e ∈ l) (hc : e.channel = c)
    (only : ∀ d ∈ l, d.channel = c → d = e) : l.find? (·.channel == c) = some e := by
  cases hf : l.find? (·.channel == c) with
  | none => exact absurd hc (by simpa using List.find?_eq_none.mp hf e he)
  | some d =>
    have hd : d.channel = c := by simpa using List.find?_some hf
    rw [only d (List.mem_of_find?_eq_some hf) hd]

theorem targetOf_named {u : Used} {w : Nat} {c : Channel} {e : PanEntry} (hm : u.mute = false) (hw : c.val < w)
    (he : e ∈ u.pan) (hc : e.channel = c) (only : ∀ d ∈ u.pan, d.channel = c → d = e) :
    targetOf u (some w) c = weighted u.fader e.weight := by
  simp [targetOf, hm, Nat.not_le.mpr hw, find_of_only he hc only]

theorem weighted_le {f w : Nat} (h : w ≤ 16384) : weighted f w ≤ f := by
  have : f * w ≤ f * 16384 := Nat.mul_le_mul_left f h
  unfold weighted; omega

@[simp] theorem weighted_full (f : Nat) : weighted f 16384 = f := by unfold weighted; omega

@[simp] theorem weighted_zero (f : Nat) : weighted f 0 = 0 := by simp [weighted]

/-- Writing a strip with its used values and its destination as they were leaves its targets. -/
theorem target_setStrip_of_used {s : State} {n : StripNo} {r : Strip}
    (hu : r.used s.playback.passOpen = (s.strip n).used s.playback.passOpen) (hd : r.dest = (s.strip n).dest)
    (c : Channel) : (s.setStrip n r).target n c = s.target n c := by
  have hr := strip_setStrip_self s n r
  refine target_of_used (s := s) (t := s.setStrip n r) ?_ (by rw [hr, hd]) rfl rfl c
  rw [State.used, hr]
  exact hu

/-- Settles O32: each premise selects a row of the table; the record enters through used values and destination. -/
theorem cellTargetFollowsUsedValuesAndWidth : Obligations.CellTargetFollowsUsedValuesAndWidth := by
  intro n c s
  refine ⟨fun hm => targetOf_muted hm _ c, fun hd => ?_, fun w hw hc => ?_, fun h => targetOf_unnamed h _,
    fun w hw hm hc e he only hec => ?_, fun src inv => ?_, fun b hb => ?_, fun k hk => ?_⟩
  · simp [State.target, hd, BusTable.destWidth]
  · rw [State.target, hw, targetOf_beyond _ hc]
  · have ht : s.target n c = weighted (s.used n).fader e.weight := by
      rw [State.target, hw, targetOf_named hm hc he hec only]
    rw [ht]
    exact ⟨rfl, weighted_le, fun h => by rw [h, weighted_full], fun h => by rw [h, weighted_zero]⟩
  · exact target_setStrip_of_used (by rfl) (by rfl) c
  · rw [hb]; rfl
  · rw [hk]; rfl

/-! ### The engine's sample period -/

theorem exec_engineSamplePeriod (s : State) : exec .engineSamplePeriod s = .next (enginePeriod s) := rfl

@[simp] theorem enginePeriod_engine (s : State) : (enginePeriod s).engine = s.mix.engine := by rw [enginePeriod_eq]

@[simp] theorem enginePeriod_handed (s : State) : (enginePeriod s).audio.handed = s.mix.handed := by
  rw [enginePeriod_eq]

theorem mix_stripCells (s : State) :
    s.mix.engine.stripCells = s.engine.stripCells.map fun v => v.map Cell.advance := rfl

theorem mix_gainCells (s : State) : s.mix.engine.gainCells = s.engine.gainCells.map Cell.advance := rfl

/-- Stage 2 steps every cell of every strip (R38). -/
theorem cells_enginePeriod (s : State) (n : StripNo) (c : Channel) :
    ((enginePeriod s).cells n)[c] = ((s.cells n)[c]).advance := by
  simp [State.cells, mix_stripCells]

/-- Stage 2 steps every cell, of strips and of buses (R33, R38). -/
theorem cell_enginePeriod (s : State) (k : CellNo) : (enginePeriod s).engine.cell k = (s.engine.cell k).advance := by
  unfold Engine.cell
  split <;> simp [mix_stripCells, mix_gainCells]

/-! ### Steps of a ramp -/

/-- A step of a ramping cell stays between start and target. -/
theorem advance_between {c : Cell} (h : c.step < c.length) :
    min c.start c.target ≤ c.advance.current ∧ c.advance.current ≤ max c.start c.target := by
  have hv := advance_current h
  have hb := tdiv_share ((c.target : Int) - c.start) (k := c.step + 1) (l := c.length) h (by omega)
  push_cast at hb
  omega

/-- The last step reaches the target. -/
theorem advance_last {c : Cell} (h : c.step + 1 = c.length) : c.advance.current = c.target := by
  have hv := advance_current (c := c) (by omega)
  have hl : (c.length : Int) ≠ 0 := by omega
  have hk : (c.step : Int) + 1 = c.length := by exact_mod_cast h
  rw [hk, Int.mul_tdiv_cancel _ hl] at hv
  omega

/-- A truncated share times its divisor differs from the whole by the remainder, so two neighbouring shares of `x`
differ by `x / l` up to one. -/
theorem tdiv_step (x : Int) (k : Nat) {l : Nat} (hl : 0 < l) :
    |(Int.tdiv (x * (k + 1)) l - Int.tdiv (x * k) l) * l - x| < l := by
  wlog hx : 0 ≤ x generalizing x
  · have h := this (-x) (by omega)
    rw [neg_mul, neg_mul, Int.neg_tdiv, Int.neg_tdiv] at h
    rw [← abs_neg]
    convert h using 2
    ring
  have hl' : (0 : Int) < l := by exact_mod_cast hl
  have hnext := Int.mul_tdiv_add_tmod (x * (k + 1)) l
  have hhere := Int.mul_tdiv_add_tmod (x * k) l
  have hd : (Int.tdiv (x * (k + 1)) l - Int.tdiv (x * k) l) * l - x =
      Int.tmod (x * k) l - Int.tmod (x * (k + 1)) l := by linear_combination hnext - hhere
  have := Int.tmod_lt_of_pos (x * (k + 1)) hl'
  have := Int.tmod_lt_of_pos (x * k) hl'
  have := Int.tmod_nonneg l (show 0 ≤ x * ((k : Int) + 1) by positivity)
  have := Int.tmod_nonneg l (show 0 ≤ x * (k : Int) by positivity)
  rw [hd, abs_lt]
  omega

/-- Settles O33: every cell takes `Cell.advance`, whose value is the ramp's at the next step. -/
theorem rampStepsRunFromStartToTarget : Obligations.RampStepsRunFromStartToTarget := by
  rintro k c d s rfl
  refine ⟨enginePeriod s, exec_engineSamplePeriod s, ?_⟩
  rintro rfl
  rw [cell_enginePeriod]
  generalize s.engine.cell k = c
  refine ⟨advance_settled, fun h => ?_⟩
  obtain ⟨above, below⟩ := advance_between h
  refine ⟨advance_step h, advance_start c, advance_target c, advance_length c, advance_current h, above, below,
    advance_last, fun hc => ?_⟩
  rw [advance_current h, hc, add_sub_add_left_eq_sub]
  exact tdiv_step _ _ (by omega)

/-! ### Samples (R29 to R32) -/

/-- The sample range (00_scope.md section 7.2). -/
def InSampleRange (x : Int) : Prop := -8388608 ≤ x ∧ x ≤ 8388607

theorem inSampleRange_zero : InSampleRange 0 := by constructor <;> norm_num

theorem slotPresent_iff (rate : SampleRate) (k : SlotNo) : slotPresent rate k.val = true ↔ rate = .k48 ∨ k.val < 8 := by
  cases rate <;> simp [slotPresent]

/-- On a sample the clamp of a negation concerns the least value alone (R32). -/
theorem polarize_eq (inverted : Bool) {x : Int} (h : InSampleRange x) :
    polarize inverted x = if inverted then (if x = -8388608 then 8388607 else -x) else x := by
  obtain ⟨low, high⟩ := h
  cases inverted with
  | false => rfl
  | true =>
    simp only [polarize, if_true]
    split
    · next e => rw [e]; rfl
    · exact sat24_inside (by omega) (by omega)

theorem polarize_inSampleRange (inverted : Bool) {x : Int} (h : InSampleRange x) :
    InSampleRange (polarize inverted x) := by
  cases inverted with
  | false => exact h
  | true => exact sat24_range (-x)

theorem rawSlot_eq (a : Audio) (l : LaneNo) (k : SlotNo) :
    a.rawSlot l k = if a.lanes[l].up = true ∧ (a.rate = .k48 ∨ k.val < 8) then (a.lanes[l]).slots[k] else 0 := by
  simp [Audio.rawSlot, slotPresent_iff]

/-- Every slot of every lane holds a sample (R153). -/
def Audio.SlotsInRange (a : Audio) : Prop := ∀ (l : LaneNo) (k : SlotNo), InSampleRange (a.lanes[l]).slots[k]

/-- The value of a source before its polarity (R30, R31). -/
def Audio.sourceValue (a : Audio) (premix : Vector (Vector Int 12) 16) : Source → Int
  | .none => 0
  | .input l k => a.rawSlot l k
  | .premix b c => premix[b][c]

theorem gather_eq (a : Audio) (premix : Vector (Vector Int 12) 16) (r : Strip) :
    gather a premix r = polarize r.inverted (a.sourceValue premix r.source) := by
  unfold gather Audio.sourceValue
  cases r.source <;> rfl

theorem sourceValue_inSampleRange {a : Audio} {premix : Vector (Vector Int 12) 16} (ha : a.SlotsInRange)
    (hp : ∀ (b : PremixNo) (c : Channel), InSampleRange premix[b][c]) (src : Source) :
    InSampleRange (a.sourceValue premix src) := by
  cases src with
  | none => exact inSampleRange_zero
  | input l k =>
    rw [Audio.sourceValue, rawSlot_eq]
    split
    · exact ha l k
    · exact inSampleRange_zero
  | premix b c => exact hp b c

theorem gather_inSampleRange {a : Audio} {premix : Vector (Vector Int 12) 16} (ha : a.SlotsInRange)
    (hp : ∀ (b : PremixNo) (c : Channel), InSampleRange premix[b][c]) (r : Strip) :
    InSampleRange (gather a premix r) := by
  rw [gather_eq]
  exact polarize_inSampleRange _ (sourceValue_inSampleRange ha hp _)

/-- The samples gathered when the premix outputs are `premix`. -/
def State.gathered (s : State) (premix : Vector (Vector Int 12) 16) : Vector Int 160 :=
  Vector.ofFn fun n => gather s.audio premix s.strips[n]

theorem gathered_inSampleRange {s : State} {premix : Vector (Vector Int 12) 16} (ha : s.audio.SlotsInRange)
    (hp : ∀ (b : PremixNo) (c : Channel), InSampleRange premix[b][c]) (n : StripNo) :
    InSampleRange (s.gathered premix)[n] := by
  simpa [State.gathered] using gather_inSampleRange ha hp s.strips[n]

/-- The premix accumulators: what is gathered before there is a premix output (R42). -/
def State.premixAccumulators (s : State) : Vector (Vector Int 12) 16 :=
  Vector.ofFn fun b =>
    busAccumulators s (advanceCells s.engine) (s.gathered Handed.zero.premix) (premixBus b) (toPremix b)

/-- The stem accumulators: what is gathered with the premix outputs of the same period (R44). -/
def State.stemAccumulators (s : State) : Vector (Vector Int 12) 8 :=
  Vector.ofFn fun t =>
    busAccumulators s (advanceCells s.engine) (s.gathered s.mix.handed.premix) (stemBus t) (toStem t)

theorem mix_accumulators (s : State) : s.mix.engine.accumulators = s.premixAccumulators ++ s.stemAccumulators := rfl

theorem mix_premix (s : State) :
    s.mix.handed.premix =
      Vector.ofFn fun b => busOutputs s.premixAccumulators[b] (s.mix.engine.gainCells[premixBus b]).current := rfl

/-- The outputs that stage 4 forms are clamped (R43). -/
theorem premixOut_inSampleRange (s : State) (b : PremixNo) (c : Channel) :
    InSampleRange (s.mix.handed.premix[b])[c] := by
  simp only [mix_premix, busOutputs, Fin.getElem_fin, Vector.getElem_ofFn, Vector.getElem_map]
  exact sat24_range _

/-- The sample of a strip is what the period gathers from the premix outputs it formed. -/
theorem sampleOf_enginePeriod {s : State} (ha : s.audio.SlotsInRange) (n : StripNo) :
    sampleOf s (enginePeriod s) n = gather s.audio s.mix.handed.premix (s.strip n) := by
  rw [gather_eq, polarize_eq _ (sourceValue_inSampleRange ha (premixOut_inSampleRange s) _)]
  unfold sampleOf
  rw [enginePeriod_handed]
  cases (s.strip n).source with
  | none => rfl
  | input l k => simp only [Audio.sourceValue, rawSlot_eq]
  | premix b c => rfl

/-! ### Accumulators (R42, R44, R46) -/

/-- A step of a ramp keeps the value within any bound of start, target and value. -/
theorem advance_current_le {c : Cell} {m : Nat} (hc : c.current ≤ m) (hs : c.start ≤ m) (ht : c.target ≤ m) :
    c.advance.current ≤ m := by
  rcases Nat.lt_or_ge c.step c.length with h | h
  · exact (advance_between h).2.trans (max_le hs ht)
  · rw [advance_settled h]; exact hc

/-- A sample times a cell is at most 8,388,608 times 65,535 in magnitude. -/
theorem abs_product_le {x : Int} {v : Nat} (hx : InSampleRange x) (hv : v ≤ 65535) :
    |x * (v : Int)| ≤ 549747425280 := by
  have hx' : |x| ≤ 8388608 := abs_le.mpr ⟨hx.1, by have := hx.2; omega⟩
  have hv' : |(v : Int)| ≤ 65535 := by rw [Nat.abs_cast]; exact_mod_cast hv
  calc |x * (v : Int)| = |x| * |(v : Int)| := abs_mul _ _
    _ ≤ 8388608 * 65535 := mul_le_mul hx' hv' (abs_nonneg _) (by norm_num)
    _ = 549747425280 := by norm_num

/-- A sum over any of the 160 strips of terms so bounded, some left out, is at most 160 times as large (R46). -/
theorem abs_sum_strips_le (strips : Finset StripNo) {p : StripNo → Prop} [DecidablePred p] {f : StripNo → Int}
    (hf : ∀ n, |f n| ≤ 549747425280) : |∑ n ∈ strips, if p n then f n else 0| ≤ 87959588044800 := by
  have hterm : ∀ n ∈ strips, |if p n then f n else 0| ≤ 549747425280 := by
    intro n _
    split
    · exact hf n
    · norm_num
  have hcard : (strips.card : Int) ≤ 160 := by exact_mod_cast (by simpa using Finset.card_le_univ strips)
  calc |∑ n ∈ strips, if p n then f n else 0| ≤ ∑ n ∈ strips, |if p n then f n else 0| := Finset.abs_sum_le_sum_abs _ _
    _ ≤ strips.card • 549747425280 := Finset.sum_le_card_nsmul _ _ _ hterm
    _ ≤ 87959588044800 := by rw [nsmul_eq_mul]; omega

/-- Every strip cell has a current value of at most `m`. -/
def Engine.CellsBelow (e : Engine) (m : Nat) : Prop := ∀ (n : StripNo) (c : Channel), ((e.stripCells[n])[c]).current ≤ m

theorem abs_accumulate_le {e : Engine} {samples : Vector Int 160} (strips : Vector Strip 160) (feeds : Dest → Bool)
    (he : e.CellsBelow 65535) (hs : ∀ n : StripNo, InSampleRange samples[n]) (c : Channel) :
    |accumulate strips e.stripCells samples feeds c| ≤ 87959588044800 := by
  rw [accumulate_eq]
  exact abs_sum_strips_le _ fun n => abs_product_le (hs n) (he n c)

theorem abs_busAccumulators_le {e : Engine} {samples : Vector Int 160} (s : State) (b : BusNo) (feeds : Dest → Bool)
    (he : e.CellsBelow 65535) (hs : ∀ n : StripNo, InSampleRange samples[n]) (c : Channel) :
    |(busAccumulators s e samples b feeds)[c]| ≤ 87959588044800 := by
  simp only [busAccumulators, Fin.getElem_fin, Vector.getElem_ofFn]
  split
  · exact abs_accumulate_le s.strips feeds he hs c
  · norm_num

/-- A bus is a premix or a stem (R51). -/
theorem bus_cases (b : BusNo) : (∃ k : PremixNo, b = premixBus k) ∨ ∃ t : StemNo, b = stemBus t := by
  rcases Nat.lt_or_ge b.val 16 with h | h
  · exact .inl ⟨⟨b.val, h⟩, rfl⟩
  · exact .inr ⟨⟨b.val - 16, by omega⟩, Fin.ext (by simp only [stemBus]; omega)⟩

theorem mix_accumulators_premix (s : State) (k : PremixNo) :
    s.mix.engine.accumulators[premixBus k] =
      busAccumulators s (advanceCells s.engine) (s.gathered Handed.zero.premix) (premixBus k) (toPremix k) := by
  simp only [mix_accumulators, Fin.getElem_fin, premixBus]
  rw [Vector.getElem_append_left k.isLt]
  simp only [State.premixAccumulators, Vector.getElem_ofFn, premixBus]

theorem mix_accumulators_stem (s : State) (t : StemNo) :
    s.mix.engine.accumulators[stemBus t] =
      busAccumulators s (advanceCells s.engine) (s.gathered s.mix.handed.premix) (stemBus t) (toStem t) := by
  simp only [mix_accumulators, Fin.getElem_fin, stemBus]
  rw [Vector.getElem_append_right (by omega) (by omega)]
  simp only [State.stemAccumulators, Vector.getElem_ofFn, stemBus, Nat.add_sub_cancel]

theorem zeroPremix_inSampleRange (k : PremixNo) (c : Channel) : InSampleRange (Handed.zero.premix[k])[c] := by
  simp [Handed.zero, inSampleRange_zero]

/-- No accumulator of a premix or a stem exceeds 160 times the largest product (R46). -/
theorem abs_mix_accumulators_le {s : State} (ha : s.audio.SlotsInRange) (he : (advanceCells s.engine).CellsBelow 65535)
    (b : BusNo) (c : Channel) : |(s.mix.engine.accumulators[b])[c]| ≤ 87959588044800 := by
  rcases bus_cases b with ⟨k, rfl⟩ | ⟨t, rfl⟩
  · rw [mix_accumulators_premix]
    exact abs_busAccumulators_le _ _ _ he (gathered_inSampleRange ha zeroPremix_inSampleRange) c
  · rw [mix_accumulators_stem]
    exact abs_busAccumulators_le _ _ _ he (gathered_inSampleRange ha (premixOut_inSampleRange s)) c

/-- Settles O37: every term of a sum is a sample times a cell, and there are 160 strips at most. -/
theorem accumulatorsNeverExceedFortyEightBits : Obligations.AccumulatorsNeverExceedFortyEightBits := by
  intro strips d s hcells hslots
  have hcell : ∀ (n : StripNo) (c : Channel), ((s.cells n)[c]).advance.current ≤ 65535 := fun n c =>
    have ⟨current, start, target⟩ := hcells n c
    advance_current_le current start target
  have hengine : (advanceCells s.engine).CellsBelow 65535 := fun n c => by
    simpa [advanceCells, State.cells] using hcell n c
  refine ⟨enginePeriod s, exec_engineSamplePeriod s, fun b c => ?_⟩
  have hterm : ∀ n, |sampleOf s (enginePeriod s) n * (((enginePeriod s).cells n)[c].current : Int)| ≤ 549747425280 := by
    intro n
    rw [sampleOf_enginePeriod hslots, cells_enginePeriod]
    exact abs_product_le (gather_inSampleRange hslots (premixOut_inSampleRange s) _) (hcell n c)
  refine ⟨?_, by norm_num, hterm, abs_sum_strips_le strips hterm⟩
  rw [enginePeriod_engine]
  exact abs_mix_accumulators_le hslots hengine b c

end Sys2Proof.Machine

/-!
PROOFS. Buses and the print master: the outputs of stems and the clamped print sum (R45, R47, R60), and the requests on
clip flags, meters and bus records (R62, R67, R68, R69).
-/
namespace Sys2Proof.Machine

/-! ### The print master (R60) -/

/-- The engine's clamp is the one that claims name. -/
theorem sat24_eq_clamp24 (x : Int) : sat24 x = clamp24 x := by
  simp only [sat24, clamp24, Config.sampleMin, Config.sampleMax]
  split
  · omega
  · split <;> omega

theorem mix_stem (s : State) :
    s.mix.handed.stem =
      Vector.ofFn fun k => busOutputs s.stemAccumulators[k] (s.mix.engine.gainCells[stemBus k]).current := rfl

theorem mix_masters (s : State) :
    s.mix.handed.master = (Vector.ofFn fun c => printSum s.busTable.print s.mix.handed.stem c).map sat24 := rfl

/-- The print master is the clamped print sum of the stem outputs of the same period (R47). -/
theorem mix_master (s : State) (c : Channel) :
    s.mix.handed.master[c] = sat24 (printSum s.busTable.print s.mix.handed.stem c) := by
  rw [mix_masters]
  generalize s.mix.handed.stem = stems
  simp

/-- The stem outputs that stage 6 forms are clamped (R45). -/
theorem stemOut_inSampleRange (s : State) (k : StemNo) (c : Channel) : InSampleRange (s.mix.handed.stem[k])[c] := by
  simp only [mix_stem, busOutputs, Fin.getElem_fin, Vector.getElem_ofFn, Vector.getElem_map]
  exact sat24_range _

/-- A channel without an accumulator gives 0 (R45). -/
@[simp] theorem scaled_zero (gain : Nat) : scaled 0 gain = 0 := by simp [scaled]

@[simp] theorem busWidth_stemBus (t : BusTable) (k : StemNo) : t.busWidth (stemBus k) = t.masterWidth := by
  simp [BusTable.busWidth, stemBus]

/-- A bus has no accumulator at or beyond its width (R42, R44). -/
theorem busAccumulators_beyond {s : State} {b : BusNo} {c : Channel} (h : s.busTable.busWidth b ≤ c.val) (e : Engine)
    (samples : Vector Int 160) (feeds : Dest → Bool) : (busAccumulators s e samples b feeds)[c.val] = 0 := by
  simp [busAccumulators, Nat.not_lt.mpr h]

/-- Stems have the master width (R59), so beyond it their outputs are 0. -/
theorem stemOut_beyond {s : State} {c : Channel} (h : s.busTable.masterWidth ≤ c.val) (k : StemNo) :
    (s.mix.handed.stem[k])[c] = 0 := by
  have hacc : s.stemAccumulators[k][c.val] = 0 := by
    simp only [State.stemAccumulators, Fin.getElem_fin, Vector.getElem_ofFn]
    exact busAccumulators_beyond (by simpa using h) ..
  have hout : (s.mix.handed.stem[k])[c] =
      sat24 (scaled s.stemAccumulators[k][c.val] (s.mix.engine.gainCells[stemBus k]).current) := by
    simp [mix_stem, busOutputs]
  rw [hout, hacc, scaled_zero]
  rfl

/-- The sum is exact before its one clamp, so a print master channel with nothing to add is 0. -/
theorem master_zero_of_terms {s : State} {c : Channel}
    (h : ∀ k : StemNo, s.busTable.print[k] = true → (s.mix.handed.stem[k])[c] = 0) : s.mix.handed.master[c] = 0 := by
  have hsum : printSum s.busTable.print s.mix.handed.stem c = 0 := by
    rw [printSum_eq]
    refine Finset.sum_eq_zero fun k _ => ?_
    split
    · next hk => exact h k hk
    · rfl
  rw [mix_master, hsum]
  rfl

/-- Settles O36: the print master is `sat24` of the print sum, whose terms are 0 beyond the width or out of print. -/
theorem printMasterIsTheClampedSumOfStemsInPrint : Obligations.PrintMasterIsTheClampedSumOfStemsInPrint := by
  intro s
  refine ⟨enginePeriod s, exec_engineSamplePeriod s, fun c => ?_⟩
  rw [enginePeriod_handed, ← printSum_eq]
  refine ⟨?_, fun low high => ?_, fun k => stemOut_inSampleRange s k c, rfl, fun beyond => ⟨?_, stemOut_beyond beyond⟩,
    fun off => ?_⟩
  · rw [mix_master, sat24_eq_clamp24]
  · rw [mix_master, sat24_inside low high]
  · exact master_zero_of_terms fun k _ => stemOut_beyond beyond k
  · exact master_zero_of_terms fun k on => absurd on (by simp [off k])

/-! ### What a request leaves -/

theorem modPort_congr {s : State} {p : PortId} {f g : PortState → PortState} (h : f (s.port p) = g (s.port p)) :
    s.modPort p f = s.modPort p g := by
  have h' : f s.ports[p] = g s.ports[p] := h
  simp only [State.modPort, upd, h']

/-- The reply to a request that was taken overwrites what the transaction left in the slot (R165). -/
theorem answer_transacted {s : State} {p : PortId} (h : (s.port p).takes = true) (code : Byte) (st : Status)
    (l : List Byte) : answer p code st l (s.modPort p PortState.transacted) = s.leaves p (reply code st l) := by
  rw [answer, modPort_modPort, State.leaves]
  refine modPort_congr ?_
  rw [transacted_taken h]
  rfl

theorem port_of_ports {s u : State} (h : u.ports = s.ports) (p : PortId) : u.port p = s.port p := by
  rw [State.port, h, State.port]

theorem ports_withBusTable (s : State) (t : BusTable) : ({ s with busTable := t } : State).ports = s.ports := rfl

/-- A request that is taken and answers in state `u`, which has the ports of `s`, leaves `u` with the reply. -/
theorem request_leaves {s u : State} {p : PortId} {f : State → State} {code : Byte} {st : Status} {l : List Byte}
    (h : (s.port p).takes = true) (hu : u.ports = s.ports)
    (hf : f (s.modPort p PortState.transacted) = answer p code st l (u.modPort p PortState.transacted)) :
    request p f s = .next (u.leaves p (reply code st l)) := by
  rw [request_taken h, hf, answer_transacted (port_of_ports hu p ▸ h)]

@[simp] theorem leaves_port_self (s : State) (p : PortId) (r : Option Reply) :
    (s.leaves p r).port p = (s.port p).left r := port_modPort_self ..

theorem otherPortsKept_leaves {s u : State} (h : u.ports = s.ports) (p : PortId) (r : Option Reply) :
    otherPortsKept p s (u.leaves p r) := by
  intro q hq
  rw [State.leaves, port_modPort_ne _ _ hq, port_of_ports h]

theorem ownPortKept_leaves {s u : State} (h : u.ports = s.ports) (p : PortId) (r : Option Reply) :
    ownPortKept p s (u.leaves p r) := by
  rw [ownPortKept, leaves_port_self, port_of_ports h]
  rfl

theorem pendingSet_leaves {s u : State} (h : u.ports = s.ports) (p : PortId) (r : Option Reply) :
    ((u.leaves p r).port p).pendingSet = (s.port p).pendingSet := by
  rw [leaves_port_self, port_of_ports h]
  rfl

theorem replySlot_leaves (s : State) (p : PortId) (r : Option Reply) : ((s.leaves p r).port p).replySlot = r := by
  rw [leaves_port_self]
  rfl

/-! ### The clip set (R62, R178) -/

theorem clipSet_getLsbD (t : BusTable) (i : Nat) :
    t.clipSet.getLsbD i = (((List.finRange 24).map fun b => t.buses[b].clip) ++ [t.masterClip]).getD i false := by
  rw [BusTable.clipSet, BitVec.getLsbD_setWidth, BitVec.getLsbD_ofBoolListLE]
  rcases Nat.lt_or_ge i 32 with h | h
  · simp [h]
  · rw [List.getD_eq_default _ _ (by simp; omega), Bool.and_false]

theorem clipSet_bus (t : BusTable) (b : BusNo) : t.clipSet.getLsbD b.val = t.buses[b].clip := by
  rw [clipSet_getLsbD, List.getD_append _ _ _ _ (by simp)]
  simp

theorem clipSet_master (t : BusTable) : t.clipSet.getLsbD 24 = t.masterClip := by
  rw [clipSet_getLsbD]
  rfl

theorem clipSet_beyond (t : BusTable) : t.clipSet >>> 25 = 0 := by
  refine BitVec.eq_of_getLsbD_eq fun i _ => ?_
  rw [BitVec.getLsbD_ushiftRight, clipSet_getLsbD, List.getD_eq_default _ _ (by simp)]
  exact BitVec.getLsbD_zero.symm

/-! ### Clip flags and meters (R62, R67, R68) -/

theorem bus_clearClips (set : BitVec 32) (t : BusTable) (b : BusNo) :
    (clearClips set t).buses[b] = { t.buses[b] with clip := t.buses[b].clip && !set.getLsbD b.val } := by
  simp [clearClips]

theorem exec_clearClip_arm (p : PortId) (set : BitVec 32) (s : State) :
    exec (.clearClip p set) s = execClearClip p set s := rfl

theorem exec_meterConfig_arm (p : PortId) (hold : Byte) (s : State) :
    exec (.meterConfig p hold) s = execMeterConfig p hold s := rfl

theorem exec_meterRead_arm (p : PortId) (s : State) : exec (.meterRead p) s = execMeterRead p s := rfl

theorem exec_clearClip {s : State} {p : PortId} (h : (s.port p).takes = true) (set : BitVec 32) :
    exec (.clearClip p set) s =
      .next (({ s with busTable := clearClips set s.busTable }).leaves p
        (reply 0x13 .ok (wClips (clearClips set s.busTable)))) := by
  rw [exec_clearClip_arm, execClearClip]
  exact request_leaves h (ports_withBusTable ..) rfl

theorem exec_meterConfig {s : State} {p : PortId} (h : (s.port p).takes = true) (hold : Byte) :
    exec (.meterConfig p hold) s =
      .next (({ s with busTable := { s.busTable with holdSetting := hold.toNat } }).leaves p (reply 0x15 .ok [hold])) := by
  rw [exec_meterConfig_arm, execMeterConfig]
  exact request_leaves h rfl rfl

theorem exec_meterRead {s : State} {p : PortId} (h : (s.port p).takes = true) :
    exec (.meterRead p) s = .next (s.leaves p (reply 0x14 .ok (wMeters s.busTable))) := by
  rw [exec_meterRead_arm, execMeterRead]
  exact request_leaves h rfl rfl

/-- A meter takes four bytes (R181). -/
@[simp] theorem wMeter_length (m : Meter) : (wMeter m).length = 4 := rfl

theorem wMeters_eq (t : BusTable) :
    wMeters t = [w1 t.masterWidth, w1 t.holdSetting] ++
      (t.stemMeters.toList ++ t.masterMeters.toList).flatMap wMeter ++ wClips t := by
  rw [wMeters, List.flatMap_append, List.append_assoc [_, _]]

theorem wMeters_length (t : BusTable) : (wMeters t).length = 438 := by
  simp [wMeters, wClips, bytes4, List.length_flatMap]

/-! ### Runs of bus records (R69) -/

/-- The buses whose numbers lie in the run of a request. -/
def busesOfRun (first count : Byte) : List BusNo :=
  (List.finRange 24).filter fun b => first.toNat ≤ b.val && b.val < first.toNat + count.toNat

theorem runNumbers_eq_buses {first count : Byte} (h : first.toNat + count.toNat ≤ 24) :
    runNumbers first count = (busesOfRun first count).map Fin.val := by
  have hmap : (busesOfRun first count).map Fin.val =
      (List.range 24).filter fun i => first.toNat ≤ i && i < first.toNat + count.toNat := by
    rw [← List.map_coe_finRange_eq_range, List.filter_map]
    rfl
  rw [hmap, ← List.filter_filter, ← List.Ico.zero_bot, List.Ico.filter_lt, List.Ico.filter_le]
  simp only [runNumbers, List.Ico, min_eq_right h, Nat.zero_max, Nat.add_sub_cancel_left]

/-- The bus records of a run that stays in the table (R69). -/
theorem runRecords_eq {first count : Byte} (h : first.toNat + count.toNat ≤ 24) (t : BusTable) :
    ((runNumbers first count).flatMap fun i => if h : i < 24 then wBus t ⟨i, h⟩ else []) =
      (busesOfRun first count).flatMap (wBus t) := by
  rw [runNumbers_eq_buses h, List.flatMap_map]
  simp

theorem countOk_iff (count : Byte) : countOk count = true ↔ 1 ≤ count.toNat ∧ count.toNat ≤ 16 := by
  rw [countOk, Bool.and_eq_true, decide_eq_true_eq, decide_eq_true_eq]
  rfl

theorem busReadReply_ok {first count : Byte} (hc : 1 ≤ count.toNat ∧ count.toNat ≤ 16)
    (h : first.toNat + count.toNat ≤ 24) (s : State) :
    busReadReply first count s = .ok ([w1 s.busTable.masterWidth, wFlag s.busTable.masterClip, count] ++
      (busesOfRun first count).flatMap (wBus s.busTable)) := by
  simp only [busReadReply, (countOk_iff count).mpr hc, h, decide_true, Bool.and_self, if_true, runRecords_eq h]

theorem busReadReply_range {first count : Byte}
    (h : ¬(1 ≤ count.toNat ∧ count.toNat ≤ 16 ∧ first.toNat + count.toNat ≤ 24)) (s : State) :
    busReadReply first count s = .error .range := by
  have hbad : ¬((countOk count && decide (first.toNat + count.toNat ≤ 24)) = true) := by
    simpa [countOk_iff, and_assoc] using h
  rw [busReadReply, if_neg hbad]

theorem exec_busRead_arm (p : PortId) (first count : Byte) (s : State) :
    exec (.busRead p first count) s = execBusRead p first count s := rfl

/-- BUS-READ answers what its reply says, a payload or a status, and leaves the rest. -/
theorem exec_busRead {s : State} {p : PortId} {first count : Byte} {st : Status} {l : List Byte}
    (h : (s.port p).takes = true)
    (hr : answerRead p 0x12 (busReadReply first count s) = answer p 0x12 st l) :
    exec (.busRead p first count) s = .next (s.leaves p (reply 0x12 st l)) := by
  rw [exec_busRead_arm, execBusRead]
  exact request_leaves h rfl (congrFun hr _)

/-- Settles O42: each request is its effect on the bus table and one reply. -/
theorem clipAndMeterRequestsTouchTheirFieldsAlone : Obligations.ClipAndMeterRequestsTouchTheirFieldsAlone := by
  intro p set hold first count s taken
  have ports := ports_withBusTable s (clearClips set s.busTable)
  refine ⟨⟨_, exec_clearClip taken set, bus_clearClips set s.busTable, rfl, rfl, otherPortsKept_leaves ports p _,
    ownPortKept_leaves ports p _, pendingSet_leaves ports p _, replySlot_leaves .., clipSet_bus _, clipSet_master _,
    clipSet_beyond _⟩, exec_meterConfig taken hold, ?_, wMeters_length _, fun low high fits => ?_, fun bad => ?_⟩
  · rw [exec_meterRead taken, wMeters_eq]
    rfl
  · refine exec_busRead taken ?_
    rw [busReadReply_ok ⟨low, high⟩ fits]
    rfl
  · refine exec_busRead taken ?_
    rw [busReadReply_range bad]
    rfl

end Sys2Proof.Machine

/-!
PROOFS. The requests of the timeline that keep it in place: LINE-CONFIG, LOOP-SET, TIMELINE-CONFIG and TIMELINE-READ
(R94, R101, R105, R106).
-/
namespace Sys2Proof.Machine

/-! ### Bytes that name a flag, a line or a frame rate (R178) -/

@[simp] theorem readFlag_wFlag (b : Bool) : readFlag (wFlag b) = some b := by cases b <;> rfl

theorem readFlag_none {b : Byte} (h : 1 < b.toNat) : readFlag b = none := by
  rw [readFlag]
  split
  · omega
  · omega
  · rfl

@[simp] theorem readLine_lineCode (l : Line) : readLine (BitVec.ofNat 8 (lineCode l)) = some l := by cases l <;> rfl

theorem readLine_none {b : Byte} (h : 2 < b.toNat) : readLine b = none := by
  rw [readLine]
  split
  · omega
  · omega
  · omega
  · rfl

theorem readFrameRate_fps {b : Byte} {r : FrameRate} (h : b.toNat = r.fps) : readFrameRate b = some r := by
  rw [readFrameRate, h]
  cases r <;> rfl

theorem readFrameRate_none {b : Byte} (h24 : b.toNat ≠ 24) (h25 : b.toNat ≠ 25) (h30 : b.toNat ≠ 30) :
    readFrameRate b = none := by
  rw [readFrameRate]
  split
  · exact absurd ‹_› h24
  · exact absurd ‹_› h25
  · exact absurd ‹_› h30
  · rfl

@[simp] theorem w1_toNat (b : Byte) : w1 b.toNat = b := by rw [w1, BitVec.ofNat_toNat, BitVec.setWidth_eq]

@[simp] theorem w4_toNat (w : BitVec 32) : w4 w.toNat = bytes4 w := by rw [w4, BitVec.ofNat_toNat, BitVec.setWidth_eq]

/-! ### The stage lines (R92, R94) -/

@[simp] theorem line_setLine (t : Timeline) (l : Line) (r : LineRecord) : (t.setLine l r).line l = r := by
  cases l <;> rfl

/-- The timeline with polarity and filter length of a line written and its count reset (R94). -/
def Timeline.lineConfigured (t : Timeline) (l : Line) (low : Bool) (filter : Nat) : Timeline :=
  t.setLine l ((t.line l).configured low filter)

@[simp] theorem line_lineConfigured (t : Timeline) (l : Line) (low : Bool) (filter : Nat) :
    (t.lineConfigured l low filter).line l = (t.line l).configured low filter := line_setLine ..

theorem wLine_lineConfigured (t : Timeline) (l : Line) (low : Bool) (filter : Byte) :
    wLine (t.lineConfigured l low filter.toNat) l =
      [w1 (lineCode l), wFlag (t.line l).raw, wFlag low, filter, 0, wFlag (t.line l).filtered] := by
  simp only [wLine, line_lineConfigured, LineRecord.configured, w1_toNat]
  rfl

/-! ### LINE-CONFIG (R94) -/

theorem exec_lineConfig_arm (p : PortId) (line polarity filter : Byte) (s : State) :
    exec (.lineConfig p line polarity filter) s = execLineConfig p line polarity filter s := rfl

theorem exec_lineConfig {s : State} {p : PortId} (h : (s.port p).takes = true) (l : Line) (low : Bool) (filter : Byte) :
    exec (.lineConfig p (BitVec.ofNat 8 (lineCode l)) (wFlag low) filter) s =
      .next ((s.modTimeline fun tl => tl.lineConfigured l low filter.toNat).leaves p
        (reply 0x30 .ok (wLine (s.timeline.lineConfigured l low filter.toNat) l))) := by
  rw [exec_lineConfig_arm, execLineConfig, readLine_lineCode, readFlag_wFlag]
  exact request_leaves h rfl rfl

theorem exec_lineConfig_range {s : State} {p : PortId} (h : (s.port p).takes = true) {line polarity : Byte}
    (bad : readLine line = none ∨ readFlag polarity = none) (filter : Byte) :
    exec (.lineConfig p line polarity filter) s = .next (s.leaves p (reply 0x30 .range [])) := by
  rw [exec_lineConfig_arm, execLineConfig]
  refine request_leaves h rfl ?_
  split
  · next hline hflag => simp [hline, hflag] at bad
  · rfl

/-! ### LOOP-SET (R101) -/

/-- LOOP-SET refuses frames out of range, and frames out of order when the loop is to be enabled. -/
theorem loopChecked_wFlag (start stop : BitVec 32) (on : Bool) :
    loopChecked start stop (wFlag on) =
      if 16777215 < start.toNat ∨ 16777215 < stop.toNat ∨ (on = true ∧ stop.toNat < start.toNat) then none
      else some on := by
  rw [loopChecked, readFlag_wFlag]
  simp only [Bool.or_eq_true, Bool.and_eq_true, decide_eq_true_eq, or_assoc]
  rfl

theorem loopChecked_some {start stop : BitVec 32} {on : Bool} (hstart : start.toNat ≤ 16777215)
    (hstop : stop.toNat ≤ 16777215) (order : on = true → start.toNat ≤ stop.toNat) :
    loopChecked start stop (wFlag on) = some on := by
  rw [loopChecked_wFlag, if_neg]
  rintro (hlow | hhigh | ⟨enabled, hcross⟩)
  · omega
  · omega
  · exact absurd (order enabled) (by omega)

theorem loopChecked_of_readFlag_none {enable : Byte} (h : readFlag enable = none) (start stop : BitVec 32) :
    loopChecked start stop enable = none := by rw [loopChecked, h]

theorem exec_loopSet_arm (p : PortId) (start stop : BitVec 32) (enable : Byte) (s : State) :
    exec (.loopSet p start stop enable) s = execLoopSet p start stop enable s := rfl

theorem exec_loopSet {s : State} {p : PortId} (h : (s.port p).takes = true) {start stop : BitVec 32} {enable : Byte}
    {on : Bool} (checked : loopChecked start stop enable = some on) :
    exec (.loopSet p start stop enable) s =
      .next ((s.modTimeline fun tl =>
        { tl with loopStart := start.toNat, loopEnd := stop.toNat, loopEnabled := on }).leaves p
          (reply 0x32 .ok (bytes4 start ++ bytes4 stop ++ [wFlag on]))) := by
  rw [exec_loopSet_arm, execLoopSet, checked, w4_toNat, w4_toNat]
  exact request_leaves h rfl rfl

theorem exec_loopSet_range {s : State} {p : PortId} (h : (s.port p).takes = true) {start stop : BitVec 32}
    {enable : Byte} (refused : loopChecked start stop enable = none) :
    exec (.loopSet p start stop enable) s = .next (s.leaves p (reply 0x32 .range [])) := by
  rw [exec_loopSet_arm, execLoopSet, refused]
  exact request_leaves h rfl rfl

/-! ### TIMELINE-CONFIG (R105) -/

theorem exec_timelineConfig_arm (p : PortId) (rate : Byte) (s : State) :
    exec (.timelineConfig p rate) s = execTimelineConfig p rate s := rfl

theorem exec_timelineConfig_range {s : State} {p : PortId} (h : (s.port p).takes = true) {rate : Byte}
    (unread : readFrameRate rate = none) :
    exec (.timelineConfig p rate) s = .next (s.leaves p (reply 0x33 .range [])) := by
  rw [exec_timelineConfig_arm, execTimelineConfig, unread]
  exact request_leaves h rfl rfl

theorem exec_timelineConfig_rolling {s : State} {p : PortId} (h : (s.port p).takes = true) {rate : Byte} {r : FrameRate}
    (hr : readFrameRate rate = some r) (rolling : s.timeline.roll.filtered = true) :
    exec (.timelineConfig p rate) s = .next (s.leaves p (reply 0x33 .rolling [])) := by
  rw [exec_timelineConfig_arm, execTimelineConfig, hr]
  exact request_leaves h rfl (if_pos rolling)

theorem exec_timelineConfig {s : State} {p : PortId} (h : (s.port p).takes = true) {rate : Byte} {r : FrameRate}
    (hr : readFrameRate rate = some r) (still : s.timeline.roll.filtered = false) :
    exec (.timelineConfig p rate) s =
      .next ((s.modTimeline fun tl => { tl with rate := r, phase := 0 }).leaves p (reply 0x33 .ok [w1 r.fps])) := by
  rw [exec_timelineConfig_arm, execTimelineConfig, hr]
  exact request_leaves h rfl (if_neg (ne_true_of_eq_false still))

/-! ### TIMELINE-READ (R106, R181) -/

theorem exec_timelineRead_arm (p : PortId) (s : State) : exec (.timelineRead p) s = execTimelineRead p s := rfl

theorem exec_timelineRead {s : State} {p : PortId} (h : (s.port p).takes = true) :
    exec (.timelineRead p) s = .next (s.leaves p (reply 0x34 .ok (wTimeline s))) := by
  rw [exec_timelineRead_arm, execTimelineRead]
  exact request_leaves h rfl rfl

/-- The sample rate in kHz, as claims write its byte. -/
theorem w1_kiloHertz (rate : SampleRate) : w1 (kiloHertz rate) = if rate = .k48 then 48 else 96 := by
  cases rate <;> rfl

/-- Settles O49: each request is its effect on the timeline, or its refusal, and one reply. -/
theorem timelineRequestsWriteTheirFieldsAlone : Obligations.TimelineRequestsWriteTheirFieldsAlone := by
  intro p l low on filter rate start stop r s taken
  refine ⟨⟨_, exec_lineConfig taken l low filter, ?record, ?line, ?reply⟩, fun bad => ?_, fun bad => ⟨?_, ?_⟩,
    fun hstart hstop order => exec_loopSet taken (loopChecked_some hstart hstop order),
    fun bad => exec_loopSet_range taken ((loopChecked_wFlag ..).trans (if_pos bad)),
    fun h24 h25 h30 => exec_timelineConfig_range taken (readFrameRate_none h24 h25 h30),
    fun hrate rolling => exec_timelineConfig_rolling taken (readFrameRate_fps hrate) rolling,
    fun hrate still => ?_, exec_timelineRead taken, rfl, ?_⟩
  case record => exact line_lineConfigured ..
  case line => exact congrArg (s.timeline.setLine l) (line_lineConfigured s.timeline l low filter.toNat).symm
  case reply => rw [wLine_lineConfigured]; rfl
  · exact exec_lineConfig_range taken (.inl (readLine_none bad)) rate
  · exact exec_lineConfig_range taken (.inr (readFlag_none bad)) rate
  · exact exec_loopSet_range taken (loopChecked_of_readFlag_none (readFlag_none bad) start stop)
  · rw [exec_timelineConfig taken (readFrameRate_fps hrate) still, ← hrate, w1_toNat]
    rfl
  · rw [← w1_kiloHertz]
    rfl

end Sys2Proof.Machine

/-!
PROOFS. TAKE and PASS-READ (R125, R144).
-/
namespace Sys2Proof.Machine

/-! ### TAKE (R144) -/

/-- The checks of TAKE in their order: the take port, the count, then the queue. -/
theorem takeFailure_eq (p : PortId) (count : Byte) (s : State) :
    takeFailure p count s =
      if s.writing.takePort ≠ some p then some .notPass
      else if ¬(1 ≤ count.toNat ∧ count.toNat ≤ 16) then some .range
      else if s.writing.takes = [] then some .empty
      else none := by
  simp only [takeFailure, failIf, bne_iff_ne, List.isEmpty_iff, Bool.not_eq_true', ← Bool.not_eq_true, countOk_iff]
  split_ifs <;> rfl

/-- The take role stays unless a TAKE empties the queue of a closed pass. -/
theorem takeRecords_eq {s : State} {p : PortId} (holder : s.writing.takePort = some p) (n : Nat) :
    takeRecords n s =
      { s with
        writing.takes := s.writing.takes.drop n,
        writing.takePort := if s.playback.passOpen = false ∧ s.writing.takes.length ≤ n then none else some p } := by
  rw [takeRecords, ← holder]
  cases hopen : s.playback.passOpen with
  | true => simp
  | false =>
    by_cases emptied : s.writing.takes.length ≤ n
    · simp [Writing.settled, emptied]
    · simp [Writing.settled, emptied]

theorem exec_take_arm (p : PortId) (count : Byte) (s : State) : exec (.take p count) s = execTake p count s := rfl

theorem exec_take_failed {s : State} {p : PortId} (h : (s.port p).takes = true) {count : Byte} {st : Status}
    (failed : takeFailure p count s = some st) :
    exec (.take p count) s = .next (s.leaves p (reply 0x44 st [])) := by
  rw [exec_take_arm, execTake]
  refine request_leaves h rfl ?_
  rw [show takeFailure p count (s.modPort p PortState.transacted) = some st from failed]

theorem exec_take {s : State} {p : PortId} (h : (s.port p).takes = true) {count : Byte}
    (passed : takeFailure p count s = none) :
    exec (.take p count) s =
      .next ((takeRecords count.toNat s).leaves p (reply 0x44 .ok
        (w1 (s.writing.takes.take count.toNat).length ::
          (w2 (takeRecords count.toNat s).writing.takes.length ++
            (s.writing.takes.take count.toNat).flatMap wTake)))) := by
  rw [exec_take_arm, execTake]
  refine request_leaves h rfl ?_
  rw [show takeFailure p count (s.modPort p PortState.transacted) = none from passed]
  rfl

/-! ### PASS-READ (R125, R181) -/

theorem wFrame_length (c : Option Cue) : (wFrame c).length = 5 := by cases c <;> rfl

theorem wPass_length (s : State) : (wPass s).length = 25 := by
  simp [wPass, wFrame_length, w2, bytes2]

/-- The head and the tail of a cue queue are both present or both absent. -/
theorem wFrame_ends (cues : List Cue) :
    wFrame cues.head? ++ wFrame cues.getLast? =
      match cues.head?, cues.getLast? with
      | some head, some tail => 1 :: bytes4 (BitVec.ofNat 32 head.frame) ++ 1 :: bytes4 (BitVec.ofNat 32 tail.frame)
      | _, _ => List.replicate 10 0 := by
  cases cues with
  | nil => rfl
  | cons head rest => rw [List.head?_cons, List.getLast?_cons]; rfl

theorem exec_passRead_arm (p : PortId) (s : State) : exec (.passRead p) s = execPassRead p s := rfl

theorem exec_passRead {s : State} {p : PortId} (h : (s.port p).takes = true) :
    exec (.passRead p) s = .next (s.leaves p (reply 0x43 .ok (wPass s))) := by
  rw [exec_passRead_arm, execPassRead]
  exact request_leaves h rfl rfl

/-- Settles O56: a TAKE ends at its first failing check or is `takeRecords`; PASS-READ answers `wPass`. -/
theorem takeRemovesTheOldestRecords : Obligations.TakeRemovesTheOldestRecords := by
  intro p count s taken
  have checks := takeFailure_eq p count s
  refine ⟨fun other => exec_take_failed taken ?_, fun holder bad => exec_take_failed taken ?_,
    fun holder low high empty => exec_take_failed taken ?_, fun holder low high queued => ?_, wPass_length s, ?_⟩
  · rw [checks, if_pos other]
  · rw [checks, if_neg (not_not.mpr holder), if_pos bad]
  · rw [checks, if_neg (not_not.mpr holder), if_neg (not_not.mpr ⟨low, high⟩), if_pos empty]
  · have passed : takeFailure p count s = none := by
      rw [checks, if_neg (not_not.mpr holder), if_neg (not_not.mpr ⟨low, high⟩), if_neg queued]
    rw [exec_take taken passed, takeRecords_eq holder, List.length_take, List.length_drop]
    rfl
  · rw [exec_passRead taken, wPass, List.append_assoc _ (wFrame _), wFrame_ends]
    rfl

end Sys2Proof.Machine

/-!
PROOFS. The requests on a port's own state: reads of runs of surface numbers, which move the pointer (R169 to R171), and
NULL, STATUS, ENABLE, CLEAR, WINDOW-SET and WINDOW-READ (R167, R168, R174 to R176).
-/
namespace Sys2Proof.Machine

/-! ### A request that writes the requester's own port -/

/-- An update of a port that neither reads nor writes what the transaction of a request sets. -/
def PortState.SparesTransaction (g : PortState → PortState) : Prop :=
  ∀ (q : PortState) (t : Transaction) (o : List Byte) (r : Option Reply),
    g { q with transaction := t, shiftOut := o, replySlot := r } =
      { g q with transaction := t, shiftOut := o, replySlot := r }

theorem port_transacted {s : State} {p : PortId} (h : (s.port p).takes = true) :
    (s.modPort p PortState.transacted).port p =
      { s.port p with
        transaction := .idle, shiftOut := [],
        replySlot := if (s.port p).transaction = .idle then none else (s.port p).replySlot } := by
  rw [port_modPort_self, transacted_taken h]

/-- What the update writes and what the transaction sets are written in either order. -/
theorem answer_modPort_transacted {s : State} {p : PortId} {g : PortState → PortState} (h : (s.port p).takes = true)
    (hg : PortState.SparesTransaction g) (code : Byte) (st : Status) (l : List Byte) :
    answer p code st l ((s.modPort p PortState.transacted).modPort p g) =
      (s.modPort p g).leaves p (reply code st l) := by
  rw [answer, modPort_modPort, modPort_modPort, State.leaves, modPort_modPort]
  refine modPort_congr ?_
  rw [transacted_taken h, hg]
  rfl

/-- A request that is taken, updates its own port and answers, leaves the update with the reply. -/
theorem request_modPort_leaves {s : State} {p : PortId} {f : State → State} {g : PortState → PortState} {code : Byte}
    {st : Status} {l : List Byte} (h : (s.port p).takes = true) (hg : PortState.SparesTransaction g)
    (hf : f (s.modPort p PortState.transacted) =
      answer p code st l ((s.modPort p PortState.transacted).modPort p g)) :
    request p f s = .next ((s.modPort p g).leaves p (reply code st l)) := by
  rw [request_taken h, hf, answer_modPort_transacted h hg]

/-! ### READ-RUN and READ-NEXT (R169 to R171) -/

/-- A port whose surface pointer a read of a run has set to its end. -/
def PortState.pointedAt (stop : Nat) (q : PortState) : PortState := { q with pointer := min 256 stop }

/-- The transaction of a request changes neither windows nor strips, so surface numbers read as before it. -/
theorem wSurface_transacted {s : State} {p : PortId} (h : (s.port p).takes = true) :
    wSurface (s.modPort p PortState.transacted) ((s.modPort p PortState.transacted).port p) =
      wSurface s (s.port p) := by
  rw [port_transacted h]
  rfl

theorem readSurfaces_ok {s : State} {p : PortId} {count : Byte} (h : (s.port p).takes = true)
    (hc : 1 ≤ count.toNat ∧ count.toNat ≤ 16) (code : Byte) (start : Nat) :
    readSurfaces p code start count (s.modPort p PortState.transacted) =
      (s.modPort p (PortState.pointedAt (start + count.toNat))).leaves p
        (reply code .ok (count :: (List.range' start count.toNat).flatMap (wSurface s (s.port p)))) := by
  rw [readSurfaces, if_pos ((countOk_iff count).mpr hc)]
  dsimp only
  rw [wSurface_transacted h]
  exact answer_modPort_transacted h (fun _ _ _ _ => rfl) ..

theorem readSurfaces_range {s : State} {p : PortId} {count : Byte} (h : (s.port p).takes = true)
    (hc : ¬(1 ≤ count.toNat ∧ count.toNat ≤ 16)) (code : Byte) (start : Nat) :
    readSurfaces p code start count (s.modPort p PortState.transacted) = s.leaves p (reply code .range []) := by
  rw [readSurfaces, if_neg (mt (countOk_iff count).mp hc), answer_transacted h]

theorem exec_readRun_arm (p : PortId) (start count : Byte) (s : State) :
    exec (.readRun p start count) s = execReadRun p start count s := rfl

theorem exec_readNext_arm (p : PortId) (count : Byte) (s : State) :
    exec (.readNext p count) s = execReadNext p count s := rfl

/-- READ-RUN reads from the surface number that it carries. -/
theorem exec_readRun {s : State} {p : PortId} (h : (s.port p).takes = true) (start count : Byte) :
    exec (.readRun p start count) s =
      .next (readSurfaces p 0x06 start.toNat count (s.modPort p PortState.transacted)) := by
  rw [exec_readRun_arm, execReadRun, request_taken h]

/-- READ-NEXT reads from the pointer that the port holds when the request ends. -/
theorem exec_readNext {s : State} {p : PortId} (h : (s.port p).takes = true) (count : Byte) :
    exec (.readNext p count) s =
      .next (readSurfaces p 0x07 (s.port p).pointer count (s.modPort p PortState.transacted)) := by
  rw [exec_readNext_arm, execReadNext, request_taken h, port_transacted h]

/-- Settles O28: both requests are one read of surfaces, READ-NEXT starting where the pointer stands. -/
theorem readsReturnARunOfRecordsAndMoveThePointer : Obligations.ReadsReturnARunOfRecordsAndMoveThePointer := by
  intro p start count s taken
  rw [exec_readRun taken, exec_readNext taken]
  refine ⟨fun inside => ⟨?run, ?next⟩, fun outside => ⟨?_, ?_⟩⟩
  case run =>
    rw [readSurfaces_ok taken inside]
    rfl
  case next =>
    have moved : s.modPort p (PortState.pointedAt ((s.port p).pointer + count.toNat)) =
        s.modPort p fun q => { q with pointer := min 256 (q.pointer + count.toNat) } := modPort_congr rfl
    rw [readSurfaces_ok taken inside, moved]
    rfl
  · rw [readSurfaces_range taken outside]
  · rw [readSurfaces_range taken outside]

/-! ### NULL (R167) -/

theorem exec_null_arm (p : PortId) (s : State) : exec (.null p) s = execNull p s := rfl

/-- NULL leaves the slot as the transaction emptied it: SEL's rise takes the reply, and in an open transaction that has
happened before. -/
theorem exec_null {s : State} {p : PortId} (h : (s.port p).takes = true)
    (emptied : (s.port p).transaction = .opened → (s.port p).replySlot = none) :
    exec (.null p) s = .next (s.leaves p none) := by
  have slot : (if (s.port p).transaction = .idle then none else (s.port p).replySlot) = none := by
    cases ht : (s.port p).transaction with
    | idle => rfl
    | opened => exact emptied ht
    | ignored => simp [PortState.takes, ht] at h
  have port : (s.port p).transacted = (s.port p).left none := by
    rw [transacted_taken h, slot]
    rfl
  rw [exec_null_arm, execNull, request_taken h, State.leaves, modPort_congr port]

/-! ### STATUS, ENABLE, CLEAR and ATTN (R174 to R176) -/

theorem exec_status_arm (p : PortId) (s : State) : exec (.status p) s = execStatus p s := rfl

theorem exec_enable_arm (p : PortId) (set : BitVec 16) (s : State) : exec (.enable p set) s = execEnable p set s := rfl

theorem exec_clear_arm (p : PortId) (set : BitVec 16) (s : State) : exec (.clear p set) s = execClear p set s := rfl

theorem exec_status {s : State} {p : PortId} (h : (s.port p).takes = true) :
    exec (.status p) s =
      .next (s.leaves p (reply 0x60 .ok
        (wReasons (s.port p).pendingSet ++ wReasons (s.port p).enableSet ++ [w1 (s.port p).refusals]))) := by
  rw [exec_status_arm, execStatus]
  refine request_leaves h rfl ?_
  rw [port_transacted h]

theorem exec_enable {s : State} {p : PortId} (h : (s.port p).takes = true) (set : BitVec 16) :
    exec (.enable p set) s =
      .next ((s.modPort p fun q => { q with enableSet := reasonSet set }).leaves p
        (reply 0x61 .ok (wReasons (s.port p).pendingSet ++ wReasons (reasonSet set)))) := by
  rw [exec_enable_arm, execEnable]
  refine request_modPort_leaves h (fun _ _ _ _ => rfl) ?_
  rw [port_transacted h]

/-- CLEAR answers with the sets that it leaves. -/
theorem exec_clear {s : State} {p : PortId} (h : (s.port p).takes = true) (set : BitVec 16) :
    exec (.clear p set) s =
      .next ((s.modPort p (PortState.cleared (reasonSet set))).leaves p
        (reply 0x62 .ok (wReasons ((s.port p).cleared (reasonSet set)).pendingSet ++
          [w1 ((s.port p).cleared (reasonSet set)).refusals]))) := by
  rw [exec_clear_arm, execClear]
  refine request_modPort_leaves h (fun _ _ _ _ => rfl) ?_
  dsimp only
  rw [port_modPort_self, port_transacted h]
  rfl

/-- REFUSED is one of the twelve reasons that a carried set keeps. -/
theorem reasonSet_refused (set : BitVec 16) : (reasonSet set).getLsbD Reason.refused.bit = set.getLsbD 10 :=
  BitVec.getLsbD_setWidth ..

theorem attn_iff (s : State) (p : PortId) :
    s.attn p = true ↔
      ∃ i : Fin 12, (s.port p).pendingSet.getLsbD i.val = true ∧ (s.port p).enableSet.getLsbD i.val = true := by
  have quiet : (s.port p).summary = 0 ↔
      ∀ i : Fin 12, ¬((s.port p).pendingSet.getLsbD i.val = true ∧ (s.port p).enableSet.getLsbD i.val = true) := by
    rw [PortState.summary, BitVec.eq_of_getLsbD_eq_iff, Fin.forall_iff]
    simp only [BitVec.getLsbD_and, BitVec.ofNat_eq_ofNat, BitVec.getLsbD_zero, Bool.eq_false_iff, ne_eq,
      Bool.and_eq_true]
  rw [State.attn, bne_iff_ne, ne_eq, quiet, not_forall_not]

/-! ### WINDOW-SET and WINDOW-READ (R168) -/

theorem readIndex_some {n : Nat} {b : Byte} {i : Fin n} (h : b.toNat = i.val) : readIndex n b = some i := by
  simp [readIndex, h]

theorem readIndex_none {n : Nat} {b : Byte} (h : n ≤ b.toNat) : readIndex n b = none :=
  dif_neg (Nat.not_lt.mpr h)

/-- WINDOW-SET is refused where a byte is out of its range. -/
theorem windowChecked_unread {window enabled base viewOnly : Byte}
    (bad : 3 < window.toNat ∨ 1 < enabled.toNat ∨ 159 < base.toNat ∨ 1 < viewOnly.toNat) (first last : Byte) :
    windowChecked window enabled first last base viewOnly = none := by
  rw [windowChecked]
  split
  · next hwindow henabled hbase hview =>
    rcases bad with bad | bad | bad | bad
    · rw [readIndex_none bad] at hwindow; cases hwindow
    · rw [readFlag_none bad] at henabled; cases henabled
    · rw [readIndex_none bad] at hbase; cases hbase
    · rw [readFlag_none bad] at hview; cases hview
  · rfl

/-- With its bytes in range, WINDOW-SET is refused where an enabled window would end before it begins. -/
theorem windowChecked_wFlag {window base : Byte} {w : Fin 4} {b : StripNo} (hw : window.toNat = w.val)
    (hb : base.toNat = b.val) (on view : Bool) (first last : Byte) :
    windowChecked window (wFlag on) first last base (wFlag view) =
      if on = true ∧ last.toNat < first.toNat then none
      else some (w, { enabled := on, first := first.toNat, last := last.toNat, base := b, viewOnly := view }) := by
  simp only [windowChecked, readIndex_some hw, readIndex_some hb, readFlag_wFlag, Bool.and_eq_true, decide_eq_true_eq]

theorem windowChecked_crossed {last first : Byte} (crossed : last.toNat < first.toNat) (window base : Byte)
    (view : Bool) : windowChecked window (wFlag true) first last base (wFlag view) = none := by
  rw [windowChecked, readFlag_wFlag]
  split
  · next henabled _ _ =>
    cases henabled
    exact if_pos (decide_eq_true crossed)
  · rfl

theorem exec_windowSet_arm (p : PortId) (window enabled first last base viewOnly : Byte) (s : State) :
    exec (.windowSet p window enabled first last base viewOnly) s =
      execWindowSet p window enabled first last base viewOnly s := rfl

theorem exec_windowRead_arm (p : PortId) (s : State) : exec (.windowRead p) s = execWindowRead p s := rfl

theorem exec_windowSet_range {s : State} {p : PortId} (h : (s.port p).takes = true)
    {window enabled first last base viewOnly : Byte}
    (refused : windowChecked window enabled first last base viewOnly = none) :
    exec (.windowSet p window enabled first last base viewOnly) s = .next (s.leaves p (reply 0x63 .range [])) := by
  rw [exec_windowSet_arm, execWindowSet, refused]
  exact request_leaves h rfl rfl

/-- The port with one of its windows replaced. -/
def PortState.windowed (i : Fin 4) (w : Window) (q : PortState) : PortState := { q with windows := q.windows.set i w }

theorem exec_windowSet {s : State} {p : PortId} (h : (s.port p).takes = true)
    {window enabled first last base viewOnly : Byte} {i : Fin 4} {w : Window}
    (checked : windowChecked window enabled first last base viewOnly = some (i, w)) :
    exec (.windowSet p window enabled first last base viewOnly) s =
      .next ((s.modPort p (PortState.windowed i w)).leaves p
        (reply 0x63 .ok (wWindows ((s.port p).windowed i w)))) := by
  rw [exec_windowSet_arm, execWindowSet, checked]
  refine request_modPort_leaves h (g := PortState.windowed i w) (fun _ _ _ _ => rfl) ?_
  dsimp only
  rw [port_modPort_self, port_transacted h]
  rfl

theorem exec_windowRead {s : State} {p : PortId} (h : (s.port p).takes = true) :
    exec (.windowRead p) s = .next (s.leaves p (reply 0x64 .ok (wWindows (s.port p)))) := by
  rw [exec_windowRead_arm, execWindowRead]
  refine request_leaves h rfl ?_
  rw [port_transacted h]
  rfl

theorem wWindows_length (q : PortState) : (wWindows q).length = 24 := rfl

/-- Settles O60: each request is its effect on its own port, or its refusal, and one reply or none. -/
theorem portRequestsTouchTheRequesterAlone : Obligations.PortRequestsTouchTheRequesterAlone := by
  intro p set w on view first last window base bad b s taken emptied
  refine ⟨exec_null taken emptied, exec_status taken, exec_enable taken set, ?clear, fun out => ?range,
    fun high => ⟨?_, ?_⟩, fun hw hb order => ?written, exec_windowRead taken, wWindows_length _,
    fun t _ => attn_iff t p⟩
  case clear =>
    rw [exec_clear taken, ← reasonSet_refused]
    rfl
  case range =>
    refine exec_windowSet_range taken ?_
    obtain high | above | ⟨rfl, crossed⟩ := out
    · exact windowChecked_unread (.inl high) ..
    · exact windowChecked_unread (.inr (.inr (.inl above))) ..
    · exact windowChecked_crossed crossed ..
  · exact exec_windowSet_range taken (windowChecked_unread (.inr (.inl high)) ..)
  · exact exec_windowSet_range taken (windowChecked_unread (.inr (.inr (.inr high))) ..)
  case written =>
    have checked := windowChecked_wFlag hw hb on view first last
    rw [if_neg fun ⟨enabled, crossed⟩ => absurd (order enabled) (by omega)] at checked
    refine ⟨_, exec_windowSet taken checked, ?_⟩
    rw [leaves_port_self, port_modPort_self]
    rfl

end Sys2Proof.Machine

/-!
PROOFS. What a step can do, said once: every command is a chain of events, a request being a chain of deeds of its port
and a reply. A law that every event keeps, every step keeps.
-/
namespace Sys2Proof.Machine

/-! ### What may happen to a port -/

/-- A port after a change that neither attaches nor detaches it, saves no snapshot, and is lawful where it was. -/
structure PortState.Tended (q q' : PortState) : Prop where
  attached : q'.attached = q.attached
  snapshots : ∀ k ∈ q'.recallStack, k ∈ q.recallStack
  law : q.Law → q'.Law

theorem PortState.Tended.refl (q : PortState) : q.Tended q := ⟨rfl, fun _ h => h, id⟩

/-- An ATTACHED port is lawful by its sizes and the slot of an open transaction. -/
theorem PortState.law_of_attached {q : PortState} (attached : q.attached = true) (watches : q.watches.length ≤ 4)
    (distinct : (q.watches.map (·.strip)).Nodup) (stack : q.recallStack.length ≤ 8) (pointer : q.pointer ≤ 256)
    (refusals : q.refusals ≤ 255) (opened : q.transaction = .opened → q.replySlot = none) : q.Law where
  watches_size := watches
  watches_distinct := distinct
  recall_size := stack
  pointer_range := pointer
  refusals_range := refusals
  detached_empty h := by rw [attached] at h; cases h
  not_opened_detached h := by rw [attached] at h; cases h
  opened_empty := opened

/-- A change of pending and enable sets, windows, signals and pointer leaves a port lawful. -/
theorem tended_of_fields {q q' : PortState} (ha : q.attached = true) (attached : q'.attached = q.attached)
    (transaction : q'.transaction = q.transaction) (slot : q'.replySlot = q.replySlot) (watches : q'.watches = q.watches)
    (snapshots : q'.recallStack = q.recallStack) (pointer : q.pointer ≤ 256 → q'.pointer ≤ 256)
    (refusals : q.refusals ≤ 255 → q'.refusals ≤ 255) : q.Tended q' where
  attached := attached
  snapshots _ h := snapshots ▸ h
  law h := PortState.law_of_attached (attached.trans ha) (watches ▸ h.watches_size) (watches ▸ h.watches_distinct)
    (snapshots ▸ h.recall_size) (pointer h.pointer_range) (refusals h.refusals_range)
    (fun ht => slot ▸ h.opened_empty (transaction ▸ ht))

/-- A change of an ATTACHED port's watch list that stays within its size and names no strip twice. -/
theorem tended_of_watches {q : PortState} {l : List Watch} (ha : q.attached = true)
    (size : q.watches.length ≤ 4 → l.length ≤ 4)
    (distinct : (q.watches.map (·.strip)).Nodup → (l.map (·.strip)).Nodup) : q.Tended { q with watches := l } where
  attached := rfl
  snapshots _ h := h
  law h := PortState.law_of_attached ha (size h.watches_size) (distinct h.watches_distinct) h.recall_size
    h.pointer_range h.refusals_range h.opened_empty

theorem tended_raised (r : Reason) (q : PortState) : q.Tended (q.raised r) := by
  unfold PortState.raised
  split
  · next ha => exact tended_of_fields ha rfl rfl rfl rfl rfl id id
  · exact .refl q

theorem transaction_raised (r : Reason) (q : PortState) : (q.raised r).transaction = q.transaction := by
  rw [raised_eq]

theorem hitWatches_strips (p : PortId) (n : StripNo) (l : List Watch) :
    (hitWatches p n l).map (·.strip) = l.map (·.strip) := by
  simp only [hitWatches, List.map_map]
  refine List.map_congr_left fun w _ => ?_
  simp only [Function.comp]
  split <;> rfl

theorem PortState.Tended.trans {q q' q'' : PortState} (h : q.Tended q') (k : q'.Tended q'') : q.Tended q'' :=
  ⟨k.attached.trans h.attached, fun s hs => h.snapshots s (k.snapshots s hs), k.law ∘ h.law⟩

theorem tended_reported (p : PortId) (n : StripNo) (q : PortState) : q.Tended (q.reported p n) := by
  unfold PortState.reported
  split
  · next h =>
    have ha : q.attached = true := (Bool.and_eq_true_iff.mp h).1
    refine (tended_of_watches ha (fun h => ?_) (fun h => ?_)).trans (tended_raised ..)
    · simpa [hitWatches] using h
    · rwa [hitWatches_strips]
  · exact .refl q

theorem transaction_reported (p : PortId) (n : StripNo) (q : PortState) :
    (q.reported p n).transaction = q.transaction := by
  unfold PortState.reported
  split
  · rw [transaction_raised]
  · rfl

theorem law_fresh (attached : Bool) {t : Transaction} (h : attached = false → t ≠ .opened) :
    (PortState.fresh attached t).Law where
  watches_size := by simp [PortState.fresh]
  watches_distinct := by simp [PortState.fresh]
  recall_size := by simp [PortState.fresh]
  pointer_range := by simp [PortState.fresh]
  refusals_range := by simp [PortState.fresh]
  detached_empty ha := by simp only [PortState.fresh] at ha; subst ha; rfl
  not_opened_detached := h
  opened_empty _ := rfl

theorem overtaken_ne_opened (t : Transaction) : t.overtaken ≠ .opened := by cases t <;> simp [Transaction.overtaken]

/-- A DETACHED port is as a detach left it, but for a transaction that is ignored. -/
theorem eq_fresh_of_detached {q : PortState} (h : q.Law) (ha : q.attached = false) :
    ∃ t, t ≠ .opened ∧ q = PortState.fresh false t :=
  ⟨_, h.not_opened_detached ha, h.detached_empty ha⟩

theorem tended_transacted (q : PortState) : q.Tended q.transacted where
  attached := by
    cases ht : q.transaction <;> cases ha : q.attached <;>
      simp [PortState.transacted, PortState.selRises, PortState.selFalls, ht, ha]
  snapshots k h := by
    revert h
    cases ht : q.transaction <;> cases ha : q.attached <;>
      simp [PortState.transacted, PortState.selRises, PortState.selFalls, ht, ha]
  law h := by
    by_cases htakes : q.takes = true
    · rw [transacted_taken htakes]
      have ha : q.attached = true := (Bool.and_eq_true_iff.mp htakes).1
      exact PortState.law_of_attached ha h.watches_size h.watches_distinct h.recall_size h.pointer_range
        h.refusals_range (fun ht => by cases ht)
    · rw [transacted_ignored (by simpa using htakes)]
      by_cases ha : q.attached = true
      · exact PortState.law_of_attached ha h.watches_size h.watches_distinct h.recall_size h.pointer_range
          h.refusals_range (fun ht => by cases ht)
      · obtain ⟨t, -, rfl⟩ := eq_fresh_of_detached h (by simpa using ha)
        exact law_fresh false (t := .idle) (fun _ => by simp)

theorem tended_selRises (q : PortState) : q.Tended q.selRises where
  attached := by
    cases ht : q.transaction <;> cases ha : q.attached <;> simp [PortState.selRises, ht, ha]
  snapshots k h := by
    revert h
    cases ht : q.transaction <;> cases ha : q.attached <;> simp [PortState.selRises, ht, ha]
  law h := by
    unfold PortState.selRises
    split
    · split
      · next ha =>
        exact PortState.law_of_attached ha h.watches_size h.watches_distinct h.recall_size h.pointer_range
          h.refusals_range (fun _ => rfl)
      · next ha =>
        obtain ⟨t, -, rfl⟩ := eq_fresh_of_detached h (by simpa using ha)
        exact law_fresh false (t := .ignored) (fun _ => by simp)
    all_goals exact h

theorem tended_replied {q : PortState} (ha : q.attached = true) (ht : q.transaction = .idle) (r : Option Reply) :
    q.Tended { q with replySlot := r } where
  attached := rfl
  snapshots _ h := h
  law h := PortState.law_of_attached ha h.watches_size h.watches_distinct h.recall_size h.pointer_range h.refusals_range
    (fun h' => by rw [ht] at h'; cases h')

/-! ### Accepted changes of a record -/

/-- Record `r'` is an accepted change of record `r`: mode, write state, shadow and hands as they were, the trim written
only where it is open, every value in its range, and shape, fit and rule of sources kept (R5, R6, R13, R14). -/
structure Strip.Revised (t : BusTable) (r r' : Strip) : Prop where
  setting : r' = { r with
    source := r'.source, inverted := r'.inverted, dest := r'.dest, fader := r'.fader, mute := r'.mute, pan := r'.pan,
    linePunch := r'.linePunch, trim := r'.trim }
  fader : r.fader ≤ 65535 → r'.fader ≤ 65535
  trim : r'.trim = r.trim ∨ (r.mode = .trim ∧ r.writeState = .writing ∧ r'.trim ≤ 65535)
  lawful : PanLawful r.pan → PanLawful r'.pan
  weights : (∀ e ∈ r.pan, e.weight ≤ 16384) → ∀ e ∈ r'.pan, e.weight ≤ 16384
  fits : t.panFits r.dest r.pan = true → t.panFits r'.dest r'.pan = true
  sources : routeAllowed r.source r.dest = true → routeAllowed r'.source r'.dest = true

/-! ### Deeds of a request -/

/-- One effect that a request of port `p`, which is ATTACHED, can have beside its reply. -/
inductive Deed (p : PortId) : State → State → Prop
  | ports {s t : State} (rest : t = { s with ports := t.ports }) (port : ∀ q, (s.port q).Tended (t.port q))
      (transaction : ∀ q, (t.port q).transaction = (s.port q).transaction) : Deed p s t
  | save (n : StripNo) (s : State) :
      Deed p s (setRecall p ((snapshotOf n (s.strip n) :: (s.port p).recallStack).take Config.recallSize) s)
  | change {n : StripNo} {r : Strip} {s : State} (revised : (s.strip n).Revised s.busTable r) (written : List FieldValue)
      (reported : Bool) (m : Mode) : Deed p s (handCut s n (changeMode n m (writeChange p n r written reported s)))
  | mode (n : StripNo) (m : Mode) (s : State) : Deed p s (changeMode n m s)
  | putBack {k : Snapshot} {rest : List Snapshot} {s : State} (top : (s.port p).recallStack = k :: rest)
      (passed : recallFailure p k s = none) : Deed p s (recallApply p k (setRecall p rest s))
  | ramp (v : Nat) (s : State) : Deed p s { s with engine := { s.engine with rampLength := rampFrom v } }
  | bus {b : BusNo} {sel width mute print : Byte} {s : State} (passed : setBusFailure p b sel width mute print s = none)
      (gain : BitVec 16) : Deed p s (applyBus b (busChange sel width gain mute print) s)
  | master {w : Nat} {s : State} (passed : setMasterFailure w s = none) : Deed p s (applyMaster w s)
  | clips (set : BitVec 32) (s : State) : Deed p s { s with busTable := clearClips set s.busTable }
  | meters (hold : Nat) (s : State) : Deed p s { s with busTable := { s.busTable with holdSetting := hold } }
  | hold {o : Object} {s : State} (held : otherPort p (s.holderOf o) = false)
      (touched : otherPort p (s.toucherOf o) = false) : Deed p s (setHolder (some p) o s)
  | unhold (o : Object) (s : State) : Deed p s (setHolder none o s)
  | yield {o : Object} {q : PortId} {s : State} (holder : s.holderOf o = some p) (target : (s.port q).attached = true) :
      Deed p s (setHolder (some q) o (endTouch p o s))
  | touch {n : StripNo} {s : State} (free : handFailure p (s.strip n) = none) : Deed p s (changeToucher n (some p) s)
  | untouch (n : StripNo) (s : State) : Deed p s (changeToucher n none s)
  | line (l : Line) (low : Bool) (filter : Byte) (s : State) :
      Deed p s (s.modTimeline fun tl => tl.setLine l ((tl.line l).configured low filter.toNat))
  | loop {start stop : BitVec 32} {enable : Byte} {on : Bool} (checked : loopChecked start stop enable = some on)
      (s : State) :
      Deed p s (s.modTimeline fun tl => { tl with loopStart := start.toNat, loopEnd := stop.toNat, loopEnabled := on })
  | rate {s : State} (still : s.timeline.roll.filtered = false) (r : FrameRate) :
      Deed p s (s.modTimeline fun tl => { tl with rate := r, phase := 0 })
  | locate {frame : Nat} (range : frame ≤ Config.maxFrame) (s : State) : Deed p s (locateTo frame .locate s)
  | openPass {s : State} (passed : openPassFailure s = none) (low high : Nat) : Deed p s (openPassBy p low high s)
  | closePass {s : State} (port : s.playback.passPort = some p) : Deed p s (closePassNow s)
  | cue {field : CueField} {rc : ReadCue} {s : State} (port : s.playback.passPort = some p)
      (read : readCue field = some rc) (passed : examineCue field s = none) : Deed p s (queueCue rc.cue s)
  | stale (s : State) : Deed p s (countStale s)
  | take {s : State} (port : s.writing.takePort = some p) (n : Nat) : Deed p s (takeRecords n s)
  | patch (v : Vector PatchEntry 128) (s : State) : Deed p s { s with audio := { s.audio with patch := v } }

/-- The effects of one request of port `p`, in order. -/
abbrev Deeds (p : PortId) : State → State → Prop := Relation.ReflTransGen (Deed p)

/-! ### Events -/

/-- What an event of the sync monitor or of a lane makes of the audio interface. -/
inductive Audio.Turn (a : Audio) : Audio → Prop
  | start (free : a.locked = false) : Turn a a.startPeriod
  | edge (elapsed : Nat) : Turn a (a.edge elapsed)
  | timeout (free : a.locked = false) : Turn a a.timeout
  | missEdge (locked : a.locked = true) : Turn a a.missEdge
  | lock : Turn a a.lock.startPeriod
  | lose : Turn a a.lose
  | frame (l : LaneNo) (good : Bool) (slots : Vector LaneSample 16) :
      Turn a (a.modLane l (Lane.frame a.locked good (takenSlots a.rate slots)))
  | up {l : LaneNo} (due : a.upDue l = true) (slots : Vector LaneSample 16) :
      Turn a (a.modLane l fun _ => Lane.upWith (takenSlots a.rate slots))

/-- The six steps of a detach (R72). -/
def detachPort (p : PortId) (s : State) : State :=
  let s1 := s.modPort p fun q =>
    { q with attached := false, replySlot := none, shiftOut := [], transaction := q.transaction.overtaken }
  let s2 := endRoles p (releaseClaims p (releaseTouches p s1))
  raiseElsewhere .detach p (s2.modPort p fun q => PortState.fresh false q.transaction)

/-- One event of the part, a deed of a request among them. -/
inductive Event : State → State → Prop
  | ports {s t : State} (rest : t = { s with ports := t.ports }) (port : ∀ q, (s.port q).Tended (t.port q)) : Event s t
  | deed {p : PortId} {s t : State} (attached : (s.port p).attached = true) (d : Deed p s t) : Event s t
  | reset (rate : SampleRate) (present : Vector Bool 4) (s : State) :
      Event s { State.afterReset rate (Vector.ofFn fun p => PortState.fresh present[p] (s.port p).transaction.overtaken)
        with pending := s.pending }
  | attach {p : PortId} {s : State} (detached : (s.port p).attached = false) :
      Event s (s.modPort p fun q => PortState.fresh true q.transaction.overtaken)
  | detach {p : PortId} {s : State} (attached : (s.port p).attached = true) : Event s (detachPort p s)
  | audio {a : Audio} {s : State} (turn : s.audio.Turn a) : Event s (withAudio a s)
  | engine (s : State) : Event s (enginePeriod s)
  | frames (s : State) : Event s { s with audio := { s.audio with outFrames := s.audio.formFrames } }
  | timeline (v : LineLevels) (s : State) : Event s (timelinePeriod v s)

/-- The events of one command, in order. -/
abbrev Events : State → State → Prop := Relation.ReflTransGen Event

end Sys2Proof.Machine

/-!
PROOFS. Every command is a chain of events.
-/
namespace Sys2Proof.Machine

open Relation (ReflTransGen)

/-! ### Deeds keep the requester's transaction -/

theorem OnlyAt.attached {n : StripNo} {s t : State} (h : OnlyAt n s t) (q : PortId) :
    (t.port q).attached = (s.port q).attached := by rw [h.ports q]

theorem OnlyAt.transaction {n : StripNo} {s t : State} (h : OnlyAt n s t) (q : PortId) :
    (t.port q).transaction = (s.port q).transaction := by rw [h.ports q]

theorem OnlyStrips.attached {s t : State} (h : OnlyStrips s t) (q : PortId) :
    (t.port q).attached = (s.port q).attached := by rw [h.ports q]

theorem OnlyStrips.transaction {s t : State} (h : OnlyStrips s t) (q : PortId) :
    (t.port q).transaction = (s.port q).transaction := by rw [h.ports q]

/-- No port of `t` is attached or detached, or in another transaction, than in `s`. -/
structure SameLines (s t : State) : Prop where
  attached : ∀ q, (t.port q).attached = (s.port q).attached
  transaction : ∀ q, (t.port q).transaction = (s.port q).transaction

theorem SameLines.refl (s : State) : SameLines s s := ⟨fun _ => rfl, fun _ => rfl⟩

theorem SameLines.trans {s t u : State} (h : SameLines s t) (k : SameLines t u) : SameLines s u :=
  ⟨fun q => (k.attached q).trans (h.attached q), fun q => (k.transaction q).trans (h.transaction q)⟩

theorem sameLines_of_ports {s t : State} (h : t.ports = s.ports) : SameLines s t :=
  ⟨fun q => by rw [port_of_ports h], fun q => by rw [port_of_ports h]⟩

theorem OnlyAt.sameLines {n : StripNo} {s t : State} (h : OnlyAt n s t) : SameLines s t :=
  ⟨h.attached, h.transaction⟩

theorem OnlyStrips.sameLines {s t : State} (h : OnlyStrips s t) : SameLines s t := ⟨h.attached, h.transaction⟩

theorem sameLines_raiseAtRole (r : Reason) (o : Option PortId) (s : State) : SameLines s (raiseAtRole r o s) :=
  (raiseAtRole_onlyAt 0 r o s).sameLines

theorem sameLines_setHolder (h : Option PortId) (o : Object) (s : State) : SameLines s (setHolder h o s) := by
  cases o <;> exact sameLines_of_ports rfl

theorem sameLines_endTouch (p : PortId) (o : Object) (s : State) : SameLines s (endTouch p o s) := by
  cases o with
  | strip n =>
    unfold endTouch
    dsimp only
    split
    · exact (OnlyAt.changeToucher n none s).sameLines
    · exact sameLines_of_ports rfl
  | bus b => exact sameLines_of_ports rfl

theorem sameLines_setRecall (p : PortId) (l : List Snapshot) (s : State) : SameLines s (setRecall p l s) := by
  constructor <;> intro q <;> rw [setRecall, port_modPort] <;> split <;> rfl

theorem sameLines_retargetWhere (concerns : Dest → Bool) (s : State) : SameLines s (retargetWhere concerns s) := by
  refine (eachStrip_onlyStrips (fun n t => ?_) s).sameLines
  split
  · exact .retarget n t
  · exact .refl n t

theorem sameLines_handEvery (before s : State) : SameLines s (handEvery before s) :=
  (eachStrip_onlyStrips (fun n t => .handRetarget before n t) s).sameLines

theorem OnlyAt.armStrip (n : StripNo) (s : State) : OnlyAt n s (armStrip n s) := by
  unfold Machine.armStrip
  split
  · exact .setWriteState n _ s
  · exact .refl n s

theorem OnlyAt.disarmStrip (n : StripNo) (s : State) : OnlyAt n s (disarmStrip n s) := by
  unfold Machine.disarmStrip
  split
  · split
    · exact .endPunch _ _ n _ s
    · exact .setWriteState n _ s
  · exact .refl n s

theorem OnlyAt.sweepRetarget (concerns : Dest → Bool) (n : StripNo) (s : State) :
    OnlyAt n s (if concerns (s.strip n).dest then retargetStrip n s else s) := by
  split
  · exact .retarget n s
  · exact .refl n s

theorem flushFromTimeline_eq (s : State) :
    flushFromTimeline s =
      { s with playback := { s.playback with cues := [] }, ports := (flushFromTimeline s).ports } := by
  unfold flushFromTimeline
  dsimp only
  split
  · rw [raiseAtRole_eq]; rfl
  · rfl

theorem sameLines_withCues (s : State) (q : List Cue) : SameLines s (s.withCues q) := sameLines_of_ports rfl

theorem sameLines_modTimeline (s : State) (f : Timeline → Timeline) : SameLines s (s.modTimeline f) :=
  sameLines_of_ports rfl

theorem sameLines_flush (s : State) : SameLines s (flushFromTimeline s) := by
  unfold flushFromTimeline
  dsimp only
  split
  · exact (sameLines_withCues s []).trans (sameLines_raiseAtRole ..)
  · exact sameLines_withCues s []

theorem sameLines_recount (reason : PunchReason) (s : State) : SameLines s (recount reason s) :=
  (sameLines_modTimeline s _).trans (recount_frame reason s).sameLines

theorem sameLines_locateTo (frame : Nat) (reason : PunchReason) (s : State) : SameLines s (locateTo frame reason s) :=
  ((sameLines_modTimeline s _).trans (sameLines_flush _)).trans (sameLines_recount reason _)

theorem arrivalScan_sameLines (l : List Cue) (s : State) : SameLines s (arrivalScan l s) :=
  ⟨(arrivalScan_frame l s).sameLines.attached, (arrivalScan_frame l s).sameLines.transaction⟩

theorem sameLines_recallApply (p : PortId) (k : Snapshot) (s : State) : SameLines s (recallApply p k s) := by
  unfold recallApply
  dsimp only
  split
  · exact sameLines_of_ports rfl
  · exact (OnlyAt.commit p k.strip _ _ _ s).sameLines

theorem sameLines_applyBus (b : BusNo) (c : BusChange) (s : State) : SameLines s (applyBus b c s) := by
  have written : SameLines s ({ s with busTable := writeBus b c s.busTable } : State) := sameLines_of_ports rfl
  unfold applyBus
  dsimp only
  refine SameLines.trans ?_ (sameLines_of_ports (retargetGain_ports b _))
  split
  · exact written
  · exact written.trans (sameLines_retargetWhere (feedsBus b) _)

theorem sameLines_applyMaster (w : Nat) (s : State) : SameLines s (applyMaster w s) := by
  unfold applyMaster
  split
  · exact .refl s
  · exact SameLines.trans (sameLines_of_ports (by rfl)) (sameLines_retargetWhere feedsStem _)

/-- The fields that an accepted OPEN-PASS writes before the strips are armed (R110, R143). -/
def passOpened (p : PortId) (low high : Nat) (s : State) : State :=
  { s with
    playback := { s.playback with
      passOpen := true, passPort := some p, lowMark := min low Config.queueSize, highMark := min high Config.queueSize,
      stale := 0 },
    writing := { s.writing with takePort := some p, lost := 0 } }

theorem openPassBy_eq (p : PortId) (low high : Nat) (s : State) :
    openPassBy p low high s = handEvery s (eachStrip armStrip (passOpened p low high s)) := rfl

/-- The fields that a close of the pass writes after every punch has ended (R111, R112). -/
def passClosed (s : State) : State :=
  { s with
    writing := s.writing.settled,
    playback := { s.playback with passOpen := false, passPort := none } }

theorem closePassNow_eq (s : State) :
    closePassNow s = handEvery s (passClosed (eachStrip disarmStrip (s.withCues []))) := by
  unfold closePassNow passClosed
  dsimp only

theorem eachStrip_armStrip_onlyStrips (s : State) : OnlyStrips s (eachStrip armStrip s) :=
  eachStrip_onlyStrips (fun n t => .armStrip n t) s

theorem eachStrip_disarmStrip_onlyStrips (s : State) : OnlyStrips s (eachStrip disarmStrip s) :=
  eachStrip_onlyStrips (fun n t => .disarmStrip n t) s

theorem sameLines_openPassBy (p : PortId) (low high : Nat) (s : State) : SameLines s (openPassBy p low high s) := by
  have opened : SameLines s (passOpened p low high s) := sameLines_of_ports rfl
  rw [openPassBy_eq]
  exact (opened.trans (eachStrip_armStrip_onlyStrips _).sameLines).trans (sameLines_handEvery s _)

theorem sameLines_passClosed (s : State) : SameLines s (passClosed s) := sameLines_of_ports rfl

theorem sameLines_closePassNow (s : State) : SameLines s (closePassNow s) := by
  have flushed : SameLines s (s.withCues []) := sameLines_of_ports rfl
  rw [closePassNow_eq]
  exact ((flushed.trans (eachStrip_disarmStrip_onlyStrips _).sameLines).trans (sameLines_passClosed _)).trans
    (sameLines_handEvery s _)

/-- A request leaves every port attached or detached, and in its transaction, as it was (R71, R72). -/
theorem Deed.sameLines {p : PortId} {s t : State} (d : Deed p s t) : SameLines s t := by
  cases d with
  | ports rest port transaction => exact ⟨fun q => (port q).attached, transaction⟩
  | save n => exact sameLines_setRecall p _ s
  | change revised written reported m =>
    exact (((OnlyAt.writeChange p _ _ _ _ s).trans (.changeMode _ m _)).trans (.handCut s _ _)).sameLines
  | mode n m => exact (OnlyAt.changeMode n m s).sameLines
  | putBack top passed => exact (sameLines_setRecall p _ s).trans (sameLines_recallApply p _ _)
  | ramp v => exact sameLines_of_ports rfl
  | bus passed gain => exact sameLines_applyBus ..
  | master passed => exact sameLines_applyMaster ..
  | clips set => exact sameLines_of_ports rfl
  | meters hold => exact sameLines_of_ports rfl
  | hold held touched => exact sameLines_setHolder ..
  | unhold o => exact sameLines_setHolder ..
  | yield holder target => exact (sameLines_endTouch ..).trans (sameLines_setHolder ..)
  | touch free => exact (OnlyAt.changeToucher _ _ s).sameLines
  | untouch n => exact (OnlyAt.changeToucher n none s).sameLines
  | line l low filter => exact sameLines_of_ports rfl
  | loop checked => exact sameLines_of_ports rfl
  | rate still r => exact sameLines_of_ports rfl
  | locate range => exact sameLines_locateTo ..
  | openPass passed low high => exact sameLines_openPassBy ..
  | closePass port => exact sameLines_closePassNow s
  | cue port read passed => exact arrivalScan_sameLines ..
  | stale => exact sameLines_of_ports rfl
  | take port n => exact sameLines_of_ports rfl
  | patch v => exact sameLines_of_ports rfl

theorem Deeds.sameLines {p : PortId} {s t : State} (d : Deeds p s t) : SameLines s t := by
  induction d with
  | refl => exact .refl _
  | tail _ d ih => exact ih.trans d.sameLines

/-- Deeds of an ATTACHED port are events. -/
theorem Deeds.events {p : PortId} {s t : State} (d : Deeds p s t) (ha : (s.port p).attached = true) : Events s t := by
  induction d with
  | refl => exact .refl
  | tail before d ih => exact .tail ih (.deed (((Deeds.sameLines before).attached p).trans ha) d)

/-! ### Requests -/

/-- State `x` is what a request of port `p` makes of `s`: deeds, and then a reply or none. -/
def Served (p : PortId) (s x : State) : Prop :=
  ∃ u, Deeds p s u ∧ (x = u ∨ ∃ code st l, x = answer p code st l u)

theorem Served.answer {p : PortId} {s u : State} (d : Deeds p s u) (code : Byte) (st : Status) (l : List Byte) :
    Served p s (answer p code st l u) := ⟨u, d, .inr ⟨code, st, l, rfl⟩⟩

theorem Served.silent {p : PortId} {s u : State} (d : Deeds p s u) : Served p s u := ⟨u, d, .inl rfl⟩

theorem Served.refused {p : PortId} {s : State} (code : Byte) (st : Status) (l : List Byte) :
    Served p s (Machine.answer p code st l s) := .answer .refl code st l

theorem tended_modPort {s : State} {p : PortId} {f : PortState → PortState} (h : (s.port p).Tended (f (s.port p)))
    (q : PortId) : (s.port q).Tended ((s.modPort p f).port q) := by
  rw [port_modPort]
  split
  · next e => exact e ▸ h
  · exact .refl _

/-- A command completes by a chain of events. -/
def Completes (s : State) (o : Host.Outcome State Fault Refusal) : Prop := ∃ t, o = .next t ∧ Events s t

/-- A request that is taken is its deeds and its reply, and one that is not the fall of SEL. -/
theorem request_events {p : PortId} {f : State → State} {s : State}
    (served : ∀ t, (t.port p).attached = true → (t.port p).transaction = .idle → Served p t (f t)) :
    Completes s (request p f s) := by
  have fallen : Event s (s.modPort p PortState.transacted) := .ports rfl (tended_modPort (tended_transacted _))
  cases taken : (s.port p).takes with
  | false => exact ⟨_, request_ignored taken f, .single fallen⟩
  | true =>
    refine ⟨_, request_taken taken f, ?_⟩
    have ha : ((s.modPort p PortState.transacted).port p).attached = true := by
      rw [port_transacted taken]; exact (Bool.and_eq_true_iff.mp taken).1
    have ht : ((s.modPort p PortState.transacted).port p).transaction = .idle := by rw [port_transacted taken]
    obtain ⟨u, deeds, h | ⟨code, st, l, h⟩⟩ := served _ ha ht
    · rw [h]
      exact .head fallen (deeds.events ha)
    · rw [h]
      refine .head fallen (.tail (deeds.events ha) (.ports rfl (tended_modPort ?_)))
      have lines := Deeds.sameLines deeds
      exact tended_replied ((lines.attached p).trans ha) ((lines.transaction p).trans ht) _

end Sys2Proof.Machine

/-!
PROOFS. The deeds of every request: what a request that passes its checks makes of the record it changes, and the
events of every command.
-/
namespace Sys2Proof.Machine

open Relation (ReflTransGen)

/-! ### Values read from operands are in range (R14) -/

theorem word_le (w : BitVec 16) : w.toNat ≤ 65535 := by have := w.isLt; omega

theorem valueWord_le (v : Value13) : valueWord v ≤ 65535 := word_le _

theorem clampAdd_le (v : Nat) (d : Int) : clampAdd v d ≤ 65535 := by unfold clampAdd Config.max16; omega

theorem readEntry_weight {c : Byte} {w : BitVec 16} {e : PanEntry} (h : readEntry c w = some e) :
    e.weight ≤ 16384 := by
  simp only [readEntry, Option.map_eq_some_iff] at h
  obtain ⟨i, -, rfl⟩ := h
  simp [clampWeight, Config.unity]

theorem readEntries_weights {l : List (Byte × BitVec 16)} {es : List PanEntry} (h : readEntries l = some es) :
    ∀ e ∈ es, e.weight ≤ 16384 := by
  induction l generalizing es with
  | nil => cases h; simp
  | cons x rest ih =>
    simp only [readEntries] at h
    split at h
    · next e es' he hes =>
      cases h
      intro d hd
      rcases List.mem_cons.mp hd with rfl | hd
      · exact readEntry_weight he
      · exact ih hes d hd
    · cases h

theorem panField_weights (v : Value13) : ∀ e ∈ (readPan v).list, e.weight ≤ 16384 := by
  unfold PanField.list
  cases h : (readPan v).entries with
  | none => simp
  | some es => exact readEntries_weights h

theorem panField_lawful {v : Value13} (h : (readPan v).shaped = true) : PanLawful (readPan v).list :=
  ⟨(Bool.and_eq_true_iff.mp h).2, panField_weights v⟩

theorem panShaped_iff (l : List PanEntry) :
    panShaped l = true ↔ 1 ≤ l.length ∧ l.length ≤ 4 ∧ (l.map (·.channel)).Nodup := by
  simp [panShaped, distinctChannels, and_assoc]

/-! ### Checks that passed -/

theorem firstFailure_cons_none {o : Option Status} {l : List (Option Status)} :
    firstFailure (o :: l) = none ↔ o = none ∧ firstFailure l = none := by cases o <;> simp [firstFailure]

/-- A change that writes no pan, source or destination, and no value out of range. -/
theorem revised_of_setting {t : BusTable} {r r' : Strip}
    (setting : r' = { r with mute := r'.mute, inverted := r'.inverted, linePunch := r'.linePunch }) :
    r.Revised t r' := by
  rw [setting]
  exact ⟨rfl, id, .inl rfl, id, id, id, id⟩

theorem revised_writeFlags (t : BusTable) (op : FlagsOp) (sel set : Byte) (r : Strip) :
    r.Revised t (writeFlags op sel set r) := revised_of_setting rfl

/-- A MOVE writes a fader or trim in range, a mute, or a pan list that has its shape and fits. -/
inductive FieldValue.Allowed (t : BusTable) (passOpen : Bool) (r : Strip) : FieldValue → Prop
  | fader {v : Nat} (range : v ≤ 65535) : Allowed t passOpen r (.fader v)
  | mute (m : Bool) : Allowed t passOpen r (.mute m)
  | pan {l : List PanEntry} (lawful : PanLawful r.pan → PanLawful l)
      (weights : (∀ e ∈ r.pan, e.weight ≤ 16384) → ∀ e ∈ l, e.weight ≤ 16384)
      (fits : t.panFits r.dest r.pan = true → t.panFits r.dest l = true) : Allowed t passOpen r (.pan l)
  | trim {v : Nat} (opened : trimOpen passOpen r = true) (range : v ≤ 65535) : Allowed t passOpen r (.trim v)

theorem revised_write {t : BusTable} {passOpen : Bool} {r : Strip} {v : FieldValue} (h : v.Allowed t passOpen r) :
    r.Revised t (r.write v) := by
  cases h with
  | fader range => exact ⟨rfl, fun _ => range, .inl rfl, id, id, id, id⟩
  | mute m => exact revised_of_setting rfl
  | pan lawful weights fits => exact ⟨rfl, id, .inl rfl, lawful, weights, fits, id⟩
  | trim opened range =>
    have hopen : (passOpen = true ∧ r.mode = .trim) ∧ r.writeState = .writing := by simpa [trimOpen] using opened
    exact ⟨rfl, id, .inr ⟨hopen.1.2, hopen.2, range⟩, id, id, id, id⟩

theorem faderWrite_allowed (t : BusTable) (passOpen : Bool) (r : Strip) {f : Nat → Nat} (hf : ∀ v, f v ≤ 65535) :
    (faderWrite passOpen r f).Allowed t passOpen r := by
  unfold faderWrite
  split
  · next h => exact .trim h (hf _)
  · exact .fader (hf _)

theorem checkedPan_allowed {t : BusTable} {passOpen : Bool} {r : Strip} {l : List PanEntry} {v : FieldValue}
    (weights : (∀ e ∈ r.pan, e.weight ≤ 16384) → ∀ e ∈ l, e.weight ≤ 16384) (h : checkedPan t r.dest l = .ok v) :
    v.Allowed t passOpen r := by
  unfold checkedPan at h
  split at h
  · next hc =>
    cases h
    obtain ⟨shaped, fits⟩ := Bool.and_eq_true_iff.mp hc
    exact .pan (fun hr => ⟨shaped, weights hr.weights⟩) weights (fun _ => fits)
  · cases h

/-- The removal of one of several entries leaves a pan list that fits where it fitted. -/
theorem removed_allowed (t : BusTable) (passOpen : Bool) {r : Strip} {k : Nat} (hk : k < r.pan.length)
    (hl : r.pan.length ≠ 1) : (FieldValue.pan (r.pan.eraseIdx k)).Allowed t passOpen r := by
  have sub : (r.pan.eraseIdx k).Sublist r.pan := List.eraseIdx_sublist ..
  refine .pan (fun h => ⟨?_, fun e he => h.weights e (sub.subset he)⟩) (fun h e he => h e (sub.subset he)) (fun h => ?_)
  · obtain ⟨-, four, nodup⟩ := (panShaped_iff _).mp h.shaped
    have len := List.length_eraseIdx_of_lt hk
    exact (panShaped_iff _).mpr ⟨by omega, by omega, (sub.map _).nodup nodup⟩
  · unfold BusTable.panFits at h ⊢
    split
    · rfl
    · next w hw =>
      simp only [hw, List.all_eq_true] at h ⊢
      exact fun e he => h e (sub.subset he)

theorem panEntryResult_allowed {t : BusTable} {passOpen : Bool} {r : Strip} {k : Nat} {value : Value13} {v : FieldValue}
    (h : panEntryResult t r k value = .ok v) : v.Allowed t passOpen r := by
  unfold panEntryResult at h
  split at h
  · cases h
  · next range =>
    split at h
    · cases h
    · split at h
      · cases h
      · split at h
        · cases h
        · cases h
          exact removed_allowed t passOpen (by omega) (by assumption)
    · split at h
      · cases h
      · next e he =>
        have hw := readEntry_weight he
        refine checkedPan_allowed (fun hr d hd => ?_) h
        split at hd
        · rcases List.mem_or_eq_of_mem_set hd with hd | rfl
          · exact hr d hd
          · exact hw
        · rcases List.mem_append.mp hd with hd | hd
          · exact hr d hd
          · rw [List.mem_singleton.mp hd]; exact hw

theorem moveReplace_allowed {t : BusTable} {passOpen : Bool} {r : Strip} {field : MoveField} {index : Byte}
    {value : Value13} {v : FieldValue} (h : moveReplace passOpen t r field index value = .ok v) :
    v.Allowed t passOpen r := by
  cases field with
  | fader => cases h; exact faderWrite_allowed t passOpen r fun _ => valueWord_le value
  | mute =>
    simp only [moveReplace] at h
    split at h <;> cases h
    exact .mute _
  | pan =>
    simp only [moveReplace] at h
    split at h
    · cases h
    · split at h
      · exact checkedPan_allowed (fun _ => panField_weights value) h
      · cases h
  | panEntry => exact panEntryResult_allowed h

theorem moveAdd_allowed {t : BusTable} {passOpen : Bool} {r : Strip} {field : MoveField} {index : Byte}
    {value : Value13} {v : FieldValue} (h : moveAdd passOpen r field index value = .ok v) :
    v.Allowed t passOpen r := by
  unfold moveAdd at h
  dsimp only at h
  split at h
  · cases h
  · cases field with
    | fader => cases h; exact faderWrite_allowed t passOpen r fun _ => clampAdd_le ..
    | mute => cases h
    | pan => cases h
    | panEntry => dsimp only at h; split at h <;> cases h

theorem moveChecked_allowed {p : PortId} {s : State} {n : StripNo} {field op index : Byte} {value : Value13}
    {v : FieldValue} (h : moveChecked p s n field op index value = .ok v) :
    v.Allowed s.busTable s.playback.passOpen (s.strip n) := by
  unfold moveChecked at h
  dsimp only at h
  split at h
  · cases h
  · unfold moveResult at h
    split at h
    · exact moveReplace_allowed h
    · exact moveAdd_allowed h
    · cases h

theorem routeResult_revised {t : BusTable} {r r' : Strip} {source : SourceField} {dest : DestField} {carried : Byte}
    {pan : Value13} (h : routeResult t r source dest carried pan = .ok r') : r.Revised t r' := by
  unfold routeResult at h
  split at h
  · split at h
    · split at h
      · cases h
      · split at h
        · next passed =>
          cases h
          obtain ⟨⟨shaped, fits⟩, allowed⟩ : ((readPan pan).shaped = true ∧ _) ∧ _ := by
            simpa only [Bool.and_eq_true] using passed
          exact ⟨rfl, id, .inl rfl, fun _ => panField_lawful shaped, fun _ => panField_weights pan, fun _ => fits,
            fun _ => allowed⟩
        · cases h
    · split at h
      · next passed =>
        cases h
        obtain ⟨fits, allowed⟩ := Bool.and_eq_true_iff.mp passed
        exact ⟨rfl, id, .inl rfl, id, id, fun _ => fits, fun _ => allowed⟩
      · cases h
  · cases h

/-- The ranges that the values of a SET-STRIP have been judged by (R14, R24). -/
theorem readStripValues_ranges {source : SourceField} {polarity : Byte} {dest : DestField} {fader : BitVec 16}
    {mute : Byte} {pan : Value13} {mode linePunch : Byte} {v : StripValues}
    (h : readStripValues source polarity dest fader mute pan mode linePunch = some v) :
    v.fader = fader.toNat ∧ v.pan = readPan pan := by
  unfold readStripValues at h
  split at h
  · split at h
    · cases h; exact ⟨rfl, rfl⟩
    · cases h
  · cases h

theorem rewritten_revised {t : BusTable} {r : Strip} {v : StripValues} {fader : BitVec 16} {pan : Value13}
    (hf : v.fader = fader.toNat) (hp : v.pan = readPan pan) (shaped : v.pan.shaped = true)
    (fits : t.panFits v.dest v.pan.list = true) (allowed : routeAllowed v.source v.dest = true) :
    r.Revised t (r.rewritten v) := by
  refine ⟨rfl, fun _ => ?_, .inl rfl, fun _ => ?_, fun _ => ?_, fun _ => fits, fun _ => allowed⟩
  · exact (show (r.rewritten v).fader = fader.toNat from hf) ▸ word_le fader
  · rw [hp] at shaped
    simpa only [Strip.rewritten, hp] using panField_lawful shaped
  · simpa only [Strip.rewritten, hp] using panField_weights pan

/-! ### A change that keeps the mode -/

theorem changeMode_same {n : StripNo} {s : State} {m : Mode} (h : (s.strip n).mode = m) : changeMode n m s = s := by
  simp [changeMode, h]

/-- What the writing block may write in a record: the live fields, the trim and the write state. -/
def Strip.SameSetting (r r' : Strip) : Prop :=
  r' = { r with fader := r'.fader, mute := r'.mute, pan := r'.pan, trim := r'.trim, writeState := r'.writeState }

theorem Strip.SameSetting.refl (r : Strip) : r.SameSetting r := rfl

theorem Strip.SameSetting.trans {r r' r'' : Strip} (h : r.SameSetting r') (k : r'.SameSetting r'') :
    r.SameSetting r'' := by
  unfold Strip.SameSetting at *
  rw [k, h]

theorem sameSetting_setWriteState (n m : StripNo) (w : WriteState) (s : State) :
    (s.strip m).SameSetting ((setWriteState n w s).strip m) := by
  rw [setWriteState, strip_modStrip]
  split
  · rfl
  · exact .refl _

theorem sameSetting_punchIn (n m : StripNo) (s : State) : (s.strip m).SameSetting ((punchIn n s).strip m) := by
  by_cases h : m = n
  · subst h; rw [strip_punchIn]; rfl
  · rw [(OnlyAt.punchIn n s).strips m h]; exact .refl _

theorem sameSetting_endPunch (reason : PunchReason) (mode : Mode) (n m : StripNo) (w : WriteState) (s : State) :
    (s.strip m).SameSetting ((endPunch reason mode n w s).strip m) := by
  by_cases h : m = n
  · subst h; rw [strip_endPunch]; rfl
  · rw [(OnlyAt.endPunch reason mode n w s).strips m h]; exact .refl _

theorem sameSetting_punchOut (reason : PunchReason) (n m : StripNo) (w : WriteState) (s : State) :
    (s.strip m).SameSetting ((punchOut reason n w s).strip m) := by
  rw [punchOut, handRetarget_strip]
  exact sameSetting_endPunch ..

theorem sameSetting_triggerRise (n m : StripNo) (s : State) : (s.strip m).SameSetting ((triggerRise n s).strip m) := by
  unfold triggerRise
  split
  · split
    · exact sameSetting_punchIn ..
    · exact sameSetting_setWriteState ..
  · split
    · exact sameSetting_setWriteState ..
    · exact .refl _
  all_goals exact .refl _

theorem sameSetting_triggerFall (n m : StripNo) (s : State) : (s.strip m).SameSetting ((triggerFall n s).strip m) := by
  unfold triggerFall
  split
  · exact sameSetting_setWriteState ..
  · exact sameSetting_punchOut ..
  · exact sameSetting_punchOut ..
  · exact sameSetting_setWriteState ..
  · exact .refl _

/-- A trigger change leaves a record's settings: route, mode, line punch, shadow and hands (R132, R133). -/
theorem sameSetting_triggerChange (before : State) (n m : StripNo) (s : State) :
    (s.strip m).SameSetting ((triggerChange before n s).strip m) := by
  unfold triggerChange
  split
  · split
    · exact sameSetting_triggerRise ..
    · exact sameSetting_triggerFall ..
  · exact .refl _

theorem recordMoves_strip (p : PortId) (n m : StripNo) (l : List FieldValue) (s : State) :
    (recordMoves p n l s).strip m = s.strip m := by
  unfold recordMoves
  induction l generalizing s with
  | nil => rfl
  | cons v rest ih => exact (ih _).trans (appendTake_strip ..)

/-- The state of an accepted change before the trigger change: record, retarget, take records and report. -/
def changed (p : PortId) (n : StripNo) (r : Strip) (written : List FieldValue) (reported : Bool) (s : State) : State :=
  let s1 := handRetarget s n (s.setStrip n r)
  let s2 := if (s.strip n).writeState.punched then recordMoves p n written s1 else s1
  if reported then report p n s2 else s2

theorem writeChange_eq (p : PortId) (n : StripNo) (r : Strip) (written : List FieldValue) (reported : Bool) (s : State) :
    writeChange p n r written reported s = triggerChange s n (changed p n r written reported s) := rfl

theorem changed_strip (p : PortId) (n : StripNo) (r : Strip) (written : List FieldValue) (reported : Bool) (s : State) :
    (changed p n r written reported s).strip n = r := by
  unfold changed
  dsimp only
  split <;> split <;> simp [recordMoves_strip]

theorem writeChange_mode {p : PortId} {n : StripNo} {r : Strip} {s : State} (h : r.mode = (s.strip n).mode)
    (written : List FieldValue) (reported : Bool) :
    ((writeChange p n r written reported s).strip n).mode = (s.strip n).mode := by
  have setting := sameSetting_triggerChange s n n (changed p n r written reported s)
  rw [changed_strip] at setting
  rw [writeChange_eq, setting, h]

theorem Strip.Revised.mode {t : BusTable} {r r' : Strip} (h : r.Revised t r') : r'.mode = r.mode := by
  rw [h.setting]

/-- A change without a mode is one to the mode held. -/
theorem deed_commit {p : PortId} {n : StripNo} {r : Strip} {s : State} (h : (s.strip n).Revised s.busTable r)
    (written : List FieldValue) (reported : Bool) : Deed p s (commit p n r written reported s) := by
  have d := Deed.change (p := p) h written reported (s.strip n).mode
  rwa [changeMode_same (writeChange_mode h.mode written reported)] at d

/-! ### Requests of the strip table -/

section Requests
variable {p : PortId} {s : State}

/-- A change of the requester's own port. -/
theorem deed_modPort (q : PortId) {f : PortState → PortState} (h : (s.port q).Tended (f (s.port q)))
    (ht : (f (s.port q)).transaction = (s.port q).transaction) : Deed p s (s.modPort q f) :=
  .ports rfl (tended_modPort h) fun q' => by
    rw [port_modPort]
    split
    · next e => exact e ▸ ht
    · rfl

theorem deed_report (n : StripNo) : Deed p s (report p n s) :=
  .ports rfl
    (fun q => by rw [report, port_mapPorts]; split; exacts [.refl _, tended_reported ..])
    (fun q => by rw [report, port_mapPorts]; split; exacts [rfl, transaction_reported ..])

theorem deed_countRefusal (ha : (s.port p).attached = true) : Deed p s (countRefusal p s) := by
  refine deed_modPort p (.trans ?_ (tended_raised ..)) (transaction_raised ..)
  refine tended_of_fields ha rfl rfl rfl rfl rfl id fun _ => ?_
  simp only [saturate]; omega

theorem execMove_completes (posted : Bool) (surface field op index : Byte) (value : Value13) :
    Completes s (execMove p posted surface field op index value s) :=
  request_events fun s ha _ => by
    split
    · next v t h =>
      have d : Deeds p s t := by
        unfold moveDone at h
        split at h
        · cases h
        · split at h
          · cases h
          · next checked => cases h; exact .single (deed_commit (revised_write (moveChecked_allowed checked)) _ _)
      split
      · exact .silent d
      · exact .answer d ..
    · split
      · exact .silent (.single (deed_countRefusal ha))
      · exact .refused ..

theorem deed_flagsAt {n : Nat} {op sel set : Byte} {t : State} (h : flagsAt p n op sel set s = .ok t) :
    Deed p s t := by
  unfold flagsAt at h
  split at h
  · cases h
  · dsimp only at h
    split at h <;> cases h
    exact deed_commit (revised_writeFlags ..) _ _

theorem deeds_flagsRun (op sel set : Byte) (l : List Nat) (s : State) : Deeds p s (flagsRun p op sel set l s).state := by
  induction l generalizing s with
  | nil => exact .refl
  | cons n rest ih =>
    unfold flagsRun
    split
    · next t h => exact .head (deed_flagsAt h) (ih t)
    · exact ih s

theorem execFlags_completes (posted : Bool) (start count op sel set : Byte) :
    Completes s (execFlags p posted start count op sel set s) :=
  request_events fun s ha _ => by
    have d : Deeds p s (flagsDone p start count op sel set s).2.state := by
      unfold flagsDone
      split
      · exact deeds_flagsRun ..
      · exact .refl
    dsimp only
    split
    · split
      · exact .silent d
      · exact .silent (.tail d (deed_countRefusal ((Deeds.sameLines d).attached p ▸ ha)))
    · exact .answer d ..

theorem execSetRoute_completes (surface : Byte) (source : SourceField) (dest : DestField) (carried : Byte) (pan : Value13) :
    Completes s (execSetRoute p surface source dest carried pan s) :=
  request_events fun s _ _ => by
    split
    · next t h =>
      refine .answer (.single ?_) ..
      unfold setRouteDone at h
      split at h
      · cases h
      · dsimp only at h
        split at h
        · cases h
        · split at h
          · cases h
          · next result => cases h; exact deed_commit (routeResult_revised result) _ _
    · exact .refused ..

theorem execSetStrip_completes (surface : Byte) (source : SourceField) (polarity : Byte) (dest : DestField) (fader : BitVec 16)
    (mute : Byte) (pan : Value13) (mode linePunch : Byte) :
    Completes s (execSetStrip p surface source polarity dest fader mute pan mode linePunch s) :=
  request_events fun s _ _ => by
    split
    · next t h =>
      refine .answer (.single ?_) ..
      unfold setStripDone at h
      split at h
      · cases h
      · dsimp only at h
        split at h
        · cases h
        · split at h
          · cases h
          · next v read =>
            split at h
            · next passed =>
              cases h
              obtain ⟨hf, hp⟩ := readStripValues_ranges read
              obtain ⟨⟨shaped, fits⟩, allowed⟩ : (v.pan.shaped = true ∧ _) ∧ _ := by
                simpa only [Bool.and_eq_true] using passed
              exact .change (rewritten_revised hf hp shaped fits allowed) _ _ _
            · cases h
    · exact .refused ..

theorem execSetMode_completes (surface mode : Byte) : Completes s (execSetMode p surface mode s) :=
  request_events fun s _ _ => by
    split
    · next t h =>
      refine .answer ?_ ..
      unfold setModeDone at h
      split at h
      · cases h
      · split at h <;> cases h
        split
        · exact .refl
        · exact .tail (.single (.mode ..)) (deed_report _)
    · exact .refused ..

theorem readSurfaces_served (ha : (s.port p).attached = true) (code : Byte) (start : Nat) (count : Byte) :
    Served p s (readSurfaces p code start count s) := by
  unfold readSurfaces
  split
  · refine .answer (.single (deed_modPort p ?_ rfl)) ..
    exact tended_of_fields ha rfl rfl rfl rfl rfl (fun _ => by dsimp only; omega) id
  · exact .refused ..

theorem answerRead_served (code : Byte) (reply : Except Status (List Byte)) : Served p s (answerRead p code reply s) := by
  unfold answerRead
  split <;> exact .refused ..

/-! ### Requests of the bus table -/

theorem execSetBus_completes (bus sel width : Byte) (gain : BitVec 16) (mute print : Byte) :
    Completes s (execSetBus p bus sel width gain mute print s) :=
  request_events fun s _ _ => by
    split
    · exact .refused ..
    · split
      · exact .refused ..
      · next passed => exact .answer (.single (.bus passed gain)) ..

theorem execSetMaster_completes (width : Byte) : Completes s (execSetMaster p width s) :=
  request_events fun s _ _ => by
    split
    · exact .refused ..
    · next passed => exact .answer (.single (.master passed)) ..

/-! ### Requests of the position state -/

theorem holderOf_setHolder (h : Option PortId) (o o' : Object) (s : State) :
    (setHolder h o s).holderOf o' = if o' = o then h else s.holderOf o' := by
  cases o with
  | strip n =>
    cases o' with
    | strip m =>
      simp only [setHolder, State.holderOf, strip_modStrip, Object.strip.injEq, eq_comm (a := m)]
      split <;> rfl
    | bus b => rfl
  | bus b =>
    cases o' with
    | strip m => rfl
    | bus a =>
      simp only [setHolder, State.holderOf, bus_modBus, Object.bus.injEq, eq_comm (a := a)]
      split <;> rfl

theorem toucherOf_setHolder (h : Option PortId) (o o' : Object) (s : State) :
    (setHolder h o s).toucherOf o' = s.toucherOf o' := by
  cases o with
  | strip n =>
    cases o' with
    | strip m =>
      simp only [setHolder, State.toucherOf, strip_modStrip]
      split <;> rfl
    | bus b => rfl
  | bus b => cases o' <;> rfl

theorem firstConflict_none {field : Object → Option PortId} {i : Nat} {os : List Object}
    (h : firstConflict p field i os = none) : ∀ o ∈ os, otherPort p (field o) = false := by
  induction os generalizing i with
  | nil => simp
  | cons o rest ih =>
    unfold firstConflict at h
    have head_tail : otherPort p (field o) = false ∧ firstConflict p field (i + 1) rest = none := by
      cases ho : field o with
      | none => exact ⟨rfl, by simpa [ho] using h⟩
      | some q =>
        rw [ho] at h
        dsimp only at h
        split at h
        · next e => exact ⟨by simp [otherPort, e], h⟩
        · cases h
    intro o' ho'
    rcases List.mem_cons.mp ho' with rfl | ho'
    · exact head_tail.1
    · exact ih head_tail.2 o' ho'

theorem deeds_holdAll (os : List Object) (s : State) (held : ∀ o ∈ os, otherPort p (s.holderOf o) = false)
    (touched : ∀ o ∈ os, otherPort p (s.toucherOf o) = false) : Deeds p s (holdAll (some p) os s) := by
  induction os generalizing s with
  | nil => exact .refl
  | cons o rest ih =>
    refine .head (.hold (held o (by simp)) (touched o (by simp))) (ih _ (fun o' ho' => ?_) (fun o' ho' => ?_))
    · rw [holderOf_setHolder]
      split
      · simp [otherPort]
      · exact held o' (List.mem_cons_of_mem o ho')
    · rw [toucherOf_setHolder]
      exact touched o' (List.mem_cons_of_mem o ho')

theorem execClaim_completes (kind first count : Byte) : Completes s (execClaim p kind first count s) :=
  request_events fun s _ _ => by
    split
    · next os h =>
      refine .answer ?_ ..
      unfold claimChecked at h
      split at h
      · cases h
      · split at h
        · cases h
        · split at h
          · cases h
          · split at h
            · cases h
            · next held =>
              split at h <;> cases h
              next touched => exact deeds_holdAll _ s (firstConflict_none held) (firstConflict_none touched)
    · exact .refused ..

theorem deeds_releaseRun (os : List Object) (k : Nat) (s : State) : Deeds p s (releaseRun p os k s).2 := by
  induction os generalizing k s with
  | nil => exact .refl
  | cons o rest ih =>
    unfold releaseRun
    split
    · exact .head (.unhold o s) (ih ..)
    · exact ih ..

theorem execRelease_completes (kind first count : Byte) : Completes s (execRelease p kind first count s) :=
  request_events fun s _ _ => by
    split
    · next k t h =>
      refine .answer ?_ ..
      unfold releaseDone at h
      split at h
      · cases h
      · split at h
        · cases h
        · have ht : t = _ := (congrArg Prod.snd (Except.ok.inj h)).symm
          exact ht ▸ deeds_releaseRun ..
    · exact .refused ..

theorem deed_raiseAt (r : Reason) (q : PortId) : Deed p s (raiseAt r q s) :=
  deed_modPort q (tended_raised ..) (transaction_raised ..)

theorem execYield_completes (kind number target : Byte) : Completes s (execYield p kind number target s) :=
  request_events fun s _ _ => by
    split
    · next o q h =>
      refine .answer (.tail (.single ?_) (deed_raiseAt ..)) ..
      unfold yieldChecked at h
      split at h
      · cases h
      · split at h
        · cases h
        · split at h
          · cases h
          · split at h
            · next holder =>
              split at h
              · cases h
              · next target =>
                split at h <;> cases h
                exact .yield holder (by simpa using target)
            · cases h
    · exact .refused ..

theorem execTouch_completes (surface : Byte) : Completes s (execTouch p surface s) :=
  request_events fun s _ _ => by
    split
    · exact .refused ..
    · split
      · exact .refused ..
      · next free => exact .answer (.single (.touch free)) ..

theorem deeds_endTouch (o : Object) : Deeds p s (endTouch p o s) := by
  unfold endTouch
  split
  · split
    · exact .single (.untouch ..)
    · exact .refl
  · exact .refl

theorem execUntouch_completes (surface : Byte) : Completes s (execUntouch p surface s) :=
  request_events fun s _ _ => by
    split
    · exact .refused ..
    · exact .answer (deeds_endTouch _) ..

theorem deed_setWatches {l : List Watch} (ha : (s.port p).attached = true)
    (size : (s.port p).watches.length ≤ 4 → l.length ≤ 4)
    (distinct : ((s.port p).watches.map (·.strip)).Nodup → (l.map (·.strip)).Nodup) : Deed p s (setWatches p l s) :=
  deed_modPort p (tended_of_watches ha size distinct) rfl

/-- A watch that is added is of a strip not watched yet, on a list with room (R83). -/
theorem addWatch_ok {n : StripNo} {l l' : List Watch} (h : addWatch n l = .ok l') :
    (∀ w ∈ l, w.strip ≠ n) ∧ l.length < 4 ∧ l' = l ++ [{ strip := n, hit := false, mover := none }] := by
  unfold addWatch at h
  split at h
  · cases h
  · next fresh =>
    split at h <;> cases h
    next room => exact ⟨by simpa using fresh, Nat.lt_of_not_le room, rfl⟩

theorem execWatchAdd_completes (surface : Byte) : Completes s (execWatchAdd p surface s) :=
  request_events fun s ha _ => by
    split
    · exact .refused ..
    · split
      · exact .refused ..
      · next h =>
        obtain ⟨fresh, room, rfl⟩ := addWatch_ok h
        refine .answer (.single (deed_setWatches ha (fun _ => ?_) (fun old => ?_))) ..
        · rw [List.length_append]; exact room
        · rw [List.map_append]
          exact List.Nodup.append old (List.nodup_singleton _) (by simpa using fresh)

theorem execWatchRemove_completes (surface : Byte) : Completes s (execWatchRemove p surface s) :=
  request_events fun s ha _ => by
    split
    · exact .refused ..
    · refine .answer (.single (deed_setWatches ha (fun h => ?_) (fun h => ?_))) ..
      · exact (List.length_filter_le ..).trans h
      · exact (List.filter_sublist.map _).nodup h

theorem execWatchRead_completes : Completes s (execWatchRead p s) :=
  request_events fun s ha _ => by
    refine .answer (.single (deed_setWatches ha (fun h => ?_) (fun h => ?_))) ..
    · simpa using h
    · simpa [List.map_map, Function.comp_def] using h

theorem execSignal_completes (target flag : Byte) : Completes s (execSignal p target flag s) :=
  request_events fun s _ _ => by
    split
    · next q f h =>
      have ha : (s.port q).attached = true := by
        unfold signalChecked at h
        split at h
        · split at h
          · cases h
          · split at h
            · cases h
            · next attached => cases h; simpa using attached
        · cases h
      have d : Deed p s (s.modPort q fun qs => { qs with signals := qs.signals.set f true }) :=
        deed_modPort q (tended_of_fields ha rfl rfl rfl rfl rfl id id) rfl
      exact .answer (.tail (.single d) (deed_raiseAt ..)) ..
    · exact .refused ..

theorem execClearSignal_completes (set : Byte) : Completes s (execClearSignal p set s) :=
  request_events fun s ha _ => by
    exact .answer (.single (deed_modPort p (tended_of_fields ha rfl rfl rfl rfl rfl id id) rfl)) ..

theorem execSave_completes (surface : Byte) : Completes s (execSave p surface s) :=
  request_events fun s _ _ => by
    split
    · exact .refused ..
    · exact .answer (.single (.save ..)) ..

theorem execRecall_completes : Completes s (execRecall p s) :=
  request_events fun s _ _ => by
    split
    · exact .refused ..
    · next top =>
      split
      · exact .refused ..
      · next passed => exact .answer (.single (.putBack top passed)) ..

/-! ### Requests of the timeline and the pass -/

theorem execLineConfig_completes (line polarity filter : Byte) :
    Completes s (execLineConfig p line polarity filter s) :=
  request_events fun s _ _ => by
    split
    · exact .answer (.single (.line ..)) ..
    · exact .refused ..

theorem execLocate_completes (frame : BitVec 32) : Completes s (execLocate p frame s) :=
  request_events fun s _ _ => by
    split
    · next range => exact .answer (.single (.locate range s)) ..
    · exact .refused ..

theorem execLoopSet_completes (start stop : BitVec 32) (enable : Byte) :
    Completes s (execLoopSet p start stop enable s) :=
  request_events fun s _ _ => by
    split
    · next checked => exact .answer (.single (.loop checked s)) ..
    · exact .refused ..

theorem execTimelineConfig_completes (rate : Byte) : Completes s (execTimelineConfig p rate s) :=
  request_events fun s _ _ => by
    split
    · exact .refused ..
    · split
      · exact .refused ..
      · next still => exact .answer (.single (.rate (by simpa using still) _)) ..

theorem execOpenPass_completes (low high : BitVec 16) : Completes s (execOpenPass p low high s) :=
  request_events fun s _ _ => by
    split
    · exact .refused ..
    · next passed => exact .answer (.single (.openPass passed ..)) ..

theorem execClosePass_completes : Completes s (execClosePass p s) :=
  request_events fun s _ _ => by
    split
    · next port => exact .answer (.single (.closePass port)) ..
    · exact .refused ..

theorem queueCue_playback (c : Cue) (s : State) :
    (queueCue c s).playback =
      { s.playback with
        cues := (s.playback.cues ++ [c]).dropWhile fun c => decide (c.frame = s.timeline.counter) } :=
  arrivalScan_cues ..

theorem deeds_takeCues (l : List CueField) (taken : Nat) (s : State) (port : s.playback.passPort = some p) :
    Deeds p s (takeCues l taken s).2.2 := by
  induction l generalizing taken s with
  | nil => exact .refl
  | cons c rest ih =>
    unfold takeCues
    split
    · next passed read =>
      exact .head (.cue port read passed) (ih _ _ (by rw [queueCue_playback]; exact port))
    · exact .single (.stale s)
    · exact .refl
    · exact .refl

theorem execCue_completes (cues : List CueField) : Completes s (execCue p cues s) :=
  request_events fun s _ _ => by
    split
    · have d : Deeds p s (cueDone p cues s).2.2 := by
        unfold cueDone
        split
        · next port =>
          split
          · exact deeds_takeCues _ _ _ port
          · exact .refl
        · exact .refl
      exact .answer d ..
    · exact .refused ..

theorem takePort_of_passed {count : Byte} (h : takeFailure p count s = none) : s.writing.takePort = some p := by
  rw [takeFailure_eq] at h
  by_contra other
  rw [if_pos other] at h
  cases h

theorem execTake_completes (count : Byte) : Completes s (execTake p count s) :=
  request_events fun s _ _ => by
    split
    · exact .refused ..
    · next passed => exact .answer (.single (.take (takePort_of_passed passed) _)) ..

/-! ### Requests of the patch and of a port's own state -/

theorem execPatchSet_completes (first : Byte) (entries : List PatchField) :
    Completes s (execPatchSet p first entries s) :=
  request_events fun s _ _ => by
    split
    · split
      · exact .answer (.single (.patch ..)) ..
      · exact .refused ..
    · exact .refused ..

theorem deed_cleared (ha : (s.port p).attached = true) (set : BitVec 12) :
    Deed p s (s.modPort p (PortState.cleared set)) := by
  refine deed_modPort p (tended_of_fields ha rfl rfl rfl rfl rfl id fun h => ?_) rfl
  simp only [PortState.cleared]
  split <;> omega

theorem execWindowSet_completes (window enabled first last base viewOnly : Byte) :
    Completes s (execWindowSet p window enabled first last base viewOnly s) :=
  request_events fun s ha _ => by
    split
    · exact .answer (.single (deed_modPort p (tended_of_fields ha rfl rfl rfl rfl rfl id id) rfl)) ..
    · exact .refused ..

end Requests

end Sys2Proof.Machine

/-!
PROOFS. The events of every command, and the induction over them that carries a law from step to step.
-/
namespace Sys2Proof.Machine

/-! ### Commands -/

theorem completes_events {s t : State} (e : Events s t) : Completes s (.next t) := ⟨t, rfl, e⟩

/-- A request that changes nothing but its reply slot. -/
theorem request_answers {p : PortId} {f : State → State} {s : State}
    (served : ∀ t, Served p t (f t)) : Completes s (request p f s) := request_events fun t _ _ => served t

/-! ### Requests that read or write one field -/

section Requests
variable {p : PortId} {s : State}

theorem execNull_completes : Completes s (execNull p s) := request_answers fun _ => .silent .refl

theorem execReadRun_completes (start count : Byte) : Completes s (execReadRun p start count s) :=
  request_events fun _ ha _ => readSurfaces_served ha ..

theorem execReadNext_completes (count : Byte) : Completes s (execReadNext p count s) :=
  request_events fun _ ha _ => readSurfaces_served ha ..

theorem execReadCells_completes (kind number : Byte) : Completes s (execReadCells p kind number s) :=
  request_answers fun _ => answerRead_served ..

theorem execSetRamp_completes (length : BitVec 16) : Completes s (execSetRamp p length s) :=
  request_answers fun t => .answer (.single (.ramp _ t)) ..

theorem execBusRead_completes (first count : Byte) : Completes s (execBusRead p first count s) :=
  request_answers fun _ => answerRead_served ..

theorem execClearClip_completes (set : BitVec 32) : Completes s (execClearClip p set s) :=
  request_answers fun t => .answer (.single (.clips set t)) ..

theorem execMeterRead_completes : Completes s (execMeterRead p s) := request_answers fun _ => .refused ..

theorem execMeterConfig_completes (hold : Byte) : Completes s (execMeterConfig p hold s) :=
  request_answers fun t => .answer (.single (.meters _ t)) ..

theorem execTimelineRead_completes : Completes s (execTimelineRead p s) := request_answers fun _ => .refused ..

theorem execPassRead_completes : Completes s (execPassRead p s) := request_answers fun _ => .refused ..

theorem execPatchRead_completes (first count : Byte) : Completes s (execPatchRead p first count s) :=
  request_answers fun _ => answerRead_served ..

theorem execLaneRead_completes : Completes s (execLaneRead p s) := request_answers fun _ => .refused ..

theorem execStatus_completes : Completes s (execStatus p s) := request_answers fun _ => .refused ..

theorem execEnable_completes (set : BitVec 16) : Completes s (execEnable p set s) :=
  request_events fun _ ha _ =>
    .answer (.single (deed_modPort p (tended_of_fields ha rfl rfl rfl rfl rfl id id) rfl)) ..

theorem execClear_completes (set : BitVec 16) : Completes s (execClear p set s) :=
  request_events fun _ ha _ => .answer (.single (deed_cleared ha (reasonSet set))) ..

theorem execWindowRead_completes : Completes s (execWindowRead p s) := request_answers fun _ => .refused ..

end Requests

/-- Every request of a port completes. -/
theorem exec_completes_of_sender {i : Instr} {p : PortId} (h : i.sender = some p) (s : State) :
    Completes s (exec i s) := by
  cases i with
  | null => exact execNull_completes
  | move => exact execMove_completes ..
  | flags => exact execFlags_completes ..
  | setRoute => exact execSetRoute_completes ..
  | setStrip => exact execSetStrip_completes ..
  | setMode => exact execSetMode_completes ..
  | readRun => exact execReadRun_completes ..
  | readNext => exact execReadNext_completes ..
  | readCells => exact execReadCells_completes ..
  | setRamp => exact execSetRamp_completes ..
  | setBus => exact execSetBus_completes ..
  | setMaster => exact execSetMaster_completes ..
  | busRead => exact execBusRead_completes ..
  | clearClip => exact execClearClip_completes ..
  | meterRead => exact execMeterRead_completes
  | meterConfig => exact execMeterConfig_completes ..
  | claim => exact execClaim_completes ..
  | release => exact execRelease_completes ..
  | yield => exact execYield_completes ..
  | touch => exact execTouch_completes ..
  | untouch => exact execUntouch_completes ..
  | watchAdd => exact execWatchAdd_completes ..
  | watchRemove => exact execWatchRemove_completes ..
  | watchRead => exact execWatchRead_completes ..
  | signal => exact execSignal_completes ..
  | clearSignal => exact execClearSignal_completes ..
  | save => exact execSave_completes ..
  | recallStrip => exact execRecall_completes ..
  | lineConfig => exact execLineConfig_completes ..
  | locate => exact execLocate_completes ..
  | loopSet => exact execLoopSet_completes ..
  | timelineConfig => exact execTimelineConfig_completes ..
  | timelineRead => exact execTimelineRead_completes
  | openPass => exact execOpenPass_completes ..
  | closePass => exact execClosePass_completes ..
  | cue => exact execCue_completes ..
  | passRead => exact execPassRead_completes
  | take => exact execTake_completes ..
  | patchSet => exact execPatchSet_completes ..
  | patchRead => exact execPatchRead_completes ..
  | laneRead => exact execLaneRead_completes
  | status => exact execStatus_completes
  | enable => exact execEnable_completes ..
  | clear => exact execClear_completes ..
  | windowSet => exact execWindowSet_completes ..
  | windowRead => exact execWindowRead_completes
  | deviceReset | attach | detach | transactionBegin | frameRejected | samplePeriodReference | wclkEdge | wclkTimeout
  | missingEdge | syncLock | syncLoss | laneFrame | laneUp | engineSamplePeriod | cellSettle | meterTick | outputFrame
  | timelineSamplePeriod | lineChange | settleEnd | frameBoundary => cases h

/-- A frame is carried out as its request, and a command that is none comes from no frame. -/
theorem runRequest_eq (i : Instr) (s : State) : runRequest i s = if i.sender.isSome then exec i s else .next s := by
  cases i <;> rfl

theorem runRequest_completes (i : Instr) (s : State) : Completes s (runRequest i s) := by
  rw [runRequest_eq]
  cases h : i.sender with
  | none => exact completes_events .refl
  | some p => exact exec_completes_of_sender h s

theorem execFrameRejected_completes (p : PortId) (bits : List Bool) (s : State) :
    Completes s (execFrameRejected p bits s) := by
  unfold execFrameRejected
  dsimp only
  split
  · exact request_answers fun _ => .refused ..
  · exact request_answers fun _ => .refused ..
  · exact request_answers fun _ => .refused ..
  · exact runRequest_completes ..

theorem completes_event_if {s t : State} {c : Prop} [Decidable c] (h : c → Event s t) :
    Completes s (.next (if c then t else s)) := by
  split
  · next hc => exact completes_events (.single (h hc))
  · exact completes_events .refl

theorem completes_event_unless {s t : State} {c : Prop} [Decidable c] (h : ¬c → Event s t) :
    Completes s (.next (if c then s else t)) := by
  split
  · exact completes_events .refl
  · next hc => exact completes_events (.single (h hc))

/-- Every command completes by a chain of events. -/
theorem exec_completes (c : Instr) (s : State) : Completes s (exec c s) := by
  cases hs : c.sender with
  | some p => exact exec_completes_of_sender hs s
  | none =>
    cases c with
    | deviceReset rate present => exact completes_events (.single (.reset rate present s))
    | attach p => exact completes_event_unless fun h => .attach (by simpa using h)
    | detach p => exact completes_event_if fun h => .detach h
    | transactionBegin p => exact completes_events (.single (.ports rfl (tended_modPort (tended_selRises _))))
    | frameRejected p bits => exact execFrameRejected_completes p bits s
    | samplePeriodReference => exact completes_event_unless fun h => .audio (.start (by simpa using h))
    | wclkEdge elapsed => exact completes_events (.single (.audio (.edge elapsed)))
    | wclkTimeout => exact completes_event_unless fun h => .audio (.timeout (by simpa using h))
    | missingEdge => exact completes_event_if fun h => .audio (.missEdge h)
    | syncLock => exact completes_event_if fun _ => .audio .lock
    | syncLoss => exact completes_event_if fun _ => .audio .lose
    | laneFrame l good slots => exact completes_events (.single (.audio (.frame l good slots)))
    | laneUp l slots => exact completes_event_if fun h => .audio (.up h slots)
    | engineSamplePeriod => exact completes_events (.single (.engine s))
    | cellSettle k => exact completes_event_if fun _ => .engine s
    | meterTick => exact completes_event_if fun _ => .engine s
    | outputFrame => exact completes_events (.single (.frames s))
    | timelineSamplePeriod v => exact completes_events (.single (.timeline v s))
    | lineChange l v => exact completes_event_if fun _ => .timeline v s
    | settleEnd v => exact completes_event_if fun _ => .timeline v s
    | frameBoundary v => exact completes_event_if fun _ => .timeline v s
    | _ => cases hs

/-- A law of the state that no waiting command enters and that every event keeps, every step keeps. -/
theorem step_keeps {P : State → Prop} (queue : ∀ {s : State} (l : List Instr), P s → P { s with pending := l })
    (event : ∀ {s t : State}, P s → Event s t → P t) {s t : State} (hs : P s) (h : step s = .next t) : P t := by
  unfold step at h
  split at h
  · cases h; exact hs
  · next c rest _ =>
    obtain ⟨u, hu, events⟩ := exec_completes c { s with pending := rest }
    rw [hu] at h
    cases h
    exact events.head_induction_on (motive := fun a _ => P a → P t) id (fun e _ ih ha => ih (event ha e)) (queue rest hs)

end Sys2Proof.Machine

/-!
PROOFS. What the operations of the bus table, the timeline, the pass and a detach leave as it was, and the statements that
follow from it alone: every command completes and keeps the queue.
-/
namespace Sys2Proof.Machine

/-! ### Frames -/

/-- From `s` to `t` nothing changes but cells of strips. -/
def OnlyCells (s t : State) : Prop :=
  t = { s with engine := { s.engine with stripCells := t.engine.stripCells } }

theorem OnlyCells.refl (s : State) : OnlyCells s s := rfl

theorem OnlyCells.trans {s t u : State} (h : OnlyCells s t) (k : OnlyCells t u) : OnlyCells s u := by
  unfold OnlyCells at *
  rw [k, h]

theorem handRetarget_onlyCells (before : State) (n : StripNo) (s : State) : OnlyCells s (handRetarget before n s) :=
  handRetarget_eq before n s

theorem retargetStrip_onlyCells (n : StripNo) (s : State) : OnlyCells s (retargetStrip n s) := rfl

theorem handCut_onlyCells (before : State) (n : StripNo) (s : State) : OnlyCells s (handCut before n s) :=
  handCut_eq before n s

theorem handEvery_onlyCells (before s : State) : OnlyCells s (handEvery before s) :=
  eachStrip_keeps (P := OnlyCells s) (fun n t h => h.trans (handRetarget_onlyCells before n t)) (.refl s)

theorem retargetWhere_onlyCells (concerns : Dest → Bool) (s : State) : OnlyCells s (retargetWhere concerns s) := by
  refine eachStrip_keeps (P := OnlyCells s) (fun n t h => ?_) (.refl s)
  split
  · exact h.trans (retargetStrip_onlyCells n t)
  · exact h

theorem OnlyCells.strip {s t : State} (h : OnlyCells s t) (n : StripNo) : t.strip n = s.strip n := by rw [h]; rfl

theorem OnlyCells.port {s t : State} (h : OnlyCells s t) (p : PortId) : t.port p = s.port p := by rw [h]; rfl

theorem OnlyCells.bus {s t : State} (h : OnlyCells s t) (b : BusNo) : t.bus b = s.bus b := by rw [h]; rfl

theorem OnlyCells.engine {s t : State} (h : OnlyCells s t) :
    t.engine = { s.engine with stripCells := t.engine.stripCells } := by rw [h]

theorem OnlyCells.busTable {s t : State} (h : OnlyCells s t) : t.busTable = s.busTable := by rw [h]

theorem OnlyCells.timeline {s t : State} (h : OnlyCells s t) : t.timeline = s.timeline := by rw [h]

theorem OnlyCells.playback {s t : State} (h : OnlyCells s t) : t.playback = s.playback := by rw [h]

theorem OnlyCells.writing {s t : State} (h : OnlyCells s t) : t.writing = s.writing := by rw [h]

theorem OnlyCells.audio {s t : State} (h : OnlyCells s t) : t.audio = s.audio := by rw [h]

theorem OnlyCells.pending {s t : State} (h : OnlyCells s t) : t.pending = s.pending := by rw [h]

theorem OnlyCells.strips {s t : State} (h : OnlyCells s t) : t.strips = s.strips := by rw [h]

theorem OnlyCells.ports {s t : State} (h : OnlyCells s t) : t.ports = s.ports := by rw [h]

theorem OnlyCells.onlyStrips {s t : State} (h : OnlyCells s t) : OnlyStrips s t :=
  ⟨h.engine, by rw [h.writing], fun q => by rw [h.port q], h.busTable, h.timeline, h.playback, h.audio, h.pending⟩

/-- All that an accepted SET-BUS changes. -/
theorem applyBus_eq (b : BusNo) (c : BusChange) (s : State) :
    applyBus b c s =
      { s with
        busTable := writeBus b c s.busTable,
        engine := { s.engine with
          stripCells := (applyBus b c s).engine.stripCells, gainCells := (applyBus b c s).engine.gainCells } } := by
  unfold applyBus
  dsimp only
  split
  · rfl
  · generalize h : ({ s with busTable := writeBus b c s.busTable } : State) = u
    have hc := retargetWhere_onlyCells (feedsBus b) u
    generalize retargetWhere (feedsBus b) u = t at hc
    rw [hc, ← h]
    rfl

/-- All that an accepted SET-MASTER changes. -/
theorem applyMaster_eq (w : Nat) (s : State) :
    applyMaster w s =
      { s with
        busTable := { s.busTable with
          masterWidth := w, stemMeters := (applyMaster w s).busTable.stemMeters,
          masterMeters := (applyMaster w s).busTable.masterMeters },
        engine := { s.engine with stripCells := (applyMaster w s).engine.stripCells } } := by
  unfold applyMaster
  split
  · next h => subst h; rfl
  · dsimp only
    generalize h : ({ s with busTable := _ } : State) = u
    have hc := retargetWhere_onlyCells feedsStem u
    generalize retargetWhere feedsStem u = t at hc
    rw [hc, ← h]
    split <;> rfl

/-- What an event that may take records, apply cues and place the counter leaves as it was: the buses, the audio
interface, the engine but for strip cells, the take port, the pass and its marks, the waiting commands, and of every
port all but pending sets and watch lists. -/
structure OnlyRun (s t : State) : Prop where
  engine : t.engine = { s.engine with stripCells := t.engine.stripCells }
  takePort : t.writing.takePort = s.writing.takePort
  ports : ∀ q, t.port q = { s.port q with pendingSet := (t.port q).pendingSet, watches := (t.port q).watches }
  busTable : t.busTable = s.busTable
  playback : t.playback = { s.playback with cues := t.playback.cues, stale := t.playback.stale }
  audio : t.audio = s.audio
  pending : t.pending = s.pending

theorem OnlyRun.refl (s : State) : OnlyRun s s := ⟨rfl, rfl, fun _ => rfl, rfl, rfl, rfl, rfl⟩

theorem OnlyRun.trans {s t u : State} (h : OnlyRun s t) (k : OnlyRun t u) : OnlyRun s u where
  engine := by rw [k.engine, h.engine]
  takePort := k.takePort.trans h.takePort
  ports q := by rw [k.ports q, h.ports q]
  busTable := k.busTable.trans h.busTable
  playback := by rw [k.playback, h.playback]
  audio := k.audio.trans h.audio
  pending := k.pending.trans h.pending

theorem OnlyStrips.onlyRun {s t : State} (h : OnlyStrips s t) : OnlyRun s t :=
  ⟨h.engine, by rw [h.writing], h.ports, h.busTable, by rw [h.playback], h.audio, h.pending⟩

theorem OnlyAt.onlyRun {n : StripNo} {s t : State} (h : OnlyAt n s t) : OnlyRun s t := h.onlyStrips.onlyRun

theorem modTimeline_onlyRun (f : Timeline → Timeline) (s : State) : OnlyRun s (s.modTimeline f) :=
  ⟨rfl, rfl, fun _ => rfl, rfl, rfl, rfl, rfl⟩

theorem withCues_onlyRun (q : List Cue) (s : State) : OnlyRun s (s.withCues q) :=
  ⟨rfl, rfl, fun _ => rfl, rfl, rfl, rfl, rfl⟩

theorem countStale_onlyRun (s : State) : OnlyRun s (countStale s) := ⟨rfl, rfl, fun _ => rfl, rfl, rfl, rfl, rfl⟩

theorem raiseAtRole_onlyRun (r : Reason) (o : Option PortId) (s : State) : OnlyRun s (raiseAtRole r o s) :=
  (raiseAtRole_onlyAt 0 r o s).onlyRun

theorem raiseEverywhere_onlyRun (r : Reason) (s : State) : OnlyRun s (raiseEverywhere r s) :=
  ⟨rfl, rfl, fun q => by rw [raiseEverywhere, port_mapPorts, raised_eq], rfl, rfl, rfl, rfl⟩

theorem flushFromTimeline_onlyRun (s : State) : OnlyRun s (flushFromTimeline s) := by
  unfold flushFromTimeline
  dsimp only
  split
  · exact (withCues_onlyRun [] s).trans (raiseAtRole_onlyRun ..)
  · exact withCues_onlyRun [] s

theorem recount_onlyRun (reason : PunchReason) (s : State) : OnlyRun s (recount reason s) :=
  (modTimeline_onlyRun _ s).trans (recount_frame reason s).onlyRun

theorem locateTo_onlyRun (frame : Nat) (reason : PunchReason) (s : State) : OnlyRun s (locateTo frame reason s) :=
  ((modTimeline_onlyRun _ s).trans (flushFromTimeline_onlyRun _)).trans (recount_onlyRun ..)

theorem arrivalScan_onlyRun (q : List Cue) (s : State) : OnlyRun s (arrivalScan q s) := by
  induction q generalizing s with
  | nil => exact withCues_onlyRun [] s
  | cons c rest ih =>
    unfold arrivalScan
    split
    · exact (OnlyAt.applyCue c s).onlyRun.trans (ih _)
    · exact withCues_onlyRun _ s

theorem boundaryHeads_onlyRun (q : List Cue) (s : State) : OnlyRun s (boundaryHeads q s) := by
  induction q generalizing s with
  | nil => exact withCues_onlyRun [] s
  | cons c rest ih =>
    unfold boundaryHeads
    split
    · exact (countStale_onlyRun s).trans (ih _)
    · split
      · exact (OnlyAt.applyCue c s).onlyRun.trans (ih _)
      · exact withCues_onlyRun _ s

theorem boundaryScan_onlyRun (s : State) : OnlyRun s (boundaryScan s) := by
  unfold boundaryScan
  dsimp only
  split
  · exact (boundaryHeads_onlyRun _ s).trans (raiseAtRole_onlyRun ..)
  · exact boundaryHeads_onlyRun _ s

theorem boundary_onlyRun (s : State) : OnlyRun s (boundary s) := by
  unfold boundary
  split
  · exact (locateTo_onlyRun _ _ s).trans (raiseEverywhere_onlyRun ..)
  · exact (modTimeline_onlyRun _ s).trans (boundaryScan_onlyRun _)

theorem turn_onlyRun (s : State) : OnlyRun s (turn s) := (modTimeline_onlyRun _ s).trans (locateTo_onlyRun ..)

theorem advanceTimeline_onlyRun (s : State) : OnlyRun s (advanceTimeline s) := by
  unfold advanceTimeline
  split
  · exact (modTimeline_onlyRun _ s).trans (recount_onlyRun ..)
  · split
    · split
      · exact boundary_onlyRun s
      · exact modTimeline_onlyRun _ s
    · exact .refl s

theorem OnlyAt.punchLineStrip (before : State) (n : StripNo) (s : State) : OnlyAt n s (punchLineStrip before n s) := by
  unfold Machine.punchLineStrip
  split
  · exact .triggerChange _ n s
  · exact .refl n s

theorem handPunch_onlyRun (filtered : Bool) (s : State) : OnlyRun s (handPunch filtered s) :=
  (modTimeline_onlyRun _ s).trans (eachStrip_onlyStrips (fun n t => .punchLineStrip s n t) _).onlyRun

/-! #### The stages of the timeline's sample period (R98) -/

/-- The timeline's sample period as four stages after the lines are filtered. -/
def turnStage (v : LineLevels) (old : Timeline) (s : State) : State := if old.rev.changes v.rev then turn s else s

def rollStage (v : LineLevels) (old : Timeline) (s : State) : State :=
  if old.roll.changes v.roll then recount .rollStop s else s

def advanceStage (v : LineLevels) (old : Timeline) (s : State) : State :=
  if old.rev.changes v.rev then s else advanceTimeline s

def punchStage (v : LineLevels) (old : Timeline) (s : State) : State :=
  if old.punch.changes v.punch then handPunch (old.punch.sample v.punch).filtered s else s

theorem timelinePeriod_eq (v : LineLevels) (s : State) :
    timelinePeriod v s =
      punchStage v s.timeline (advanceStage v s.timeline (rollStage v s.timeline (turnStage v s.timeline
        (s.modTimeline (filterLines v))))) := rfl

theorem turnStage_onlyRun (v : LineLevels) (old : Timeline) (s : State) : OnlyRun s (turnStage v old s) := by
  unfold turnStage; split
  · exact turn_onlyRun s
  · exact .refl s

theorem rollStage_onlyRun (v : LineLevels) (old : Timeline) (s : State) : OnlyRun s (rollStage v old s) := by
  unfold rollStage; split
  · exact recount_onlyRun _ s
  · exact .refl s

theorem advanceStage_onlyRun (v : LineLevels) (old : Timeline) (s : State) : OnlyRun s (advanceStage v old s) := by
  unfold advanceStage; split
  · exact .refl s
  · exact advanceTimeline_onlyRun s

theorem punchStage_onlyRun (v : LineLevels) (old : Timeline) (s : State) : OnlyRun s (punchStage v old s) := by
  unfold punchStage; split
  · exact handPunch_onlyRun _ s
  · exact .refl s

theorem timelinePeriod_onlyRun (v : LineLevels) (s : State) : OnlyRun s (timelinePeriod v s) := by
  rw [timelinePeriod_eq]
  exact ((((modTimeline_onlyRun _ s).trans (turnStage_onlyRun ..)).trans (rollStage_onlyRun ..)).trans
    (advanceStage_onlyRun ..)).trans (punchStage_onlyRun ..)

/-! #### Opening and closing the pass, and a detach -/

theorem openPassBy_frame (p : PortId) (low high : Nat) (s : State) :
    OnlyStrips (passOpened p low high s) (openPassBy p low high s) := by
  rw [openPassBy_eq]
  exact (eachStrip_armStrip_onlyStrips _).trans (handEvery_onlyCells s _).onlyStrips

/-- The state in which every punch has ended and every armed strip gone to OFF, the pass not yet closed (R111). -/
def disarmed (s : State) : State := eachStrip disarmStrip (s.withCues [])

theorem closePassNow_disarmed (s : State) : closePassNow s = handEvery s (passClosed (disarmed s)) := by
  rw [closePassNow_eq, disarmed]

theorem disarmed_frame (s : State) : OnlyStrips (s.withCues []) (disarmed s) := eachStrip_disarmStrip_onlyStrips _

theorem closePassNow_onlyCells (s : State) : OnlyCells (passClosed (disarmed s)) (closePassNow s) := by
  rw [closePassNow_disarmed]
  exact handEvery_onlyCells s _

theorem settled_eq (w : Writing) : w.settled = { w with takePort := w.settled.takePort } := by
  unfold Writing.settled
  split <;> rfl

/-- What a close of the pass, or the loss of a role, leaves: the buses, the timeline, the audio interface, the engine
but for strip cells, and of every port all but pending sets and watch lists. -/
structure OnlyPass (s t : State) : Prop where
  engine : t.engine = { s.engine with stripCells := t.engine.stripCells }
  ports : ∀ q, t.port q = { s.port q with pendingSet := (t.port q).pendingSet, watches := (t.port q).watches }
  busTable : t.busTable = s.busTable
  timeline : t.timeline = s.timeline
  audio : t.audio = s.audio
  pending : t.pending = s.pending

theorem OnlyStrips.onlyPass {s t : State} (h : OnlyStrips s t) : OnlyPass s t :=
  ⟨h.engine, h.ports, h.busTable, h.timeline, h.audio, h.pending⟩

theorem OnlyPass.trans {s t u : State} (h : OnlyPass s t) (k : OnlyPass t u) : OnlyPass s u where
  engine := by rw [k.engine, h.engine]
  ports q := by rw [k.ports q, h.ports q]
  busTable := k.busTable.trans h.busTable
  timeline := k.timeline.trans h.timeline
  audio := k.audio.trans h.audio
  pending := k.pending.trans h.pending

theorem passClosed_onlyPass (s : State) : OnlyPass s (passClosed s) := ⟨rfl, fun _ => rfl, rfl, rfl, rfl, rfl⟩

theorem withCues_onlyPass (q : List Cue) (s : State) : OnlyPass s (s.withCues q) :=
  ⟨rfl, fun _ => rfl, rfl, rfl, rfl, rfl⟩

theorem passOpened_onlyPass (p : PortId) (low high : Nat) (s : State) : OnlyPass s (passOpened p low high s) :=
  ⟨rfl, fun _ => rfl, rfl, rfl, rfl, rfl⟩

theorem openPassBy_onlyPass (p : PortId) (low high : Nat) (s : State) : OnlyPass s (openPassBy p low high s) :=
  (passOpened_onlyPass ..).trans (openPassBy_frame ..).onlyPass

theorem closePassNow_onlyPass (s : State) : OnlyPass s (closePassNow s) :=
  (((withCues_onlyPass [] s).trans (disarmed_frame s).onlyPass).trans (passClosed_onlyPass _)).trans
    (closePassNow_onlyCells s).onlyStrips.onlyPass

theorem discardTakes_onlyPass (s : State) : OnlyPass s (discardTakes s) := ⟨rfl, fun _ => rfl, rfl, rfl, rfl, rfl⟩

theorem endRoles_onlyPass (p : PortId) (s : State) : OnlyPass s (endRoles p s) := by
  unfold endRoles
  split
  · exact (closePassNow_onlyPass s).trans (discardTakes_onlyPass _)
  · split
    · exact discardTakes_onlyPass s
    · exact ⟨rfl, fun _ => rfl, rfl, rfl, rfl, rfl⟩

/-- A touch of port `p` on strip `n` ends. -/
def liftTouch (p : PortId) (n : StripNo) (s : State) : State :=
  if (s.strip n).toucher = some p then changeToucher n none s else s

theorem releaseTouches_eq (p : PortId) (s : State) : releaseTouches p s = eachStrip (liftTouch p) s := rfl

theorem OnlyAt.liftTouch (p : PortId) (n : StripNo) (s : State) : OnlyAt n s (liftTouch p n s) := by
  unfold Machine.liftTouch
  split
  · exact .changeToucher n none s
  · exact .refl n s

theorem releaseTouches_onlyStrips (p : PortId) (s : State) : OnlyStrips s (releaseTouches p s) :=
  eachStrip_onlyStrips (fun n t => .liftTouch p n t) s

/-- Port `p` as a detach begins: detached, its reply and its transaction gone (R72). -/
def unplugged (p : PortId) (s : State) : State :=
  s.modPort p fun q =>
    { q with attached := false, replySlot := none, shiftOut := [], transaction := q.transaction.overtaken }

/-- The state in which a detach has ended the touches, the claims and the roles of port `p`. -/
def unhanded (p : PortId) (s : State) : State := endRoles p (releaseClaims p (releaseTouches p (unplugged p s)))

theorem detachPort_eq (p : PortId) (s : State) :
    detachPort p s =
      raiseElsewhere .detach p ((unhanded p s).modPort p fun q => PortState.fresh false q.transaction) := rfl

/-! ### The queue of commands -/

theorem withAudio_eq (a : Audio) (s : State) :
    withAudio a s = { s with audio := a, ports := (withAudio a s).ports } := by
  unfold withAudio
  dsimp only
  split <;> rfl

theorem releaseClaims_pending (p : PortId) (s : State) : (releaseClaims p s).pending = s.pending := rfl

theorem unplugged_pending (p : PortId) (s : State) : (unplugged p s).pending = s.pending := rfl

theorem unhanded_pending (p : PortId) (s : State) : (unhanded p s).pending = s.pending := by
  rw [unhanded, (endRoles_onlyPass ..).pending, releaseClaims_pending, (releaseTouches_onlyStrips ..).pending,
    unplugged_pending]

theorem setHolder_pending (h : Option PortId) (o : Object) (s : State) : (setHolder h o s).pending = s.pending := by
  cases o <;> rfl

theorem endTouch_strip (p : PortId) (n : StripNo) (s : State) : endTouch p (.strip n) s = liftTouch p n s := rfl

theorem endTouch_bus (p : PortId) (b : BusNo) (s : State) : endTouch p (.bus b) s = s := rfl

theorem endTouch_onlyStrips (p : PortId) (o : Object) (s : State) : OnlyStrips s (endTouch p o s) := by
  cases o with
  | strip n => exact (OnlyAt.liftTouch p n s).onlyStrips
  | bus b => exact .refl s

theorem recallApply_onlyAt (p : PortId) (k : Snapshot) (s : State) : OnlyAt k.strip s (recallApply p k s) := by
  unfold recallApply
  dsimp only
  split
  · exact .refl _ s
  · exact .commit p k.strip _ _ _ s

theorem OnlyAt.change (p : PortId) (n : StripNo) (r : Strip) (written : List FieldValue) (reported : Bool) (m : Mode)
    (s : State) : OnlyAt n s (Machine.handCut s n (Machine.changeMode n m (Machine.writeChange p n r written reported s))) :=
  ((OnlyAt.writeChange ..).trans (.changeMode ..)).trans (.handCut ..)

/-- A request changes neither the queue of commands nor, but for the patch, the audio interface. -/
theorem Deed.audio {p : PortId} {s t : State} (d : Deed p s t) :
    t.pending = s.pending ∧ t.audio = { s.audio with patch := t.audio.patch } := by
  have of_eq : t.pending = s.pending → t.audio = s.audio →
      t.pending = s.pending ∧ t.audio = { s.audio with patch := t.audio.patch } := fun h k => ⟨h, by rw [k]⟩
  cases d with
  | ports rest port transaction => rw [rest]; exact ⟨rfl, rfl⟩
  | @change n r _ revised written reported m =>
    have h := OnlyAt.change p n r written reported m s
    exact of_eq h.pending h.audio
  | mode n m => exact of_eq (OnlyAt.changeMode n m s).pending (OnlyAt.changeMode n m s).audio
  | putBack top passed => exact of_eq (recallApply_onlyAt ..).pending (recallApply_onlyAt ..).audio
  | bus passed gain => rw [applyBus_eq]; exact ⟨rfl, rfl⟩
  | master passed => rw [applyMaster_eq]; exact ⟨rfl, rfl⟩
  | @hold o => cases o <;> exact ⟨rfl, rfl⟩
  | unhold o => cases o <;> exact ⟨rfl, rfl⟩
  | @yield o q =>
    have h := endTouch_onlyStrips p o s
    cases o <;> exact of_eq h.pending h.audio
  | touch free => exact of_eq (OnlyAt.changeToucher _ _ s).pending (OnlyAt.changeToucher _ _ s).audio
  | untouch n => exact of_eq (OnlyAt.changeToucher n none s).pending (OnlyAt.changeToucher n none s).audio
  | locate range => exact of_eq (locateTo_onlyRun ..).pending (locateTo_onlyRun ..).audio
  | openPass passed low high => exact of_eq (openPassBy_onlyPass ..).pending (openPassBy_onlyPass ..).audio
  | closePass port => exact of_eq (closePassNow_onlyPass s).pending (closePassNow_onlyPass s).audio
  | cue port read passed => exact of_eq (arrivalScan_onlyRun ..).pending (arrivalScan_onlyRun ..).audio
  | save | ramp | clips | meters | line | loop | rate | stale | take | patch => exact ⟨rfl, rfl⟩

theorem Event.pending {s t : State} (e : Event s t) : t.pending = s.pending := by
  cases e with
  | ports rest port => rw [rest]
  | deed attached d => exact d.audio.1
  | detach attached => rw [detachPort_eq, raiseElsewhere_pending, modPort_pending, unhanded_pending]
  | audio turn => rw [withAudio_eq]
  | engine => rw [enginePeriod_eq]
  | timeline v => exact (timelinePeriod_onlyRun v s).pending
  | reset | attach | frames => rfl

/-- Settles O2: a command is a chain of events, and none of them touches the queue. -/
theorem everyCommandCompletesAndKeepsTheQueue : Obligations.EveryCommandCompletesAndKeepsTheQueue := by
  intro c s
  obtain ⟨t, ht, events⟩ := exec_completes c s
  refine ⟨t, ht, ?_⟩
  clear ht
  induction events with
  | refl => rfl
  | tail _ e ih => exact e.pending.trans ih

/-- Settles O1: the two branches of `step`. -/
theorem stepTakesTheFrontCommand : Obligations.StepTakesTheFrontCommand := by
  intro c rest s
  refine ⟨fun h => ?_, fun h => ?_⟩
  · rw [step, h]
  · rw [step, h]

end Sys2Proof.Machine

/-!
PROOFS. The laws of the lanes and of the timeline: every step keeps them (R92 to R106, R149 to R156).
-/
namespace Sys2Proof.Machine

/-! ### Lanes and the sync monitor -/

theorem slots_down (t : SlotNo) : Lane.down.slots[t] = 0 := by simp [Lane.down]

theorem lane_law_down (locked : Bool) (rate : SampleRate) : Lane.down.Law locked rate where
  sample_range t := by rw [slots_down]; omega
  free_down _ := rfl
  free_markers _ := rfl
  up_markers h := by cases h
  markers_range := by simp [Lane.down]
  down_silent _ := slots_down
  absent_silent t _ := slots_down t

theorem takenSlots_get (rate : SampleRate) (slots : Vector LaneSample 16) (t : SlotNo) :
    (takenSlots rate slots)[t] = if slotPresent rate t.val then slots[t].toInt else 0 := by
  simp [takenSlots]

theorem laneSample_range (x : LaneSample) : -8388608 ≤ x.toInt ∧ x.toInt ≤ 8388607 := by
  have low := BitVec.le_toInt x
  have high := BitVec.toInt_lt (x := x)
  norm_num at low high
  omega

/-- A lane that is UP with the slots of a frame, under a LOCKED monitor (R153, R154). -/
theorem lane_law_taken (rate : SampleRate) (slots : Vector LaneSample 16) {l : Lane} (up : l.up = true)
    (markers : l.markers = 0) (taken : l.slots = takenSlots rate slots) : l.Law true rate where
  sample_range t := by
    rw [taken, takenSlots_get]
    split
    · exact laneSample_range _
    · omega
  free_down h := by cases h
  free_markers h := by cases h
  up_markers _ := markers
  markers_range := by omega
  down_silent h := by rw [up] at h; cases h
  absent_silent t h := by rw [taken, takenSlots_get, h]; rfl

theorem lane_law_frame {locked : Bool} {rate : SampleRate} {l : Lane} (h : l.Law locked rate) (good : Bool)
    (slots : Vector LaneSample 16) : (Lane.frame locked good (takenSlots rate slots) l).Law locked rate := by
  unfold Lane.frame
  split
  · next up =>
    have hl : locked = true := by
      by_contra free
      exact absurd up (by simp [h.free_down (by simpa using free)])
    split
    · exact hl ▸ lane_law_taken rate slots up (h.up_markers up) rfl
    · exact lane_law_down ..
  · next down =>
    split
    · next hl =>
      split
      · split
        · exact hl ▸ lane_law_taken rate slots rfl rfl rfl
        · next few =>
          simp only [Config.upMarkers] at few
          exact { h with
            free_markers := fun free => by rw [hl] at free; cases free
            up_markers := fun up => absurd up down
            markers_range := by simp only; omega }
      · exact { h with
          free_markers := fun _ => rfl
          up_markers := fun _ => rfl
          markers_range := by simp only; omega }
    · exact h

/-- The lanes law speaks of the sync monitor, the rate and the lanes. -/
structure Audio.Law (a : Audio) : Prop where
  lock_range : a.lockCount ≤ 255
  missing_range : a.missing ≤ 3
  free_missing : a.locked = false → a.missing = 0
  locked_count : a.locked = true → a.lockCount = 0
  lanes : ∀ l : LaneNo, (a.lanes[l]).Law a.locked a.rate

theorem lanesLaw_iff (s : State) : s.LanesLaw ↔ s.audio.Law :=
  ⟨fun h => ⟨h.lock_range, h.missing_range, h.free_missing, h.locked_count, h.lanes⟩,
    fun h => ⟨h.lock_range, h.missing_range, h.free_missing, h.locked_count, h.lanes⟩⟩

theorem Lane.Law.lock {rate : SampleRate} {l : Lane} {locked : Bool} (h : l.Law locked rate) : l.Law true rate :=
  { h with
    free_down := fun h => by cases h
    free_markers := fun h => by cases h }

theorem audio_law_lock {a : Audio} (h : a.Law) : a.lock.startPeriod.Law where
  lock_range := Nat.zero_le _
  missing_range := Nat.zero_le _
  free_missing _ := rfl
  locked_count _ := rfl
  lanes l := (h.lanes l).lock

theorem audio_law_lose {a : Audio} : a.lose.Law where
  lock_range := Nat.zero_le _
  missing_range := Nat.zero_le _
  free_missing _ := rfl
  locked_count _ := rfl
  lanes l := by
    have : a.lose.lanes[l] = Lane.down := by simp [Audio.lose, Audio.startPeriod]
    rw [this]
    exact lane_law_down ..

theorem audio_law_startPeriod {a : Audio} (h : a.Law) : a.startPeriod.Law := ⟨h.1, h.2, h.3, h.4, h.5⟩

theorem audio_law_measure {a : Audio} (h : a.Law) (free : a.locked = false) (elapsed : Nat) :
    (a.measure elapsed).Law := by
  have noLock : ∀ {n : Nat}, a.locked = true → n = 0 := fun locked => by rw [free] at locked; cases locked
  unfold Audio.measure
  split
  · exact ⟨h.1, h.2, h.3, h.4, h.5⟩
  · split
    · split
      · exact audio_law_lock h
      · next few =>
        simp only [Config.lockPeriods] at few
        exact ⟨by simp only; omega, h.2, h.3, noLock, h.5⟩
    · exact ⟨by simp, h.2, h.3, noLock, h.5⟩

theorem audio_law_follow {a : Audio} (h : a.Law) (elapsed : Nat) : (a.follow elapsed).Law := by
  unfold Audio.follow
  split
  · exact ⟨h.1, by simp [Audio.startPeriod], fun _ => rfl, h.4, h.5⟩
  · exact h

theorem audio_law_edge {a : Audio} (h : a.Law) (elapsed : Nat) : (a.edge elapsed).Law := by
  unfold Audio.edge
  split
  · exact audio_law_follow h elapsed
  · next free => exact audio_law_measure h (by simpa using free) elapsed

theorem audio_law_timeout {a : Audio} (h : a.Law) : a.timeout.Law :=
  ⟨Nat.zero_le _, h.2, h.3, fun _ => rfl, h.5⟩

theorem audio_law_missEdge {a : Audio} (h : a.Law) (locked : a.locked = true) : a.missEdge.Law := by
  unfold Audio.missEdge
  split
  · exact audio_law_lose
  · next few =>
    simp only [Config.lossEdges] at few
    refine ⟨h.1, ?_, fun free => ?_, h.4, h.5⟩
    · simp only [Audio.startPeriod]; omega
    · simp only [Audio.startPeriod, locked] at free; cases free

theorem lane_modLane (a : Audio) (l k : LaneNo) (f : Lane → Lane) :
    (a.modLane l f).lanes[k] = if l = k then f a.lanes[k] else a.lanes[k] := upd_get ..

theorem audio_law_modLane {a : Audio} (h : a.Law) (l : LaneNo) {f : Lane → Lane}
    (hf : (f a.lanes[l]).Law a.locked a.rate) : (a.modLane l f).Law := by
  refine ⟨h.1, h.2, h.3, h.4, fun k => ?_⟩
  rw [lane_modLane]
  split
  · next e => exact e ▸ hf
  · exact h.lanes k

theorem audio_law_turn {a a' : Audio} (h : a.Law) (t : a.Turn a') : a'.Law := by
  cases t with
  | start free => exact audio_law_startPeriod h
  | edge elapsed => exact audio_law_edge h elapsed
  | timeout free => exact audio_law_timeout h
  | missEdge locked => exact audio_law_missEdge h locked
  | lock => exact audio_law_lock h
  | lose => exact audio_law_lose
  | frame l good slots => exact audio_law_modLane h l (lane_law_frame (h.lanes l) good slots)
  | @up l due slots =>
    have hl : a.locked = true := by
      simp only [Audio.upDue, Bool.and_eq_true] at due
      exact due.1.1
    exact audio_law_modLane h l (hl ▸ lane_law_taken a.rate slots rfl rfl rfl)

theorem audio_law_reset (rate : SampleRate) : (Audio.reset rate).Law where
  lock_range := Nat.zero_le _
  missing_range := Nat.zero_le _
  free_missing _ := rfl
  locked_count _ := rfl
  lanes l := by
    have : (Audio.reset rate).lanes[l] = Lane.down := by simp [Audio.reset]
    rw [this]
    exact lane_law_down ..

/-- A detach leaves the timeline, the audio interface and the engine but for cells. -/
theorem unhanded_onlyPass (p : PortId) (s : State) : OnlyPass (releaseClaims p (releaseTouches p (unplugged p s)))
    (unhanded p s) := endRoles_onlyPass ..

theorem releaseClaims_audio (p : PortId) (s : State) : (releaseClaims p s).audio = s.audio := rfl

theorem releaseClaims_timeline (p : PortId) (s : State) : (releaseClaims p s).timeline = s.timeline := rfl

theorem unplugged_audio (p : PortId) (s : State) : (unplugged p s).audio = s.audio := rfl

theorem unplugged_timeline (p : PortId) (s : State) : (unplugged p s).timeline = s.timeline := rfl

theorem detachPort_audio (p : PortId) (s : State) : (detachPort p s).audio = s.audio := by
  rw [detachPort_eq, raiseElsewhere_audio, modPort_audio, (unhanded_onlyPass p s).audio, releaseClaims_audio,
    (releaseTouches_onlyStrips ..).audio, unplugged_audio]

theorem detachPort_timeline (p : PortId) (s : State) : (detachPort p s).timeline = s.timeline := by
  rw [detachPort_eq, raiseElsewhere_timeline, modPort_timeline, (unhanded_onlyPass p s).timeline,
    releaseClaims_timeline, (releaseTouches_onlyStrips ..).timeline, unplugged_timeline]

theorem event_keeps_audioLaw {s t : State} (h : s.audio.Law) (e : Event s t) : t.audio.Law := by
  cases e with
  | ports rest port => rw [rest]; exact h
  | deed attached d => rw [d.audio.2]; exact ⟨h.1, h.2, h.3, h.4, h.5⟩
  | reset rate present => exact audio_law_reset rate
  | attach detached => exact h
  | detach attached => rw [detachPort_audio]; exact h
  | audio turn => rw [withAudio_eq]; exact audio_law_turn h turn
  | engine => rw [enginePeriod_eq]; exact ⟨h.1, h.2, h.3, h.4, h.5⟩
  | frames => exact ⟨h.1, h.2, h.3, h.4, h.5⟩
  | timeline v => rw [(timelinePeriod_onlyRun v s).audio]; exact h

/-- Settles O13: the law reads the audio interface, which requests change in the patch alone. -/
theorem stepKeepsLanesSilentUntilUp : Obligations.StepKeepsLanesSilentUntilUp := by
  intro s t law h
  refine (lanesLaw_iff t).mpr (step_keeps (P := fun s => s.audio.Law) (fun _ h => h) event_keeps_audioLaw ?_ h)
  exact (lanesLaw_iff s).mp law

/-! ### The timeline -/

/-- The timeline law but for the counting field, at a frame length of `spf` sample periods. -/
structure Timeline.Ranges (spf : Nat) (t : Timeline) : Prop where
  lines : ∀ l : Line, (t.line l).Law
  counter_range : t.counter ≤ 16777215
  loop_start_range : t.loopStart ≤ 16777215
  loop_end_range : t.loopEnd ≤ 16777215
  loop_order : t.loopEnabled = true → t.loopStart ≤ t.loopEnd
  phase_range : t.phase < spf
  settle_range : t.settle ≤ 8000
  direction : t.reverse = t.rev.filtered

/-- Counting follows filtered ROLL and the settle (R97). -/
def Timeline.Counts (t : Timeline) : Prop := t.counting = (t.roll.filtered && t.settle == 0)

/-- The timeline law as a law of the timeline and the sample rate. -/
def TimelineLawful (rate : SampleRate) (t : Timeline) : Prop := t.Ranges (samplesPerFrame rate t.rate) ∧ t.Counts

theorem timelineLaw_iff (s : State) : s.TimelineLaw ↔ TimelineLawful s.audio.rate s.timeline :=
  ⟨fun h => ⟨⟨h.lines, h.counter_range, h.loop_start_range, h.loop_end_range, h.loop_order, h.phase_range,
      h.settle_range, h.direction⟩, h.counting_iff⟩,
    fun ⟨h, c⟩ => ⟨h.lines, h.counter_range, h.loop_start_range, h.loop_end_range, h.loop_order, h.phase_range,
      h.settle_range, h.direction, c⟩⟩

theorem samplesPerFrame_range (rate : SampleRate) (fps : FrameRate) :
    0 < samplesPerFrame rate fps ∧ samplesPerFrame rate fps ≤ 4000 := by
  cases rate <;> cases fps <;> simp [samplesPerFrame]

theorem spf_pos (s : State) : 0 < s.spf := (samplesPerFrame_range ..).1

/-! #### What the timeline's operations make of the timeline -/

/-- The timeline with counting recomputed (R97). -/
def Timeline.recounted (t : Timeline) : Timeline := { t with counting := t.roll.filtered && t.settle == 0 }

theorem recounted_counts (t : Timeline) : t.recounted.Counts := rfl

theorem recount_timeline (reason : PunchReason) (s : State) : (recount reason s).timeline = s.timeline.recounted :=
  (recount_frame reason s).timeline

theorem flushFromTimeline_timeline (s : State) : (flushFromTimeline s).timeline = s.timeline := by
  rw [flushFromTimeline_eq]

/-- The timeline placed at a frame, with the settle of two frame periods that a locate starts (R102). -/
def Timeline.located (frame spf : Nat) (t : Timeline) : Timeline :=
  { t with counter := frame, phase := 0, settle := 2 * spf, counting := false }

theorem locateTo_timeline (frame : Nat) (reason : PunchReason) (s : State) :
    (locateTo frame reason s).timeline = s.timeline.located frame s.spf := by
  have settling : (2 * s.spf == 0) = false := by have := spf_pos s; simp; omega
  simp only [locateTo, recount_timeline, flushFromTimeline_timeline, modTimeline_timeline, Timeline.recounted,
    settling, Bool.and_false]
  rfl

theorem boundaryHeads_timeline (q : List Cue) (s : State) : (boundaryHeads q s).timeline = s.timeline := by
  induction q generalizing s with
  | nil => rfl
  | cons c rest ih =>
    unfold boundaryHeads
    split
    · exact ih _
    · split
      · exact (ih _).trans (OnlyAt.applyCue c s).timeline
      · rfl

theorem boundaryScan_timeline (s : State) : (boundaryScan s).timeline = s.timeline := by
  unfold boundaryScan
  dsimp only
  split
  · rw [raiseAtRole_eq]
    exact boundaryHeads_timeline ..
  · exact boundaryHeads_timeline ..

/-- The timeline after a frame boundary: a wrap to the loop start, or one frame on (R99, R100). -/
theorem boundary_timeline (s : State) :
    (boundary s).timeline =
      if s.timeline.wraps then s.timeline.located s.timeline.loopStart s.spf
      else { s.timeline with phase := 0, counter := nextFrame s.timeline.reverse s.timeline.counter } := by
  unfold boundary
  split
  · rw [raiseEverywhere_timeline, locateTo_timeline]
  · rw [boundaryScan_timeline, modTimeline_timeline]

/-- The timeline after step 4 of its sample period (R98). -/
theorem advanceTimeline_timeline (s : State) :
    (advanceTimeline s).timeline =
      if 0 < s.timeline.settle then Timeline.recounted { s.timeline with settle := s.timeline.settle - 1 }
      else if s.timeline.roll.filtered then
        if s.spf ≤ s.timeline.phase + 1 then (boundary s).timeline
        else { s.timeline with phase := s.timeline.phase + 1 }
      else s.timeline := by
  unfold advanceTimeline
  split
  · rw [recount_timeline, modTimeline_timeline]
  · split
    · split <;> rfl
    · rfl

theorem turn_timeline (s : State) :
    (turn s).timeline =
      Timeline.located s.timeline.counter s.spf { s.timeline with reverse := s.timeline.rev.filtered } := by
  rw [turn, locateTo_timeline]
  rfl

theorem eachStrip_punchLineStrip_timeline (before s : State) :
    (eachStrip (punchLineStrip before) s).timeline = s.timeline :=
  (eachStrip_onlyStrips (fun n t => .punchLineStrip before n t) s).timeline

theorem handPunch_timeline (filtered : Bool) (s : State) :
    (handPunch filtered s).timeline = { s.timeline with punch := { s.timeline.punch with filtered } } := by
  rw [handPunch, eachStrip_punchLineStrip_timeline]
  rfl

/-! #### The law along the stages of a sample period -/

theorem sample_law {l : LineRecord} (h : l.Law) (level : Bool) : (l.sample level).Law := by
  have filter := h.filter_range
  unfold LineRecord.sample
  split
  · exact ⟨filter, Nat.zero_le _, .inl rfl⟩
  · split
    · next few => exact ⟨filter, by simp only; omega, .inr few⟩
    · exact ⟨filter, Nat.zero_le _, .inl rfl⟩

theorem sample_filtered_of_steady {l : LineRecord} {level : Bool} (h : l.changes level = false) :
    (l.sample level).filtered = l.filtered := by simpa [LineRecord.changes] using h

theorem sample_filtered_of_change {l : LineRecord} {level : Bool} (h : l.changes level = true) :
    (l.sample level).filtered = !l.filtered := by
  simp only [LineRecord.changes, bne_iff_ne, ne_eq] at h
  cases hf : (l.sample level).filtered <;> cases hl : l.filtered <;> simp_all

theorem Timeline.Ranges.line {spf : Nat} {t : Timeline} (h : t.Ranges spf) (l : Line) : (t.line l).Law := h.lines l

theorem ranges_located {spf frame : Nat} {t : Timeline} (h : t.Ranges spf) (pos : 0 < spf) (most : spf ≤ 4000)
    (range : frame ≤ 16777215) : (t.located frame spf).Ranges spf :=
  ⟨fun l => by cases l <;> [exact h.lines .roll; exact h.lines .rev; exact h.lines .punch], range, h.loop_start_range,
    h.loop_end_range, h.loop_order, pos, by simp only [Timeline.located]; omega, h.direction⟩

theorem counts_located {frame spf : Nat} {t : Timeline} (pos : 0 < spf) : (t.located frame spf).Counts := by
  have settling : (2 * spf == 0) = false := by simp; omega
  simp [Timeline.Counts, Timeline.located, settling]

theorem ranges_recounted {spf : Nat} {t : Timeline} (h : t.Ranges spf) : t.recounted.Ranges spf :=
  ⟨fun l => by cases l <;> [exact h.lines .roll; exact h.lines .rev; exact h.lines .punch], h.2, h.3, h.4, h.5, h.6,
    h.7, h.8⟩

theorem nextFrame_range (reverse : Bool) {f : Nat} (h : f ≤ 16777215) : nextFrame reverse f ≤ 16777215 := by
  unfold nextFrame Config.maxFrame
  split <;> omega

end Sys2Proof.Machine

/-!
PROOFS. The timeline law along the stages of the timeline's sample period and under every request (R92 to R106).
-/
namespace Sys2Proof.Machine

/-! ### The timeline law, stage by stage -/

/-- The timeline law but for the counting field, at a state. -/
def State.TimelineRanges (s : State) : Prop := s.timeline.Ranges s.spf

theorem timelineLaw_iff_ranges (s : State) : s.TimelineLaw ↔ s.TimelineRanges ∧ s.timeline.Counts := timelineLaw_iff s

theorem spf_of_onlyRun {s t : State} (h : OnlyRun s t) (rate : t.timeline.rate = s.timeline.rate) : t.spf = s.spf := by
  rw [State.spf, State.spf, h.audio, rate]

theorem spf_le (s : State) : s.spf ≤ 4000 := (samplesPerFrame_range ..).2

theorem locateTo_ranges {frame : Nat} {s : State} (range : frame ≤ 16777215) (h : s.TimelineRanges)
    (reason : PunchReason) : (locateTo frame reason s).TimelineRanges := by
  rw [State.TimelineRanges, spf_of_onlyRun (locateTo_onlyRun ..) (by rw [locateTo_timeline]; rfl), locateTo_timeline]
  exact ranges_located h (spf_pos s) (spf_le s) range

theorem locateTo_counts (frame : Nat) (reason : PunchReason) (s : State) :
    (locateTo frame reason s).timeline.Counts := by
  rw [locateTo_timeline]
  exact counts_located (spf_pos s)

theorem recount_ranges {s : State} (h : s.TimelineRanges) (reason : PunchReason) :
    (recount reason s).TimelineRanges := by
  rw [State.TimelineRanges, spf_of_onlyRun (recount_onlyRun ..) (by rw [recount_timeline]; rfl), recount_timeline]
  exact ranges_recounted h

theorem recount_counts (reason : PunchReason) (s : State) : (recount reason s).timeline.Counts := by
  rw [recount_timeline]
  exact recounted_counts _

/-- A timeline that keeps its lines, its loop and its direction. -/
theorem ranges_of_placed {spf : Nat} {t t' : Timeline} (h : t.Ranges spf)
    (placed : t' = { t with counter := t'.counter, phase := t'.phase, settle := t'.settle })
    (counter : t'.counter ≤ 16777215) (phase : t'.phase < spf) (settle : t'.settle ≤ 8000) : t'.Ranges spf := by
  rw [placed]
  exact ⟨fun l => by cases l <;> [exact h.lines .roll; exact h.lines .rev; exact h.lines .punch], counter,
    h.loop_start_range, h.loop_end_range, h.loop_order, phase, settle, h.direction⟩

theorem filterLines_lines {t : Timeline} (h : ∀ l, (t.line l).Law) (v : LineLevels) (l : Line) :
    ((filterLines v t).line l).Law := by
  cases l with
  | roll => exact sample_law (h .roll) v.roll
  | rev => exact sample_law (h .rev) v.rev
  | punch => exact ⟨(sample_law (h .punch) v.punch).1, (sample_law (h .punch) v.punch).2,
      (sample_law (h .punch) v.punch).3⟩

/-- Once the lines are filtered and a changed REV has turned the direction, the timeline is in its ranges. -/
theorem turnStage_ranges {s : State} (h : s.TimelineRanges) (v : LineLevels) :
    (turnStage v s.timeline (s.modTimeline (filterLines v))).TimelineRanges := by
  have lines := filterLines_lines h.lines v
  unfold turnStage
  split
  · unfold turn
    refine locateTo_ranges h.counter_range ?_ _
    exact ⟨lines, h.counter_range, h.loop_start_range, h.loop_end_range, h.loop_order, h.phase_range, h.settle_range,
      rfl⟩
  · next steady =>
    refine ⟨lines, h.counter_range, h.loop_start_range, h.loop_end_range, h.loop_order, h.phase_range, h.settle_range,
      ?_⟩
    exact h.direction.trans (sample_filtered_of_steady (by simpa using steady)).symm

theorem rollStage_ranges {s : State} (h : s.TimelineRanges) (v : LineLevels) (old : Timeline) :
    (rollStage v old s).TimelineRanges := by
  unfold rollStage
  split
  · exact recount_ranges h _
  · exact h

/-- After steps 2 and 3 counting follows filtered ROLL and the settle. -/
theorem rollStage_counts {s : State} (h : s.timeline.Counts) (v : LineLevels) :
    (rollStage v s.timeline (turnStage v s.timeline (s.modTimeline (filterLines v)))).timeline.Counts := by
  unfold rollStage
  split
  · exact recount_counts ..
  · next still =>
    unfold turnStage
    split
    · exact locateTo_counts ..
    · have roll := sample_filtered_of_steady (l := s.timeline.roll) (by simpa using still)
      change s.timeline.counting = ((s.timeline.roll.sample v.roll).filtered && _)
      rw [roll]
      exact h

theorem boundary_ranges {s : State} (h : s.TimelineRanges) : (boundary s).TimelineRanges := by
  unfold boundary
  split
  · exact locateTo_ranges h.loop_start_range h _
  · have timeline := boundaryScan_timeline (s.modTimeline fun tl =>
      { tl with phase := 0, counter := nextFrame tl.reverse tl.counter })
    rw [State.TimelineRanges, spf_of_onlyRun (boundaryScan_onlyRun _) (by rw [timeline]), timeline]
    exact ranges_of_placed h rfl (nextFrame_range _ h.counter_range) (spf_pos s) h.settle_range

theorem boundary_counts {s : State} (counts : s.timeline.Counts) : (boundary s).timeline.Counts := by
  rw [boundary_timeline]
  split
  · exact counts_located (spf_pos s)
  · exact counts

theorem advanceTimeline_ranges {s : State} (h : s.TimelineRanges) : (advanceTimeline s).TimelineRanges := by
  unfold advanceTimeline
  split
  · refine recount_ranges ?_ _
    exact ranges_of_placed h rfl h.counter_range h.phase_range ((Nat.sub_le ..).trans h.settle_range)
  · split
    · split
      · exact boundary_ranges h
      · next few => exact ranges_of_placed h rfl h.counter_range (Nat.not_le.mp few) h.settle_range
    · exact h

theorem advanceTimeline_counts {s : State} (counts : s.timeline.Counts) : (advanceTimeline s).timeline.Counts := by
  unfold advanceTimeline
  split
  · exact recount_counts ..
  · split
    · split
      · exact boundary_counts counts
      · exact counts
    · exact counts

theorem handPunch_ranges {s : State} (h : s.TimelineRanges) (filtered : Bool) : (handPunch filtered s).TimelineRanges := by
  have timeline := handPunch_timeline filtered s
  rw [State.TimelineRanges, spf_of_onlyRun (handPunch_onlyRun ..) (by rw [timeline]), timeline]
  refine ⟨fun l => ?_, h.2, h.3, h.4, h.5, h.6, h.7, h.8⟩
  cases l with
  | roll => exact h.lines .roll
  | rev => exact h.lines .rev
  | punch => exact ⟨(h.lines .punch).1, (h.lines .punch).2, (h.lines .punch).3⟩

theorem handPunch_counts {s : State} (counts : s.timeline.Counts) (filtered : Bool) :
    (handPunch filtered s).timeline.Counts := by
  rw [handPunch_timeline]
  exact counts

theorem timelinePeriod_ranges {s : State} (h : s.TimelineRanges) (v : LineLevels) :
    (timelinePeriod v s).TimelineRanges := by
  have rolled := rollStage_ranges (turnStage_ranges h v) v s.timeline
  rw [timelinePeriod_eq]
  generalize rollStage v s.timeline _ = a at rolled ⊢
  have advanced : (advanceStage v s.timeline a).TimelineRanges := by
    unfold advanceStage
    split
    · exact rolled
    · exact advanceTimeline_ranges rolled
  unfold punchStage
  split
  · exact handPunch_ranges advanced _
  · exact advanced

theorem timelinePeriod_counts {s : State} (h : s.timeline.Counts) (v : LineLevels) :
    (timelinePeriod v s).timeline.Counts := by
  have rolled := rollStage_counts h v
  rw [timelinePeriod_eq]
  generalize rollStage v s.timeline _ = a at rolled ⊢
  have advanced : (advanceStage v s.timeline a).timeline.Counts := by
    unfold advanceStage
    split
    · exact rolled
    · exact advanceTimeline_counts rolled
  unfold punchStage
  split
  · exact handPunch_counts advanced _
  · exact advanced

theorem timelinePeriod_lawful {s : State} (h : s.TimelineLaw) (v : LineLevels) : (timelinePeriod v s).TimelineLaw := by
  obtain ⟨ranges, counts⟩ := (timelineLaw_iff_ranges s).mp h
  exact (timelineLaw_iff_ranges _).mpr ⟨timelinePeriod_ranges ranges v, timelinePeriod_counts counts v⟩

/-! ### The timeline law under requests and events -/

theorem timelineLaw_congr {s t : State} (h : s.TimelineLaw) (timeline : t.timeline = s.timeline)
    (rate : t.audio.rate = s.audio.rate) : t.TimelineLaw := by
  rw [timelineLaw_iff] at *
  rwa [timeline, rate]

theorem audio_turn_rate {a a' : Audio} (t : a.Turn a') : a'.rate = a.rate := by
  cases t with
  | edge elapsed =>
    unfold Audio.edge Audio.follow Audio.measure
    split
    · split <;> rfl
    · split
      · rfl
      · split
        · split <;> rfl
        · rfl
  | missEdge locked => unfold Audio.missEdge; split <;> rfl
  | start | timeout | lock | lose | frame | up => rfl

theorem line_setLine_cases (t : Timeline) (l k : Line) (r : LineRecord) :
    (t.setLine l r).line k = if l = k then r else t.line k := by cases l <;> cases k <;> rfl

/-- LINE-CONFIG writes polarity and filter length of a line, and its count starts again (R94). -/
theorem line_lawful {s : State} (h : s.TimelineLaw) (l : Line) (low : Bool) (filter : Byte) :
    (s.modTimeline fun tl => tl.setLine l ((tl.line l).configured low filter.toNat)).TimelineLaw := by
  have configured : ((s.timeline.line l).configured low filter.toNat).Law :=
    ⟨Nat.lt_succ_iff.mp filter.isLt, Nat.zero_le _, .inl rfl⟩
  have lines : ∀ k, ((s.timeline.setLine l ((s.timeline.line l).configured low filter.toNat)).line k).Law := by
    intro k
    rw [line_setLine_cases]
    split
    · exact configured
    · exact h.lines k
  cases l <;> exact ⟨lines, h.2, h.3, h.4, h.5, h.6, h.7, h.8, h.9⟩

theorem loop_lawful {s : State} (h : s.TimelineLaw) {start stop : BitVec 32} {enable : Byte} {on : Bool}
    (checked : loopChecked start stop enable = some on) :
    (s.modTimeline fun tl =>
      { tl with loopStart := start.toNat, loopEnd := stop.toNat, loopEnabled := on }).TimelineLaw := by
  unfold loopChecked at checked
  split at checked
  · cases checked
  · split at checked
    · cases checked
    · next flag pass =>
      cases checked
      simp only [Bool.or_eq_true, decide_eq_true_eq, Bool.and_eq_true, not_or, Nat.not_lt, not_and] at pass
      obtain ⟨⟨start_range, stop_range⟩, order⟩ := pass
      exact ⟨fun l => by cases l <;> [exact h.lines .roll; exact h.lines .rev; exact h.lines .punch], h.2,
        start_range, stop_range, order, h.6, h.7, h.8, h.9⟩

theorem rate_lawful {s : State} (h : s.TimelineLaw) (r : FrameRate) :
    (s.modTimeline fun tl => { tl with rate := r, phase := 0 }).TimelineLaw :=
  ⟨fun l => by cases l <;> [exact h.lines .roll; exact h.lines .rev; exact h.lines .punch], h.2, h.3, h.4, h.5,
    spf_pos _, h.7, h.8, h.9⟩

theorem queueCue_timeline (c : Cue) (s : State) : (queueCue c s).timeline = s.timeline :=
  (arrivalScan_frame (s.playback.cues ++ [c]) s).timeline

theorem setHolder_timeline (h : Option PortId) (o : Object) (s : State) : (setHolder h o s).timeline = s.timeline := by
  cases o <;> rfl

/-- A request leaves the timeline, or is one of the timeline's own. -/
theorem deed_keeps_timelineLaw {p : PortId} {s t : State} (h : s.TimelineLaw) (d : Deed p s t) : t.TimelineLaw := by
  have of_timeline : t.timeline = s.timeline → t.TimelineLaw := fun k =>
    timelineLaw_congr h k (by rw [d.audio.2])
  cases d with
  | ports rest port transaction => exact of_timeline (by rw [rest])
  | @change n r _ revised written reported m => exact of_timeline (OnlyAt.change p n r written reported m s).timeline
  | mode n m => exact of_timeline (OnlyAt.changeMode n m s).timeline
  | putBack top passed => exact of_timeline (recallApply_onlyAt ..).timeline
  | bus passed gain => exact of_timeline (by rw [applyBus_eq])
  | master passed => exact of_timeline (by rw [applyMaster_eq])
  | hold | unhold => exact of_timeline (setHolder_timeline ..)
  | @yield o q => exact of_timeline ((setHolder_timeline ..).trans (endTouch_onlyStrips p o s).timeline)
  | touch free => exact of_timeline (OnlyAt.changeToucher _ _ s).timeline
  | untouch n => exact of_timeline (OnlyAt.changeToucher n none s).timeline
  | line l low filter => exact line_lawful h l low filter
  | loop checked => exact loop_lawful h checked
  | rate still r => exact rate_lawful h r
  | locate range =>
    exact (timelineLaw_iff_ranges _).mpr ⟨locateTo_ranges range ((timelineLaw_iff_ranges s).mp h).1 _,
      locateTo_counts ..⟩
  | openPass passed low high => exact of_timeline (openPassBy_onlyPass ..).timeline
  | closePass port => exact of_timeline (closePassNow_onlyPass s).timeline
  | cue port read passed => exact of_timeline (queueCue_timeline ..)
  | save | ramp | clips | meters | stale | take | patch => exact of_timeline rfl

theorem timelineLaw_reset (rate : SampleRate) (ports : Vector PortState 4) :
    (State.afterReset rate ports).TimelineLaw where
  lines l := by cases l <;> exact ⟨(by decide : 32 ≤ 255), Nat.zero_le _, .inl rfl⟩
  counter_range := Nat.zero_le _
  loop_start_range := Nat.zero_le _
  loop_end_range := Nat.zero_le _
  loop_order h := by cases h
  phase_range := spf_pos _
  settle_range := Nat.zero_le _
  direction := rfl
  counting_iff := rfl

theorem event_keeps_timelineLaw {s t : State} (h : s.TimelineLaw) (e : Event s t) : t.TimelineLaw := by
  cases e with
  | ports rest port => exact timelineLaw_congr h (by rw [rest]) (by rw [rest])
  | deed attached d => exact deed_keeps_timelineLaw h d
  | reset rate present => exact timelineLaw_congr (timelineLaw_reset rate (Vector.ofFn fun p =>
      PortState.fresh present[p] (s.port p).transaction.overtaken)) rfl rfl
  | detach attached => exact timelineLaw_congr h (detachPort_timeline ..) (by rw [detachPort_audio])
  | audio turn => rw [withAudio_eq]; exact timelineLaw_congr h rfl (audio_turn_rate turn)
  | engine => rw [enginePeriod_eq]; exact timelineLaw_congr h rfl rfl
  | timeline v => exact timelinePeriod_lawful h v
  | attach | frames => exact timelineLaw_congr h rfl rfl

/-- Settles O10: every stage of the timeline's sample period and every request of the timeline keeps the law. -/
theorem stepKeepsTheTimelineLawful : Obligations.StepKeepsTheTimelineLawful := by
  intro s t law h
  exact step_keeps (fun _ h => timelineLaw_congr h rfl rfl) event_keeps_timelineLaw law h

end Sys2Proof.Machine

/-!
PROOFS. The laws of hands, ports, pans and cells along every operation: each operation is sound, which is that it keeps
these four laws. A record, a cue and a cell are judged each on its own.
-/
namespace Sys2Proof.Machine

/-! ### The laws, record by record -/

/-- The hands of a record, at ports of which these are ATTACHED (R74, R79). -/
structure Strip.HandsLaw (attached : PortId → Prop) (r : Strip) : Prop where
  holder : ∀ p, r.holder = some p → attached p
  toucher : ∀ p, r.toucher = some p → attached p
  same : ∀ p q, r.holder = some p → r.toucher = some q → q = p

/-- The pans and the route of a record under the widths of a bus table (R3, R5, R6). -/
structure Strip.PansLaw (t : BusTable) (r : Strip) : Prop where
  live : PanLawful r.pan
  fits : t.panFits r.dest r.pan = true
  sources : routeAllowed r.source r.dest = true
  shadow : ∀ l, r.shadowPan = some l → PanLawful l

/-- The values of a record that targets are formed from (R1). -/
structure Strip.ValuesLaw (r : Strip) : Prop where
  fader : r.fader ≤ 65535
  trim : r.trim ≤ 65535
  shadowFader : ∀ v, r.shadowFader = some v → v ≤ 65535
  weights : ∀ e ∈ r.pan, e.weight ≤ 16384
  shadowWeights : ∀ l, r.shadowPan = some l → ∀ e ∈ l, e.weight ≤ 16384

/-- A cued or carried pan has the shape of a pan list. -/
def Cue.PanLaw (c : Cue) : Prop := ∀ l, c.value = .pan l → PanLawful l

/-- A cued fader and the weights of a cued pan are in their ranges (R114). -/
structure Cue.ValueLaw (c : Cue) : Prop where
  fader : ∀ v, c.value = .fader v → v ≤ 65535
  weights : ∀ l, c.value = .pan l → ∀ e ∈ l, e.weight ≤ 16384

theorem handsLaw_iff (s : State) :
    s.HandsLaw ↔ (∀ n, (s.strip n).HandsLaw s.isAttached) ∧ ∀ b p, (s.bus b).holder = some p → s.isAttached p :=
  ⟨fun h => ⟨fun n => ⟨h.holder_attached n, h.toucher_attached n, h.toucher_is_holder n⟩, h.bus_holder_attached⟩,
    fun ⟨strips, buses⟩ => ⟨fun n => (strips n).holder, fun n => (strips n).toucher, fun n => (strips n).same, buses⟩⟩

theorem pansLaw_iff (s : State) :
    s.PansLaw ↔ (∀ n, (s.strip n).PansLaw s.busTable) ∧ (∀ c ∈ s.playback.cues, c.PanLaw) ∧
      ∀ p, ∀ k ∈ (s.port p).recallStack, PanLawful k.pan :=
  ⟨fun h => ⟨fun n => ⟨h.live_lawful n, h.live_fits n, h.sources n, h.shadow_lawful n⟩, h.cue_lawful,
      h.snapshot_lawful⟩,
    fun ⟨strips, cues, snapshots⟩ => ⟨fun n => (strips n).live, fun n => (strips n).fits, fun n => (strips n).sources,
      fun n => (strips n).shadow, cues, snapshots⟩⟩

theorem valuesLaw_iff (s : State) :
    s.ValuesLaw ↔ (∀ n, (s.strip n).ValuesLaw) ∧ (∀ b, (s.bus b).gain ≤ 65535) ∧
      (∀ c ∈ s.playback.cues, c.ValueLaw) ∧
      ∀ p, ∀ k ∈ (s.port p).recallStack, k.fader ≤ 65535 ∧ ∀ e ∈ k.pan, e.weight ≤ 16384 :=
  ⟨fun h => ⟨fun n => ⟨h.faders n, h.trims n, h.shadow_faders n, h.weights n, h.shadow_weights n⟩, h.gains,
      fun c hc => ⟨h.cue_faders c hc, h.cue_weights c hc⟩,
      fun p k hk => ⟨h.snapshot_faders p k hk, h.snapshot_weights p k hk⟩⟩,
    fun ⟨strips, gains, cues, snapshots⟩ => ⟨fun n => (strips n).fader, fun n => (strips n).trim,
      fun n => (strips n).shadowFader, gains, fun c hc => (cues c hc).fader, fun p k hk => (snapshots p k hk).1,
      fun n => (strips n).weights, fun n => (strips n).shadowWeights, fun c hc => (cues c hc).weights,
      fun p k hk => (snapshots p k hk).2⟩⟩

/-! ### Targets are in range -/

theorem weighted_range {f w : Nat} (hf : f ≤ 65535) (hw : w ≤ 16384) : weighted f w ≤ 65535 :=
  (weighted_le hw).trans hf

/-- Used values that a target may be formed from. -/
def Used.InRange (u : Used) : Prop := u.fader ≤ 65535 ∧ ∀ e ∈ u.pan, e.weight ≤ 16384

theorem targetOf_range {u : Used} (h : u.InRange) (width : Option Nat) (c : Channel) : targetOf u width c ≤ 65535 := by
  unfold targetOf
  split
  · exact Nat.zero_le _
  · split
    · exact Nat.zero_le _
    · split
      · exact Nat.zero_le _
      · split
        · exact Nat.zero_le _
        · next e found => exact weighted_range h.1 (h.2 e (List.mem_of_find?_eq_some found))

theorem Strip.ValuesLaw.live {r : Strip} (h : r.ValuesLaw) : r.live.InRange := ⟨h.fader, h.weights⟩

theorem Strip.ValuesLaw.shadowed {r : Strip} (h : r.ValuesLaw) : r.shadowed.InRange := by
  refine ⟨?_, ?_⟩
  · cases e : r.shadowFader with
    | none => simpa [Strip.shadowed, e] using h.fader
    | some v => simpa [Strip.shadowed, e] using h.shadowFader v e
  · cases e : r.shadowPan with
    | none => simpa [Strip.shadowed, e] using h.weights
    | some l => simpa [Strip.shadowed, e] using h.shadowWeights l e

theorem trimmed_range (base trim : Nat) : trimmed base trim ≤ 65535 := by unfold trimmed Config.max16; omega

/-- The used values of a record are its live values, its shadowed ones, or those with the trimmed fader. -/
theorem used_cases (passOpen : Bool) (r : Strip) :
    r.used passOpen = r.live ∨ r.used passOpen = r.shadowed ∨
      r.used passOpen = { r.shadowed with fader := trimmed r.shadowed.fader r.trim } := by
  unfold Strip.used
  split
  · exact .inl rfl
  · split
    · exact .inl rfl
    · exact .inr (.inl rfl)
    · split
      · exact .inl rfl
      · exact .inr (.inl rfl)
    · split
      · exact .inl rfl
      · exact .inr (.inl rfl)
    · split
      · exact .inl rfl
      · exact .inr (.inl rfl)
    · exact .inr (.inr rfl)

theorem Strip.ValuesLaw.used {r : Strip} (h : r.ValuesLaw) (passOpen : Bool) : (r.used passOpen).InRange := by
  rcases used_cases passOpen r with e | e | e <;> rw [e]
  · exact h.live
  · exact h.shadowed
  · exact ⟨trimmed_range _ _, h.shadowed.2⟩

theorem target_range {s : State} (h : s.ValuesLaw) (n : StripNo) (c : Channel) : s.target n c ≤ 65535 :=
  targetOf_range ((((valuesLaw_iff s).mp h).1 n).used _) _ c

theorem gainTarget_range {b : Bus} (h : b.gain ≤ 65535) : b.gainTarget ≤ 65535 := by
  unfold Bus.gainTarget
  split
  · exact Nat.zero_le _
  · exact h

/-! ### Cells on their ramps -/

theorem cell_law_retarget {c : Cell} (h : c.Law) {len t : Nat} (pos : 1 ≤ len) (most : len ≤ 1024) (ht : t ≤ 65535) :
    (c.retarget len t).Law := by
  unfold Cell.retarget
  split
  · exact h
  · exact ⟨h.current_range, ht, h.current_range, pos, most, Nat.zero_le _, min_le_left _ _, le_max_left _ _,
      fun settled => absurd settled (by simp only; omega)⟩

theorem cell_law_cut {c : Cell} (h : c.Law) {t : Nat} (ht : t ≤ 65535) : (c.cut t).Law :=
  ⟨ht, ht, ht, h.length_pos, h.length_range, le_refl _, min_le_left _ _, le_max_left _ _, fun _ => rfl⟩

theorem cell_law_advance {c : Cell} (h : c.Law) : c.advance.Law := by
  by_cases ramping : c.step < c.length
  · obtain ⟨above, below⟩ := advance_between ramping
    have start := h.start_range
    have target := h.target_range
    refine ⟨by simpa using start, by simpa using target, ?_, by simpa using h.length_pos,
      by simpa using h.length_range, ?_, by simpa using above, by simpa using below, fun settled => ?_⟩
    · omega
    · rw [advance_step ramping, advance_length]; exact ramping
    · rw [advance_step ramping, advance_length] at settled
      rw [advance_last settled, advance_target]
  · rw [advance_settled (Nat.not_lt.mp ramping)]
    exact h

theorem cell_law_settledAt {v : Nat} (h : v ≤ 65535) : (Cell.settledAt v).Law :=
  ⟨h, h, h, (by decide : 1 ≤ 64), (by decide : 64 ≤ 1024), le_refl _, min_le_left _ _, le_max_left _ _, fun _ => rfl⟩

/-! ### Sound changes -/

/-- From `s` to `t` the laws of ports, hands, pans and cells are kept. -/
structure Sound (s t : State) : Prop where
  port : ∀ q, (s.port q).Law → (t.port q).Law
  hands : s.HandsLaw → t.HandsLaw
  pans : s.PansLaw → t.PansLaw
  cells : s.CellsLaw → t.CellsLaw

theorem Sound.refl (s : State) : Sound s s := ⟨fun _ h => h, id, id, id⟩

theorem Sound.trans {s t u : State} (h : Sound s t) (k : Sound t u) : Sound s u :=
  ⟨fun q => k.port q ∘ h.port q, k.hands ∘ h.hands, k.pans ∘ h.pans, k.cells ∘ h.cells⟩

theorem strip_of_strips {s t : State} (h : t.strips = s.strips) (n : StripNo) : t.strip n = s.strip n := by
  rw [State.strip, State.strip, h]

theorem handsLaw_congr {s t : State} (strips : t.strips = s.strips)
    (holders : ∀ b, (t.bus b).holder = (s.bus b).holder) (attached : ∀ q, (t.port q).attached = (s.port q).attached)
    (h : s.HandsLaw) : t.HandsLaw := by
  have same : t.isAttached = s.isAttached := funext fun q => by rw [State.isAttached, State.isAttached, attached]
  rw [handsLaw_iff, same]
  refine ⟨fun n => ?_, fun b p => ?_⟩
  · rw [strip_of_strips strips]; exact ((handsLaw_iff s).mp h).1 n
  · rw [holders]; exact h.bus_holder_attached b p

theorem panFits_congr {a b : BusTable} (hp : a.premixWidth = b.premixWidth) (hm : a.masterWidth = b.masterWidth)
    (d : Dest) (l : List PanEntry) : a.panFits d l = b.panFits d l := by
  rw [BusTable.panFits, BusTable.panFits, destWidth_congr hp hm]

theorem strip_pansLaw_congr {a b : BusTable} (hp : a.premixWidth = b.premixWidth) (hm : a.masterWidth = b.masterWidth)
    {r : Strip} (h : r.PansLaw b) : r.PansLaw a :=
  ⟨h.live, by rw [panFits_congr hp hm]; exact h.fits, h.sources, h.shadow⟩

/-- What may become of the cues: each was queued, or is lawful. -/
def CuesFrom (s t : State) : Prop := ∀ c ∈ t.playback.cues, c ∈ s.playback.cues ∨ c.PanLaw ∧ c.ValueLaw

theorem cuesFrom_of_eq {s t : State} (h : t.playback.cues = s.playback.cues) : CuesFrom s t :=
  fun _ hc => .inl (h ▸ hc)

theorem pansLaw_congr {s t : State} (strips : t.strips = s.strips)
    (premix : t.busTable.premixWidth = s.busTable.premixWidth) (master : t.busTable.masterWidth = s.busTable.masterWidth)
    (cues : CuesFrom s t) (snapshots : ∀ q, ∀ k ∈ (t.port q).recallStack, k ∈ (s.port q).recallStack)
    (h : s.PansLaw) : t.PansLaw := by
  obtain ⟨hs, hc, hk⟩ := (pansLaw_iff s).mp h
  refine (pansLaw_iff t).mpr ⟨fun n => ?_, fun c c_in => ?_, fun q k k_in => hk q k (snapshots q k k_in)⟩
  · rw [strip_of_strips strips]; exact strip_pansLaw_congr premix master (hs n)
  · exact (cues c c_in).elim (hc c) And.left

theorem valuesLaw_congr {s t : State} (strips : t.strips = s.strips) (gains : ∀ b, (t.bus b).gain = (s.bus b).gain)
    (cues : CuesFrom s t) (snapshots : ∀ q, ∀ k ∈ (t.port q).recallStack, k ∈ (s.port q).recallStack)
    (h : s.ValuesLaw) : t.ValuesLaw := by
  obtain ⟨hs, hg, hc, hk⟩ := (valuesLaw_iff s).mp h
  refine (valuesLaw_iff t).mpr ⟨fun n => ?_, fun b => ?_, fun c c_in => ?_,
    fun q k k_in => hk q k (snapshots q k k_in)⟩
  · rw [strip_of_strips strips]; exact hs n
  · rw [gains]; exact hg b
  · exact (cues c c_in).elim (hc c) And.right

theorem cellsLaw_congr {s t : State} (values : s.ValuesLaw → t.ValuesLaw) (engine : t.engine = s.engine)
    (h : s.CellsLaw) : t.CellsLaw :=
  ⟨values h.values, engine ▸ h.ramp_pos, engine ▸ h.ramp_range,
    fun n c => by rw [State.cells, engine]; exact h.strip_cells n c,
    fun b => by rw [engine]; exact h.gain_cells b⟩

/-- A change of none of strips, engine and buses is sound where its ports are tended and its cues are from the queue. -/
theorem sound_rest {s t : State} (strips : t.strips = s.strips) (engine : t.engine = s.engine)
    (busTable : t.busTable = s.busTable) (cues : CuesFrom s t) (port : ∀ q, (s.port q).Tended (t.port q)) :
    Sound s t where
  port q := (port q).law
  hands := handsLaw_congr strips (fun b => by rw [State.bus, State.bus, busTable]) fun q => (port q).attached
  pans := pansLaw_congr strips (by rw [busTable]) (by rw [busTable]) cues fun q => (port q).snapshots
  cells := cellsLaw_congr (valuesLaw_congr strips (fun b => by rw [State.bus, State.bus, busTable]) cues
    fun q => (port q).snapshots) engine

theorem sound_ports {s t : State} (rest : t = { s with ports := t.ports }) (port : ∀ q, (s.port q).Tended (t.port q)) :
    Sound s t :=
  sound_rest (by rw [rest]) (by rw [rest]) (by rw [rest]) (cuesFrom_of_eq (by rw [rest])) port

/-- A change of the timeline, the writing block, the audio interface and the waiting commands. -/
theorem sound_of_blocks {s t : State} (rest : t = { s with
      timeline := t.timeline, writing := t.writing, audio := t.audio, pending := t.pending, playback := t.playback })
    (cues : CuesFrom s t) : Sound s t :=
  sound_rest (by rw [rest]) (by rw [rest]) (by rw [rest]) cues
    fun q => by rw [port_of_ports (u := t) (s := s) (by rw [rest])]; exact .refl _

theorem sound_modTimeline (f : Timeline → Timeline) (s : State) : Sound s (s.modTimeline f) :=
  sound_of_blocks rfl (cuesFrom_of_eq rfl)

theorem sound_withCues {s : State} {q : List Cue} (h : ∀ c ∈ q, c ∈ s.playback.cues ∨ c.PanLaw ∧ c.ValueLaw) :
    Sound s (s.withCues q) := sound_of_blocks rfl h

theorem sound_flushed (s : State) : Sound s (s.withCues []) := sound_withCues fun _ h => by cases h

/-- A record that may stand in place of that of strip `n`. -/
structure State.Fit (s : State) (r : Strip) : Prop where
  hands : s.HandsLaw → r.HandsLaw s.isAttached
  pans : s.PansLaw → r.PansLaw s.busTable
  values : s.ValuesLaw → r.ValuesLaw

section Replaced
variable {s : State} {r : Strip} (n : StripNo)

theorem forall_strip_setStrip {P : Strip → Prop} (all : ∀ m, P (s.strip m)) (new : P r) (m : StripNo) :
    P ((s.setStrip n r).strip m) := by
  by_cases e : m = n
  · subst e; rwa [strip_setStrip_self]
  · rw [strip_setStrip_ne s r e]; exact all m

theorem handsLaw_setStrip (law : s.HandsLaw) (new : r.HandsLaw s.isAttached) : (s.setStrip n r).HandsLaw :=
  (handsLaw_iff _).mpr ⟨forall_strip_setStrip n ((handsLaw_iff s).mp law).1 new, ((handsLaw_iff s).mp law).2⟩

theorem pansLaw_setStrip (law : s.PansLaw) (new : r.PansLaw s.busTable) : (s.setStrip n r).PansLaw :=
  (pansLaw_iff _).mpr ⟨forall_strip_setStrip n ((pansLaw_iff s).mp law).1 new, ((pansLaw_iff s).mp law).2⟩

theorem valuesLaw_setStrip (law : s.ValuesLaw) (new : r.ValuesLaw) : (s.setStrip n r).ValuesLaw :=
  (valuesLaw_iff _).mpr ⟨forall_strip_setStrip n ((valuesLaw_iff s).mp law).1 new, ((valuesLaw_iff s).mp law).2⟩

theorem cellsLaw_setStrip (law : s.CellsLaw) (new : r.ValuesLaw) : (s.setStrip n r).CellsLaw :=
  cellsLaw_congr (fun values => valuesLaw_setStrip n values new) rfl law

theorem sound_setStrip (h : s.Fit r) : Sound s (s.setStrip n r) :=
  ⟨fun _ law => law, fun law => handsLaw_setStrip n law (h.hands law), fun law => pansLaw_setStrip n law (h.pans law),
    fun law => cellsLaw_setStrip n law (h.values law.values)⟩

end Replaced

/-- A record made from that of strip `n` by a change that keeps hands, pans and values. -/
theorem fit_of_record {s : State} {n : StripNo} {r : Strip}
    (hands : (s.strip n).HandsLaw s.isAttached → r.HandsLaw s.isAttached)
    (pans : (s.strip n).PansLaw s.busTable → r.PansLaw s.busTable)
    (values : (s.strip n).ValuesLaw → r.ValuesLaw) : s.Fit r :=
  ⟨fun h => hands (((handsLaw_iff s).mp h).1 n), fun h => pans (((pansLaw_iff s).mp h).1 n),
    fun h => values (((valuesLaw_iff s).mp h).1 n)⟩

theorem sound_modStrip {s : State} {n : StripNo} {f : Strip → Strip} (h : s.Fit (f (s.strip n))) :
    Sound s (s.modStrip n f) := by
  have same : s.modStrip n f = s.setStrip n (f (s.strip n)) := rfl
  rw [same]
  exact sound_setStrip n h

/-! #### Cells -/

theorem OnlyCells.handsLaw {s t : State} (h : OnlyCells s t) : s.HandsLaw → t.HandsLaw :=
  handsLaw_congr h.strips (fun b => by rw [h.bus b]) fun q => by rw [h.port q]

theorem OnlyCells.pansLaw {s t : State} (h : OnlyCells s t) : s.PansLaw → t.PansLaw :=
  pansLaw_congr h.strips (by rw [h.busTable]) (by rw [h.busTable]) (cuesFrom_of_eq (by rw [h.playback]))
    fun q k hk => by rwa [h.port q] at hk

/-- A change of strip cells alone is sound where it keeps the cells law. -/
theorem sound_onlyCells {s t : State} (h : OnlyCells s t) (cells : s.CellsLaw → t.CellsLaw) : Sound s t :=
  ⟨fun q law => by rwa [h.port q], h.handsLaw, h.pansLaw, cells⟩

theorem OnlyCells.valuesLaw {s t : State} (h : OnlyCells s t) : s.ValuesLaw → t.ValuesLaw :=
  valuesLaw_congr h.strips (fun b => by rw [h.bus b]) (cuesFrom_of_eq (by rw [h.playback]))
    fun q k hk => by rwa [h.port q] at hk

theorem OnlyCells.cellsLaw {s t : State} (h : OnlyCells s t) (law : s.CellsLaw)
    (cells : ∀ (m : StripNo) (c : Channel), ((t.cells m)[c]).Law) : t.CellsLaw :=
  ⟨h.valuesLaw law.values, by rw [h.engine]; exact law.ramp_pos, by rw [h.engine]; exact law.ramp_range, cells,
    fun b => by rw [h.engine]; exact law.gain_cells b⟩

theorem sound_retargetStrip (n : StripNo) (s : State) : Sound s (retargetStrip n s) := by
  have only := retargetStrip_onlyCells n s
  refine sound_onlyCells only fun law => only.cellsLaw law fun m c => ?_
  rw [cells_retargetStrip]
  split
  · exact cell_law_retarget (law.strip_cells m c) law.ramp_pos law.ramp_range (target_range law.values m c)
  · exact law.strip_cells m c

theorem sound_handRetarget (before : State) (n : StripNo) (s : State) : Sound s (handRetarget before n s) := by
  rcases handRetarget_cases before n s with ⟨-, h⟩ | ⟨-, h⟩ <;> rw [h]
  · exact .refl s
  · exact sound_retargetStrip n s

/-- The end of a request: the cells that are cut are those that stood before it. -/
theorem cellsLaw_handCut {s t : State} (before : s.CellsLaw) (after : t.CellsLaw) (n : StripNo) :
    (handCut s n t).CellsLaw := by
  refine (handCut_onlyCells s n t).cellsLaw after fun m c => ?_
  rcases handCut_cases s n t with ⟨-, e⟩ | ⟨-, e⟩ <;> rw [e]
  · rw [cells_cutStrip]
    split
    · exact cell_law_cut (before.strip_cells n c) (target_range after.values m c)
    · exact after.strip_cells m c
  · exact after.strip_cells m c

theorem sound_handCut {s t : State} (h : Sound s t) (n : StripNo) : Sound s (handCut s n t) := by
  have only := handCut_onlyCells s n t
  exact ⟨fun q law => only.port q ▸ h.port q law, only.handsLaw ∘ h.hands, only.pansLaw ∘ h.pans,
    fun law => cellsLaw_handCut law (h.cells law) n⟩

theorem eachStrip_sound {f : StripNo → State → State} (h : ∀ n t, Sound t (f n t)) (s : State) :
    Sound s (eachStrip f s) :=
  eachStrip_keeps (P := Sound s) (fun n t ht => ht.trans (h n t)) (.refl s)

theorem sound_handEvery (before s : State) : Sound s (handEvery before s) :=
  eachStrip_sound (fun n t => sound_handRetarget before n t) s

theorem sound_retargetWhere (concerns : Dest → Bool) (s : State) : Sound s (retargetWhere concerns s) := by
  refine eachStrip_sound (fun n t => ?_) s
  split
  · exact sound_retargetStrip n t
  · exact .refl t

/-! ### The writing block -/

theorem sound_raiseAtRole (r : Reason) (o : Option PortId) (s : State) : Sound s (raiseAtRole r o s) := by
  refine sound_ports (raiseAtRole_eq r o s) fun q => ?_
  rw [raiseAtRole_port]
  split
  · exact tended_raised r _
  · exact .refl _

theorem sound_raiseEverywhere (r : Reason) (s : State) : Sound s (raiseEverywhere r s) :=
  sound_ports rfl fun q => by rw [raiseEverywhere, port_mapPorts]; exact tended_raised r _

theorem sound_report (p : PortId) (n : StripNo) (s : State) : Sound s (report p n s) := by
  refine sound_ports rfl fun q => ?_
  rw [report, port_mapPorts]
  split
  · exact .refl _
  · exact tended_reported p n _

theorem sound_appendTake (r : TakeRecord) (s : State) : Sound s (appendTake r s) := by
  have writing : ∀ w, Sound s { s with writing := w } := fun w => sound_of_blocks rfl (cuesFrom_of_eq rfl)
  rcases Nat.lt_or_ge s.writing.takes.length 1024 with h | h
  · rw [appendTake_room h]
    split
    · exact (writing _).trans (sound_raiseAtRole ..)
    · exact writing _
  · rw [appendTake_full h]
    exact (writing _).trans (sound_raiseAtRole ..)

theorem sound_recordMoves (p : PortId) (n : StripNo) (l : List FieldValue) (s : State) :
    Sound s (recordMoves p n l s) := by
  unfold recordMoves
  induction l generalizing s with
  | nil => exact .refl s
  | cons v rest ih => exact (sound_appendTake _ s).trans (ih _)

theorem sound_setWriteState (n : StripNo) (w : WriteState) (s : State) : Sound s (setWriteState n w s) :=
  sound_modStrip (fit_of_record (n := n) (fun h => ⟨h.1, h.2, h.3⟩) (fun h => ⟨h.1, h.2, h.3, h.4⟩)
    fun h => ⟨h.1, h.2, h.3, h.4, h.5⟩)

/-- The pan that a punch-in loads is a pan list that fits (R6, R136). -/
theorem loadedPan_lawful {live used : List PanEntry} (hl : PanLawful live) (hu : PanLawful used) (width : Option Nat) :
    PanLawful (loadedPan width live used) := by
  unfold loadedPan
  split
  · exact hu
  · dsimp only
    split
    · exact hl
    · next some_kept =>
      obtain ⟨pos, most, distinct⟩ := (panShaped_iff _).mp hu.shaped
      refine ⟨(panShaped_iff _).mpr ⟨?_, (List.length_filter_le ..).trans most, ?_⟩, fun e he => ?_⟩
      · simpa [List.length_pos_iff, List.isEmpty_iff, Nat.one_le_iff_ne_zero] using some_kept
      · exact distinct.sublist (List.filter_sublist.map _)
      · exact hu.weights e (List.mem_of_mem_filter he)

theorem loadedPan_fits {t : BusTable} {d : Dest} {live : List PanEntry} (hl : t.panFits d live = true)
    (used : List PanEntry) : t.panFits d (loadedPan (t.destWidth d) live used) = true := by
  unfold BusTable.panFits at *
  cases e : t.destWidth d with
  | none => rfl
  | some w =>
    rw [e] at hl
    simp only [loadedPan]
    split
    · exact hl
    · simp [List.all_filter]

theorem loadedPan_weights {width : Option Nat} {live used : List PanEntry} (hl : ∀ e ∈ live, e.weight ≤ 16384)
    (hu : ∀ e ∈ used, e.weight ≤ 16384) : ∀ e ∈ loadedPan width live used, e.weight ≤ 16384 := by
  unfold loadedPan
  split
  · exact hu
  · dsimp only
    split
    · exact hl
    · exact fun e he => hu e (List.mem_of_mem_filter he)

theorem Strip.PansLaw.used {t : BusTable} {r : Strip} (h : r.PansLaw t) (passOpen : Bool) :
    PanLawful (r.used passOpen).pan := by
  have shadowed : PanLawful r.shadowed.pan := by
    cases e : r.shadowPan with
    | none => simpa [Strip.shadowed, e] using h.live
    | some l => simpa [Strip.shadowed, e] using h.shadow l e
  rcases used_cases passOpen r with e | e | e <;> rw [e]
  · exact h.live
  · exact shadowed
  · exact shadowed

/-- The record that a punch-in loads may stand (R136). -/
theorem fit_loaded (s : State) (n : StripNo) : s.Fit (s.loaded n) :=
  fit_of_record (n := n) (fun h => ⟨h.1, h.2, h.3⟩)
    (fun h => ⟨loadedPan_lawful h.live (h.used _) _, loadedPan_fits h.fits _, h.sources, h.shadow⟩)
    fun h => ⟨(h.used _).1, h.trim, h.shadowFader, loadedPan_weights h.weights (h.used _).2, h.shadowWeights⟩

theorem sound_punchIn (n : StripNo) (s : State) : Sound s (punchIn n s) :=
  ((sound_setStrip n (fit_loaded s n)).trans (sound_appendTake ..)).trans (sound_handRetarget ..)

theorem sound_endPunch (reason : PunchReason) (mode : Mode) (n : StripNo) (w : WriteState) (s : State) :
    Sound s (endPunch reason mode n w s) := by
  refine (sound_appendTake _ s).trans (sound_modStrip ?_)
  refine fit_of_record (n := n) (fun h => ⟨h.1, h.2, h.3⟩) (fun h => ⟨h.1, h.2, h.3, h.4⟩) fun h => ⟨h.1, ?_, h.3, h.4, h.5⟩
  simp only [Config.unity]
  split
  · omega
  · exact h.trim

theorem sound_punchOut (reason : PunchReason) (n : StripNo) (w : WriteState) (s : State) :
    Sound s (punchOut reason n w s) := (sound_endPunch ..).trans (sound_handRetarget ..)

theorem sound_triggerRise (n : StripNo) (s : State) : Sound s (triggerRise n s) := by
  unfold triggerRise
  split
  · split
    · exact sound_punchIn n s
    · exact sound_setWriteState n _ s
  · split
    · exact sound_setWriteState n _ s
    · exact .refl s
  all_goals exact .refl s

theorem sound_triggerFall (n : StripNo) (s : State) : Sound s (triggerFall n s) := by
  unfold triggerFall
  split
  · exact sound_setWriteState n _ s
  · exact sound_punchOut _ n _ s
  · exact sound_punchOut _ n _ s
  · exact sound_setWriteState n _ s
  · exact .refl s

theorem sound_triggerChange (before : State) (n : StripNo) (s : State) : Sound s (triggerChange before n s) := by
  unfold triggerChange
  split
  · split
    · exact sound_triggerRise n s
    · exact sound_triggerFall n s
  · exact .refl s

theorem sound_fallStrip (reason : PunchReason) (n : StripNo) (s : State) : Sound s (fallStrip reason n s) := by
  unfold fallStrip
  split
  · split
    · exact sound_punchOut _ n _ s
    · exact sound_punchOut _ n _ s
    · split
      · exact sound_setWriteState n _ s
      · exact .refl s
    all_goals exact .refl s
  · exact .refl s

theorem sound_riseStrip (n : StripNo) (s : State) : Sound s (riseStrip n s) := by
  unfold riseStrip
  split
  · exact sound_punchIn n s
  · exact .refl s

theorem sound_changeMode (n : StripNo) (m : Mode) (s : State) : Sound s (changeMode n m s) := by
  have moded : Sound s (s.modStrip n fun r => { r with mode := m }) :=
    sound_modStrip (fit_of_record (n := n) (fun h => ⟨h.1, h.2, h.3⟩) (fun h => ⟨h.1, h.2, h.3, h.4⟩)
      fun h => ⟨h.1, h.2, h.3, h.4, h.5⟩)
  unfold changeMode
  dsimp only
  split
  · exact .refl s
  · refine Sound.trans ?_ (sound_handRetarget ..)
    split
    · exact moded.trans (sound_endPunch ..)
    · exact moded.trans (sound_setWriteState ..)

/-- An accepted change of a record may stand. -/
theorem fit_of_revised {s : State} {n : StripNo} {r : Strip} (h : (s.strip n).Revised s.busTable r) : s.Fit r := by
  have shadowFader : r.shadowFader = (s.strip n).shadowFader := by rw [h.setting]
  have shadowPan : r.shadowPan = (s.strip n).shadowPan := by rw [h.setting]
  have holder : r.holder = (s.strip n).holder := by rw [h.setting]
  have toucher : r.toucher = (s.strip n).toucher := by rw [h.setting]
  refine fit_of_record (n := n) (fun law => ?_) (fun law => ?_) fun law => ?_
  · exact ⟨holder ▸ law.1, toucher ▸ law.2, by rw [holder, toucher]; exact law.3⟩
  · exact ⟨h.lawful law.live, h.fits law.fits, h.sources law.sources, shadowPan ▸ law.shadow⟩
  · refine ⟨h.fader law.fader, ?_, shadowFader ▸ law.shadowFader, h.weights law.weights, shadowPan ▸ law.shadowWeights⟩
    rcases h.trim with same | ⟨-, -, range⟩
    · exact same ▸ law.trim
    · exact range

/-- What follows the writing of a record. -/
theorem sound_changed (p : PortId) (n : StripNo) (r : Strip) (written : List FieldValue) (reported : Bool) (s : State) :
    Sound (s.setStrip n r) (changed p n r written reported s) := by
  have retargeted : Sound (s.setStrip n r) (handRetarget s n (s.setStrip n r)) := sound_handRetarget ..
  have recorded : Sound (s.setStrip n r) (if (s.strip n).writeState.punched then
      recordMoves p n written (handRetarget s n (s.setStrip n r)) else handRetarget s n (s.setStrip n r)) := by
    split
    · exact retargeted.trans (sound_recordMoves ..)
    · exact retargeted
  unfold changed
  dsimp only
  split
  · exact recorded.trans (sound_report ..)
  · exact recorded

theorem sound_writeChange (p : PortId) (n : StripNo) (r : Strip) (written : List FieldValue) (reported : Bool)
    (s : State) : Sound (s.setStrip n r) (writeChange p n r written reported s) :=
  (sound_changed p n r written reported s).trans (sound_triggerChange ..)

/-- The toucher of a strip becomes none, or a port that may touch it (R79, R80). -/
theorem sound_changeToucher {n : StripNo} {t : Option PortId} {s : State}
    (hand : ∀ p, t = some p → s.isAttached p ∧ ((s.strip n).holder = none ∨ (s.strip n).holder = some p)) :
    Sound s (changeToucher n t s) := by
  refine Sound.trans (sound_modStrip (fit_of_record (n := n) (fun h => ?_) (fun h => ⟨h.1, h.2, h.3, h.4⟩)
    fun h => ⟨h.1, h.2, h.3, h.4, h.5⟩)) (sound_triggerChange ..)
  refine ⟨h.1, fun p hp => (hand p hp).1, fun p q hp hq => ?_⟩
  rcases (hand q hq).2 with e | e
  · rw [e] at hp; cases hp
  · exact (Option.some.inj (hp.symm.trans e)).symm

theorem sound_untouch (n : StripNo) (s : State) : Sound s (changeToucher n none s) :=
  sound_changeToucher fun _ h => by cases h

theorem sound_liftTouch (p : PortId) (n : StripNo) (s : State) : Sound s (liftTouch p n s) := by
  unfold liftTouch
  split
  · exact sound_untouch n s
  · exact .refl s

/-! ### Playback and the timeline -/

/-- The record that a cue makes may stand where the cue is lawful. -/
theorem fit_setShadow {s : State} {c : Cue} (pans : s.PansLaw → c.PanLaw) (values : s.ValuesLaw → c.ValueLaw) :
    s.Fit ((s.strip c.strip).setShadow c.value) := by
  refine ⟨fun law => ?_, fun law => ?_, fun law => ?_⟩
  · have h := ((handsLaw_iff s).mp law).1 c.strip
    cases c.value <;> exact ⟨h.1, h.2, h.3⟩
  · have h := ((pansLaw_iff s).mp law).1 c.strip
    have cue := pans law
    cases e : c.value with
    | pan l => exact ⟨h.live, h.fits, h.sources, fun l' hl' => cue l' (by rw [e]; cases hl'; rfl)⟩
    | fader | mute | trim => exact ⟨h.1, h.2, h.3, h.4⟩
  · have h := ((valuesLaw_iff s).mp law).1 c.strip
    have cue := values law
    cases e : c.value with
    | pan l => exact ⟨h.1, h.2, h.3, h.4, fun l' hl' => cue.weights l' (by rw [e]; cases hl'; rfl)⟩
    | fader v => exact ⟨h.1, h.2, fun v' hv' => cue.fader v' (by rw [e]; cases hv'; rfl), h.4, h.5⟩
    | mute | trim => exact ⟨h.1, h.2, h.3, h.4, h.5⟩

theorem sound_applyCue {c : Cue} {s : State} (h : c ∈ s.playback.cues ∨ c.PanLaw ∧ c.ValueLaw) :
    Sound s (applyCue c s) := by
  refine (sound_modStrip (fit_setShadow (c := c) (fun law => ?_) fun law => ?_)).trans (sound_handRetarget ..)
  · exact h.elim (((pansLaw_iff s).mp law).2.1 c) And.left
  · exact h.elim (((valuesLaw_iff s).mp law).2.2.1 c) And.right

/-- A scan over cues of the queue, or lawful ones. -/
theorem sound_arrivalScan {q : List Cue} {s : State} (h : ∀ c ∈ q, c ∈ s.playback.cues ∨ c.PanLaw ∧ c.ValueLaw) :
    Sound s (arrivalScan q s) := by
  induction q generalizing s with
  | nil => exact sound_flushed s
  | cons c rest ih =>
    unfold arrivalScan
    split
    · refine (sound_applyCue (h c (by simp))).trans (ih fun d hd => ?_)
      rw [(OnlyAt.applyCue c s).playback]
      exact h d (by simp [hd])
    · exact sound_withCues h

theorem sound_countStale (s : State) : Sound s (countStale s) := sound_of_blocks rfl (cuesFrom_of_eq rfl)

theorem sound_boundaryHeads {q : List Cue} {s : State} (h : ∀ c ∈ q, c ∈ s.playback.cues) :
    Sound s (boundaryHeads q s) := by
  induction q generalizing s with
  | nil => exact sound_flushed s
  | cons c rest ih =>
    have tail : ∀ d ∈ rest, d ∈ s.playback.cues := fun d hd => h d (by simp [hd])
    unfold boundaryHeads
    split
    · exact (sound_countStale s).trans (ih tail)
    · split
      · refine (sound_applyCue (.inl (h c (by simp)))).trans (ih ?_)
        rwa [(OnlyAt.applyCue c s).playback]
      · exact sound_withCues fun d hd => .inl (h d hd)

theorem sound_boundaryScan (s : State) : Sound s (boundaryScan s) := by
  have scanned : Sound s (boundaryHeads s.playback.cues s) := sound_boundaryHeads fun _ h => h
  unfold boundaryScan
  dsimp only
  split
  · exact scanned.trans (sound_raiseAtRole ..)
  · exact scanned

theorem sound_flushFromTimeline (s : State) : Sound s (flushFromTimeline s) := by
  unfold flushFromTimeline
  dsimp only
  split
  · exact (sound_flushed s).trans (sound_raiseAtRole ..)
  · exact sound_flushed s

theorem sound_recount (reason : PunchReason) (s : State) : Sound s (recount reason s) := by
  unfold recount
  dsimp only
  split
  · exact .refl s
  · split
    · exact (sound_modTimeline _ s).trans (eachStrip_sound (fun n t => sound_riseStrip n t) _)
    · exact (sound_modTimeline _ s).trans (eachStrip_sound (fun n t => sound_fallStrip reason n t) _)

theorem sound_locateTo (frame : Nat) (reason : PunchReason) (s : State) : Sound s (locateTo frame reason s) :=
  ((sound_modTimeline _ s).trans (sound_flushFromTimeline _)).trans (sound_recount ..)

theorem sound_boundary (s : State) : Sound s (boundary s) := by
  unfold boundary
  split
  · exact (sound_locateTo ..).trans (sound_raiseEverywhere ..)
  · exact (sound_modTimeline _ s).trans (sound_boundaryScan _)

theorem sound_advanceTimeline (s : State) : Sound s (advanceTimeline s) := by
  unfold advanceTimeline
  split
  · exact (sound_modTimeline _ s).trans (sound_recount ..)
  · split
    · split
      · exact sound_boundary s
      · exact sound_modTimeline _ s
    · exact .refl s

theorem sound_handPunch (filtered : Bool) (s : State) : Sound s (handPunch filtered s) := by
  refine (sound_modTimeline _ s).trans (eachStrip_sound (fun n t => ?_) _)
  unfold punchLineStrip
  split
  · exact sound_triggerChange ..
  · exact .refl t

theorem sound_timelinePeriod (v : LineLevels) (s : State) : Sound s (timelinePeriod v s) := by
  have turned : ∀ t, Sound t (turnStage v s.timeline t) := fun t => by
    unfold turnStage; split
    · exact (sound_modTimeline _ t).trans (sound_locateTo ..)
    · exact .refl t
  have rolled : ∀ t, Sound t (rollStage v s.timeline t) := fun t => by
    unfold rollStage; split
    · exact sound_recount ..
    · exact .refl t
  have advanced : ∀ t, Sound t (advanceStage v s.timeline t) := fun t => by
    unfold advanceStage; split
    · exact .refl t
    · exact sound_advanceTimeline t
  have punched : ∀ t, Sound t (punchStage v s.timeline t) := fun t => by
    unfold punchStage; split
    · exact sound_handPunch ..
    · exact .refl t
  rw [timelinePeriod_eq]
  exact ((((sound_modTimeline _ s).trans (turned _)).trans (rolled _)).trans (advanced _)).trans (punched _)

theorem sound_openPassBy (p : PortId) (low high : Nat) (s : State) : Sound s (openPassBy p low high s) := by
  have opened : Sound s (passOpened p low high s) := sound_of_blocks rfl (cuesFrom_of_eq rfl)
  rw [openPassBy_eq]
  refine (opened.trans (eachStrip_sound (fun n t => ?_) _)).trans (sound_handEvery ..)
  unfold armStrip
  split
  · exact sound_setWriteState ..
  · exact .refl t

theorem sound_passClosed (s : State) : Sound s (passClosed s) := sound_of_blocks rfl (cuesFrom_of_eq rfl)

theorem sound_closePassNow (s : State) : Sound s (closePassNow s) := by
  have ended : Sound (s.withCues []) (disarmed s) := by
    refine eachStrip_sound (fun n t => ?_) _
    unfold disarmStrip
    split
    · split
      · exact sound_endPunch ..
      · exact sound_setWriteState ..
    · exact .refl t
  rw [closePassNow_disarmed]
  exact (((sound_flushed s).trans ended).trans (sound_passClosed _)).trans (sound_handEvery ..)

theorem sound_discardTakes (s : State) : Sound s (discardTakes s) := sound_of_blocks rfl (cuesFrom_of_eq rfl)

theorem sound_endRoles (p : PortId) (s : State) : Sound s (endRoles p s) := by
  unfold endRoles
  split
  · exact (sound_closePassNow s).trans (sound_discardTakes _)
  · split
    · exact sound_discardTakes s
    · exact .refl s

end Sys2Proof.Machine

/-!
PROOFS. Every request and every event keeps the laws of hands, ports, pans and cells.
-/
namespace Sys2Proof.Machine

/-! ### Requests -/

/-- Snapshots that are lawful where the records are. -/
theorem sound_save {p : PortId} {s : State} (attached : (s.port p).attached = true) (n : StripNo) :
    Sound s (setRecall p ((snapshotOf n (s.strip n) :: (s.port p).recallStack).take Config.recallSize) s) := by
  have snapshots : ∀ {P : Snapshot → Prop}, P (snapshotOf n (s.strip n)) → (∀ q, ∀ k ∈ (s.port q).recallStack, P k) →
      ∀ q, ∀ k ∈ ((setRecall p ((snapshotOf n (s.strip n) :: (s.port p).recallStack).take Config.recallSize)
        s).port q).recallStack, P k := by
    intro P new old q k hk
    rw [setRecall, port_modPort] at hk
    split at hk
    · rcases List.mem_cons.mp (List.mem_of_mem_take hk) with e | e
      · exact e ▸ new
      · exact old p k e
    · exact old q k hk
  have same : ∀ q, ((setRecall p ((snapshotOf n (s.strip n) :: (s.port p).recallStack).take Config.recallSize)
      s).port q).attached = (s.port q).attached := (sameLines_setRecall p _ s).attached
  refine ⟨fun q law => ?_, handsLaw_congr rfl (fun _ => rfl) same, fun law => ?_, fun law => cellsLaw_congr (s := s) ?_ rfl law⟩
  · rw [setRecall, port_modPort]
    split
    · next e =>
      subst e
      exact PortState.law_of_attached attached law.watches_size law.watches_distinct (List.length_take_le ..)
        law.pointer_range law.refusals_range law.opened_empty
    · exact law
  · obtain ⟨strips, cues, old⟩ := (pansLaw_iff s).mp law
    exact (pansLaw_iff _).mpr ⟨strips, cues, snapshots (strips n).live old⟩
  · intro values
    obtain ⟨strips, gains, cues, old⟩ := (valuesLaw_iff s).mp values
    exact (valuesLaw_iff _).mpr ⟨strips, gains, cues, snapshots ⟨(strips n).fader, (strips n).weights⟩ old⟩

theorem tended_popped {q : PortState} {k : Snapshot} {rest : List Snapshot} (ha : q.attached = true)
    (top : q.recallStack = k :: rest) : q.Tended { q with recallStack := rest } where
  attached := rfl
  snapshots d hd := by rw [top]; exact List.mem_cons_of_mem k hd
  law h := PortState.law_of_attached ha h.watches_size h.watches_distinct
    (by have := h.recall_size; rw [top] at this; simp at this ⊢; omega) h.pointer_range h.refusals_range h.opened_empty

/-- A snapshot that passes the checks of RECALL fits the destination of its strip (R90). -/
theorem panFits_of_recall {p : PortId} {k : Snapshot} {s : State} (passed : recallFailure p k s = none) :
    s.busTable.panFits (s.strip k.strip).dest k.pan = true := by
  simp only [recallFailure, firstFailure_cons_none, failIf_none] at passed
  simpa using passed.2.2.1

/-- RECALL puts a snapshot back whose values the laws speak of while it is on the stack (R91). -/
theorem sound_putBack {p : PortId} {k : Snapshot} {rest : List Snapshot} {s : State}
    (attached : (s.port p).attached = true) (top : (s.port p).recallStack = k :: rest)
    (passed : recallFailure p k s = none) : Sound s (recallApply p k (setRecall p rest s)) := by
  have popped : Sound s (setRecall p rest s) :=
    sound_ports rfl (tended_modPort (tended_popped attached top))
  have member : k ∈ (s.port p).recallStack := by rw [top]; exact List.mem_cons_self
  have fits := panFits_of_recall passed
  have stands : s.strip k.strip = (setRecall p rest s).strip k.strip := rfl
  generalize hu : setRecall p rest s = u at popped stands ⊢
  have table : u.busTable = s.busTable := by rw [← hu]; rfl
  unfold recallApply
  dsimp only
  split
  · exact popped
  · have after := sound_writeChange p k.strip ((u.strip k.strip).recalled k) (snapshotWrites k (u.strip k.strip)) true u
    have only := handCut_onlyCells u k.strip
      (writeChange p k.strip ((u.strip k.strip).recalled k) (snapshotWrites k (u.strip k.strip)) true u)
    refine ⟨fun q law => ?_, fun law => ?_, fun law => ?_, fun law => ?_⟩
    · rw [commit, only.port q]
      exact after.port q (popped.port q law)
    · refine only.handsLaw (after.hands (handsLaw_setStrip _ (popped.hands law) ?_))
      have record := ((handsLaw_iff u).mp (popped.hands law)).1 k.strip
      exact ⟨record.1, record.2, record.3⟩
    · refine only.pansLaw (after.pans (pansLaw_setStrip _ (popped.pans law) ?_))
      have record := ((pansLaw_iff u).mp (popped.pans law)).1 k.strip
      refine ⟨((pansLaw_iff s).mp law).2.2 p k member, ?_, record.sources, record.shadow⟩
      rw [table]
      exact stands ▸ fits
    · refine cellsLaw_handCut (popped.cells law) (after.cells (cellsLaw_setStrip _ (popped.cells law) ?_)) _
      have record := ((valuesLaw_iff u).mp (popped.cells law).values).1 k.strip
      have snapshot := ((valuesLaw_iff s).mp law.values).2.2.2 p k member
      exact ⟨snapshot.1, record.trim, record.shadowFader, snapshot.2, record.shadowWeights⟩

theorem sound_change {p : PortId} {n : StripNo} {r : Strip} {s : State} (revised : (s.strip n).Revised s.busTable r)
    (written : List FieldValue) (reported : Bool) (m : Mode) :
    Sound s (handCut s n (changeMode n m (writeChange p n r written reported s))) :=
  sound_handCut (((sound_setStrip n (fit_of_revised revised)).trans (sound_writeChange ..)).trans
    (sound_changeMode ..)) n

/-! #### Holders -/

/-- The holder of an object becomes none, or an ATTACHED port that is the toucher where the object is touched. -/
theorem sound_setHolder {h : Option PortId} {o : Object} {s : State}
    (hand : ∀ p, h = some p → s.isAttached p ∧ otherPort p (s.toucherOf o) = false) : Sound s (setHolder h o s) := by
  cases o with
  | strip n =>
    refine sound_modStrip (fit_of_record (n := n) (fun law => ?_) (fun law => ⟨law.1, law.2, law.3, law.4⟩)
      fun law => ⟨law.1, law.2, law.3, law.4, law.5⟩)
    refine ⟨fun p hp => (hand p hp).1, law.2, fun p q hp hq => ?_⟩
    rcases otherPort_false.mp (hand p hp).2 with e | e
    · exact absurd (e.symm.trans hq) (by simp)
    · exact Option.some.inj (hq.symm.trans e)
  | bus b =>
    have gains : ∀ a, ((setHolder h (.bus b) s).bus a).gain = (s.bus a).gain := fun a => by
      rw [setHolder, bus_modBus]; split <;> rfl
    refine ⟨fun _ law => law, fun law => ?_, pansLaw_congr rfl rfl rfl (cuesFrom_of_eq rfl) fun _ _ hk => hk,
      cellsLaw_congr (valuesLaw_congr rfl gains (cuesFrom_of_eq rfl) fun _ _ hk => hk) rfl⟩
    refine (handsLaw_iff _).mpr ⟨((handsLaw_iff s).mp law).1, fun a p hp => ?_⟩
    rw [setHolder, bus_modBus] at hp
    split at hp
    · exact (hand p hp).1
    · exact law.bus_holder_attached a p hp

theorem toucher_liftTouch (p : PortId) (n : StripNo) (s : State) :
    ((liftTouch p n s).strip n).toucher = if (s.strip n).toucher = some p then none else (s.strip n).toucher := by
  unfold liftTouch
  split
  · have setting := sameSetting_triggerChange s n n (s.modStrip n fun r => { r with toucher := none })
    rw [strip_modStrip_self] at setting
    rw [changeToucher, setting]
  · rfl

/-- YIELD ends the requester's touch and hands the object over; another toucher there is none (R74, R78). -/
theorem sound_yield {p q : PortId} {o : Object} {s : State} (holder : s.holderOf o = some p)
    (target : (s.port q).attached = true) : Sound s (setHolder (some q) o (endTouch p o s)) := by
  cases o with
  | bus b => exact sound_setHolder fun r hr => by cases hr; exact ⟨target, rfl⟩
  | strip n =>
    have lifted := sound_liftTouch p n s
    have attached : (endTouch p (.strip n) s).isAttached q := by
      rw [endTouch_strip, State.isAttached, (OnlyAt.liftTouch p n s).attached q, target]
    have given := sound_setHolder (h := some q) (o := .strip n) (s := endTouch p (.strip n) s)
    refine ⟨fun r law => ?_, fun law => ?_, fun law => ?_, fun law => ?_⟩
    · exact lifted.port r law
    · have untouched : ((endTouch p (.strip n) s).strip n).toucher = none := by
        rw [endTouch_strip, toucher_liftTouch]
        split
        · rfl
        · next other =>
          cases e : (s.strip n).toucher with
          | none => rfl
          | some t => exact absurd (law.toucher_is_holder n p t holder e ▸ e) other
      exact (given fun r hr => by
        cases hr; exact ⟨attached, by rw [State.toucherOf, untouched]; rfl⟩).hands (lifted.hands law)
    · refine pansLaw_setStrip n (lifted.pans law) ?_
      have record := ((pansLaw_iff _).mp (lifted.pans law)).1 n
      exact ⟨record.1, record.2, record.3, record.4⟩
    · refine cellsLaw_setStrip n (lifted.cells law) ?_
      have record := ((valuesLaw_iff _).mp (lifted.cells law).values).1 n
      exact ⟨record.1, record.2, record.3, record.4, record.5⟩

/-! #### Widths and gains -/

/-- A change of widths and gains keeps the laws of hands and ports. -/
theorem sound_widths {s t : State} (strips : t.strips = s.strips) (ports : t.ports = s.ports)
    (holders : ∀ b, (t.bus b).holder = (s.bus b).holder) (cues : t.playback.cues = s.playback.cues)
    (fits : ∀ n, s.busTable.panFits (s.strip n).dest (s.strip n).pan = true →
      t.busTable.panFits (s.strip n).dest (s.strip n).pan = true)
    (cells : s.CellsLaw → t.CellsLaw) : Sound s t where
  port q law := by rwa [port_of_ports ports]
  hands := handsLaw_congr strips holders fun q => by rw [port_of_ports ports]
  pans law := by
    obtain ⟨records, queued, snapshots⟩ := (pansLaw_iff s).mp law
    refine (pansLaw_iff t).mpr ⟨fun n => ?_, by rwa [cues], fun q => by rw [port_of_ports ports]; exact snapshots q⟩
    rw [strip_of_strips strips]
    exact ⟨(records n).live, fits n (records n).fits, (records n).sources, (records n).shadow⟩
  cells := cells

theorem livePanBeyond_false {s : State} {concerns : Dest → Bool} {w : Nat} (h : livePanBeyond s concerns w = false)
    {n : StripNo} (feeds : concerns (s.strip n).dest = true) : ∀ e ∈ (s.strip n).pan, e.channel.val < w := by
  intro e he
  by_contra beyond
  have : livePanBeyond s concerns w = true := by
    refine Vector.any_eq_true.mpr ⟨n.val, n.isLt, ?_⟩
    have : s.strips[n.val] = s.strip n := rfl
    rw [this, feeds, Bool.true_and, List.any_eq_true]
    exact ⟨e, he, by simpa using beyond⟩
  rw [h] at this
  cases this

theorem destWidth_none_iff (t : BusTable) (d : Dest) : t.destWidth d = none ↔ d = .none := by
  cases d <;> simp [BusTable.destWidth]

/-- A pan list that fits one width fits a width that is no narrower, and one that no channel of it goes beyond. -/
theorem panFits_of_width {a b : BusTable} {d : Dest} {l : List PanEntry}
    (width : ∀ w, a.destWidth d = some w → ∀ v, b.destWidth d = some v → v ≤ w ∨ ∀ e ∈ l, e.channel.val < w)
    (h : b.panFits d l = true) : a.panFits d l = true := by
  unfold BusTable.panFits at *
  cases ea : a.destWidth d with
  | none => rfl
  | some w =>
    cases eb : b.destWidth d with
    | none => rw [(destWidth_none_iff b d).mp eb] at ea; cases ea
    | some v =>
      rw [eb] at h
      simp only [List.all_eq_true, decide_eq_true_eq] at h ⊢
      rcases width w ea v eb with wider | within
      · exact fun e he => (h e he).trans_le wider
      · exact within

/-- All that a written print flag changes. -/
theorem setPrint_eq (b : BusNo) (on : Bool) (t : BusTable) :
    setPrint b on t = { t with print := (setPrint b on t).print } := by unfold setPrint; split <;> rfl

theorem setPremixWidth_eq (b : BusNo) (w : Nat) (t : BusTable) :
    setPremixWidth b w t = { t with premixWidth := (setPremixWidth b w t).premixWidth } := by
  unfold setPremixWidth; split <;> rfl

theorem setPremixWidth_get (b : BusNo) (w : Nat) (t : BusTable) (k : PremixNo) :
    (setPremixWidth b w t).premixWidth[k] = if k.val = b.val then w else t.premixWidth[k] := by
  unfold setPremixWidth
  split
  · simp only [Fin.getElem_fin, Vector.getElem_set, eq_comm]
  · next stem =>
    have : k.val ≠ b.val := by have := k.isLt; omega
    simp [this]

/-- The bus table with the gain and mute of bus `b` written. -/
def withGain (b : BusNo) (c : BusChange) (t : BusTable) : BusTable :=
  { t with buses := upd t.buses b fun r => { r with gain := c.gain.getD r.gain, mute := c.mute.getD r.mute } }

/-- SET-BUS writes the gain and the mute, the width, and the print flag, each where it is selected (R55). -/
theorem writeBus_eq (b : BusNo) (c : BusChange) (t : BusTable) :
    writeBus b c t =
      { withGain b c t with
        premixWidth := (writeBus b c t).premixWidth, print := (writeBus b c t).print } := by
  unfold writeBus withGain
  cases c.width <;> cases c.print <;> dsimp only
  · rw [setPrint_eq]
  · rw [setPremixWidth_eq]
  · rw [setPrint_eq, setPremixWidth_eq]

theorem writeBus_premixWidth (b : BusNo) (c : BusChange) (t : BusTable) (k : PremixNo) :
    (writeBus b c t).premixWidth[k] = if k.val = b.val then c.width.getD t.premixWidth[k] else t.premixWidth[k] := by
  unfold writeBus
  cases c.width with
  | none =>
    cases c.print with
    | none => simp
    | some on => dsimp only; rw [setPrint_eq]; simp
  | some w =>
    cases c.print with
    | none => exact setPremixWidth_get b w _ k
    | some on => dsimp only; rw [setPrint_eq]; exact setPremixWidth_get b w _ k

theorem writeBus_bus (b a : BusNo) (c : BusChange) (t : BusTable) :
    (writeBus b c t).buses[a] =
      if b = a then { t.buses[a] with gain := c.gain.getD t.buses[a].gain, mute := c.mute.getD t.buses[a].mute }
      else t.buses[a] := by
  rw [writeBus_eq]
  exact upd_get ..

theorem writeBus_destWidth (b : BusNo) (c : BusChange) (t : BusTable) (d : Dest) :
    (writeBus b c t).destWidth d =
      match d with
      | .none => none
      | .premix k => some (if k.val = b.val then c.width.getD t.premixWidth[k] else t.premixWidth[k])
      | .stem _ => some t.masterWidth := by
  cases d with
  | none => rfl
  | premix k => exact congrArg some (writeBus_premixWidth b c t k)
  | stem k => rw [writeBus_eq]; rfl

theorem busWidth_premix (t : BusTable) {b : BusNo} {k : PremixNo} (h : k.val = b.val) :
    t.busWidth b = t.premixWidth[k] := by
  have lt : b.val < 16 := h ▸ k.isLt
  unfold BusTable.busWidth
  rw [dif_pos lt]
  simp [← h]

/-- What the checks of SET-BUS let pass: a narrowed premix has no live pan beyond its new width (R54). -/
theorem livePan_of_setBus {p : PortId} {b : BusNo} {sel width mute print : Byte} {s : State}
    (passed : setBusFailure p b sel width mute print s = none) (selected : sel.getLsbD 0 = true)
    (narrower : width.toNat < s.busTable.busWidth b) : livePanBeyond s (feedsBus b) width.toNat = false := by
  simp only [setBusFailure, firstFailure_cons_none, failIf_none] at passed
  simpa [selected, narrower] using passed.2.2.2.1

theorem gainTarget_law_of_gain {t : BusTable} (h : ∀ b : BusNo, t.buses[b].gain ≤ 65535) (b : BusNo) :
    t.buses[b].gainTarget ≤ 65535 := gainTarget_range (h b)

theorem gainCells_retargetGain (b a : BusNo) (s : State) :
    (retargetGain b s).engine.gainCells[a] =
      if b = a then (s.engine.gainCells[a]).retarget s.engine.rampLength (s.bus a).gainTarget
      else s.engine.gainCells[a] := by
  have h := upd_get s.engine.gainCells b a (Cell.retarget s.engine.rampLength (s.bus b).gainTarget)
  refine Eq.trans h ?_
  split
  · next e => rw [e]
  · rfl

theorem cellsLaw_retargetGain {s : State} (h : s.CellsLaw) (b : BusNo) : (retargetGain b s).CellsLaw := by
  refine ⟨valuesLaw_congr (s := s) rfl (fun _ => rfl) (cuesFrom_of_eq rfl) (fun _ _ hk => hk) h.values, h.ramp_pos,
    h.ramp_range, h.strip_cells, fun a => ?_⟩
  rw [gainCells_retargetGain]
  split
  · exact cell_law_retarget (h.gain_cells a) h.ramp_pos h.ramp_range (gainTarget_range (h.values.gains a))
  · exact h.gain_cells a

theorem sound_retargetGain (b : BusNo) (s : State) : Sound s (retargetGain b s) :=
  sound_widths rfl rfl (fun _ => rfl) rfl (fun _ h => h) fun law => cellsLaw_retargetGain law b

theorem busChange_gain (sel width : Byte) (gain : BitVec 16) (mute print : Byte) {v : Nat} (h : v ≤ 65535) :
    (busChange sel width gain mute print).gain.getD v ≤ 65535 := by
  unfold busChange selected
  dsimp only
  split
  · exact word_le gain
  · exact h

theorem busChange_width (sel width : Byte) (gain : BitVec 16) (mute print : Byte) :
    (busChange sel width gain mute print).width = if sel.getLsbD 0 then some width.toNat else none := rfl

/-- The bus table of an accepted SET-BUS. -/
theorem sound_writeBus {p : PortId} {b : BusNo} {sel width mute print : Byte} {s : State}
    (passed : setBusFailure p b sel width mute print s = none) (gain : BitVec 16) :
    Sound s { s with busTable := writeBus b (busChange sel width gain mute print) s.busTable } := by
  refine sound_widths rfl rfl (fun a => ?_) rfl (fun n fits => ?_) fun law => cellsLaw_congr (s := s) (fun values => ?_) rfl law
  · rw [State.bus, writeBus_bus]
    split <;> rfl
  · refine panFits_of_width (fun w hw v hv => ?_) fits
    rw [writeBus_destWidth] at hw
    cases ed : (s.strip n).dest with
    | none => rw [ed] at hv; cases hv
    | stem k => rw [ed] at hw hv; cases hw; cases hv; exact .inl le_rfl
    | premix k =>
      rw [ed] at hw hv
      cases hv
      simp only [Option.some.injEq, busChange_width] at hw
      by_cases hk : k.val = b.val
      · by_cases chosen : sel.getLsbD 0 = true
        · simp only [hk, chosen, if_true, Option.getD_some] at hw
          subst hw
          rcases Nat.lt_or_ge width.toNat s.busTable.premixWidth[k] with narrower | wider
          · refine .inr (livePanBeyond_false (livePan_of_setBus passed chosen ?_) ?_)
            · rwa [busWidth_premix _ hk]
            · rw [ed]; simp [feedsBus, hk]
          · exact .inl wider
        · simp only [hk, chosen, if_true] at hw
          exact .inl hw.le
      · rw [if_neg hk] at hw
        exact .inl hw.le
  · obtain ⟨strips, gains, rest⟩ := (valuesLaw_iff s).mp values
    refine (valuesLaw_iff _).mpr ⟨strips, fun a => ?_, rest⟩
    rw [State.bus, writeBus_bus]
    split
    · exact busChange_gain sel width gain mute print (gains a)
    · exact gains a

theorem sound_applyBus {p : PortId} {b : BusNo} {sel width mute print : Byte} {s : State}
    (passed : setBusFailure p b sel width mute print s = none) (gain : BitVec 16) :
    Sound s (applyBus b (busChange sel width gain mute print) s) := by
  unfold applyBus
  dsimp only
  refine Sound.trans ?_ (sound_retargetGain ..)
  split
  · exact sound_writeBus passed gain
  · exact (sound_writeBus passed gain).trans (sound_retargetWhere ..)

/-- The bus table of an accepted SET-MASTER that changes the width (R59, R66). -/
def mastered (w : Nat) (t : BusTable) : BusTable :=
  if w < t.masterWidth then resetMetersBeyond w { t with masterWidth := w } else { t with masterWidth := w }

theorem applyMaster_mastered {w : Nat} {s : State} (h : w ≠ s.busTable.masterWidth) :
    applyMaster w s = retargetWhere feedsStem { s with busTable := mastered w s.busTable } := by
  unfold applyMaster
  rw [if_neg h]
  rfl

theorem mastered_eq (w : Nat) (t : BusTable) :
    mastered w t =
      { t with
        masterWidth := w, stemMeters := (mastered w t).stemMeters, masterMeters := (mastered w t).masterMeters } := by
  unfold mastered; split <;> rfl

theorem mastered_destWidth (w : Nat) (t : BusTable) (d : Dest) :
    (mastered w t).destWidth d =
      match d with
      | .none => none
      | .premix k => some t.premixWidth[k]
      | .stem _ => some w := by rw [mastered_eq]; cases d <;> rfl

theorem livePan_of_setMaster {w : Nat} {s : State} (passed : setMasterFailure w s = none)
    (narrower : w < s.busTable.masterWidth) : livePanBeyond s feedsStem w = false := by
  simp only [setMasterFailure, firstFailure_cons_none, failIf_none] at passed
  simpa [narrower] using passed.2.1

theorem panFits_mastered {w : Nat} {s : State} (passed : setMasterFailure w s = none) (n : StripNo)
    (fits : s.busTable.panFits (s.strip n).dest (s.strip n).pan = true) :
    (mastered w s.busTable).panFits (s.strip n).dest (s.strip n).pan = true := by
  refine panFits_of_width (fun v hv u hu => ?_) fits
  rw [mastered_destWidth] at hv
  cases ed : (s.strip n).dest with
  | none => rw [ed] at hu; cases hu
  | premix k => rw [ed] at hv hu; cases hv; cases hu; exact .inl le_rfl
  | stem k =>
    rw [ed] at hv hu
    cases hv
    cases hu
    rcases Nat.lt_or_ge w s.busTable.masterWidth with narrower | wider
    · exact .inr (livePanBeyond_false (livePan_of_setMaster passed narrower) (by rw [ed]; rfl))
    · exact .inl wider

theorem bus_mastered (w : Nat) (s : State) (b : BusNo) :
    (({ s with busTable := mastered w s.busTable } : State).bus b) = s.bus b := by
  have same : (mastered w s.busTable).buses = s.busTable.buses := by rw [mastered_eq]
  rw [State.bus, State.bus, same]

theorem sound_mastered {w : Nat} {s : State} (passed : setMasterFailure w s = none) :
    Sound s { s with busTable := mastered w s.busTable } := by
  have values : s.ValuesLaw → ({ s with busTable := mastered w s.busTable } : State).ValuesLaw :=
    valuesLaw_congr rfl (fun b => by rw [bus_mastered]) (cuesFrom_of_eq rfl) fun _ _ hk => hk
  exact sound_widths rfl rfl (fun b => by rw [bus_mastered]) rfl (panFits_mastered passed) (cellsLaw_congr values rfl)

theorem sound_applyMaster {w : Nat} {s : State} (passed : setMasterFailure w s = none) : Sound s (applyMaster w s) := by
  by_cases same : w = s.busTable.masterWidth
  · rw [applyMaster, if_pos same]
    exact .refl s
  · rw [applyMaster_mastered same]
    exact (sound_mastered passed).trans (sound_retargetWhere ..)

end Sys2Proof.Machine

/-!
PROOFS. Every step keeps hands, ports, pans and cells lawful.
-/
namespace Sys2Proof.Machine

/-! ### Deeds are sound -/

/-- A cue that is read and of a pan's shape is lawful (R116). -/
theorem readCue_lawful {field : CueField} {rc : ReadCue} (read : readCue field = some rc) (shaped : rc.shaped = true) :
    rc.cue.PanLaw ∧ rc.cue.ValueLaw := by
  unfold readCue at read
  split at read
  · split at read
    · next n v sh _ value =>
      cases read
      dsimp only at shaped
      subst shaped
      unfold readCueValue at value
      split at value
      · cases value
        exact ⟨nofun, ⟨fun w hw => by cases hw; exact valueWord_le _, nofun⟩⟩
      · simp only [Option.map_eq_some_iff, Prod.mk.injEq] at value
        obtain ⟨m, -, rfl, -⟩ := value
        exact ⟨nofun, ⟨nofun, nofun⟩⟩
      · simp only [Option.map_eq_some_iff, Prod.mk.injEq] at value
        obtain ⟨es, entries, rfl, pan⟩ := value
        have lawful := panField_lawful pan
        rw [PanField.list, entries, Option.getD_some] at lawful
        exact ⟨fun l hl => (FieldValue.pan.inj hl) ▸ lawful,
          ⟨nofun, fun l hl => (FieldValue.pan.inj hl) ▸ lawful.weights⟩⟩
      · cases value
    · cases read
  · cases read

theorem shaped_of_examined {field : CueField} {rc : ReadCue} {s : State} (read : readCue field = some rc)
    (passed : examineCue field s = none) : rc.shaped = true := by
  simp only [examineCue, read, firstFailure_cons_none, failIf_none] at passed
  simpa using passed.2.2.1

theorem sound_queueCue {field : CueField} {rc : ReadCue} {s : State} (read : readCue field = some rc)
    (passed : examineCue field s = none) : Sound s (queueCue rc.cue s) := by
  refine sound_arrivalScan fun c hc => ?_
  rcases List.mem_append.mp hc with queued | new
  · exact .inl queued
  · rw [List.mem_singleton.mp new]
    exact .inr (readCue_lawful read (shaped_of_examined read passed))

theorem sound_ramp (v : Nat) (s : State) : Sound s { s with engine := { s.engine with rampLength := rampFrom v } } where
  port _ law := law
  hands := handsLaw_congr rfl (fun _ => rfl) fun _ => rfl
  pans := pansLaw_congr rfl rfl rfl (cuesFrom_of_eq rfl) fun _ _ hk => hk
  cells law :=
    ⟨valuesLaw_congr (s := s) rfl (fun _ => rfl) (cuesFrom_of_eq rfl) (fun _ _ hk => hk) law.values,
      by unfold rampFrom Config.maxRamp; dsimp only; omega, by unfold rampFrom Config.maxRamp; dsimp only; omega,
      law.strip_cells, law.gain_cells⟩

/-- A change of the bus table that leaves widths, gains and holders. -/
theorem sound_busTable {s : State} {t : BusTable} (premix : t.premixWidth = s.busTable.premixWidth)
    (master : t.masterWidth = s.busTable.masterWidth)
    (buses : ∀ b : BusNo, t.buses[b].holder = s.busTable.buses[b].holder ∧ t.buses[b].gain = s.busTable.buses[b].gain) :
    Sound s { s with busTable := t } :=
  sound_widths rfl rfl (fun b => (buses b).1) rfl (fun _ h => by rwa [panFits_congr premix master])
    (cellsLaw_congr (valuesLaw_congr rfl (fun b => (buses b).2) (cuesFrom_of_eq rfl) fun _ _ hk => hk) rfl)

theorem sound_clearClips (set : BitVec 32) (s : State) : Sound s { s with busTable := clearClips set s.busTable } :=
  sound_busTable (t := clearClips set s.busTable) (by simp only [clearClips]) (by simp only [clearClips])
    fun b => by simp [clearClips]

/-- Every deed of an ATTACHED port is sound. -/
theorem Deed.sound {p : PortId} {s t : State} (attached : (s.port p).attached = true) (d : Deed p s t) : Sound s t := by
  cases d with
  | ports rest port transaction => exact sound_ports rest port
  | save n => exact sound_save attached n
  | change revised written reported m => exact sound_change revised written reported m
  | mode n m => exact sound_changeMode n m s
  | putBack top passed => exact sound_putBack attached top passed
  | ramp v => exact sound_ramp v s
  | bus passed gain => exact sound_applyBus passed gain
  | master passed => exact sound_applyMaster passed
  | clips set => exact sound_clearClips set s
  | meters hold => exact sound_busTable rfl rfl fun _ => ⟨rfl, rfl⟩
  | hold held touched => exact sound_setHolder fun q hq => by cases hq; exact ⟨attached, touched⟩
  | unhold o => exact sound_setHolder fun q hq => by cases hq
  | yield holder target => exact sound_yield holder target
  | touch free => exact sound_changeToucher fun q hq => by cases hq; exact ⟨attached, (handFailure_none.mp free).1⟩
  | untouch n => exact sound_untouch n s
  | line l low filter => exact sound_modTimeline _ s
  | loop checked => exact sound_modTimeline _ s
  | rate still r => exact sound_modTimeline _ s
  | locate range => exact sound_locateTo ..
  | openPass passed low high => exact sound_openPassBy ..
  | closePass port => exact sound_closePassNow s
  | cue port read passed => exact sound_queueCue read passed
  | stale => exact sound_countStale s
  | take port n => exact sound_of_blocks rfl (cuesFrom_of_eq rfl)
  | patch v => exact sound_of_blocks rfl (cuesFrom_of_eq rfl)

/-! ### The events of the engine and the audio interface -/

theorem bus_setClips (sat : Saturated) (t : BusTable) (b : BusNo) :
    (setClips sat t).buses[b] = { t.buses[b] with clip := t.buses[b].clip || sat.buses[b] } := by simp [setClips]

theorem sound_takeSaturation (sat : Saturated) (s : State) : Sound s (takeSaturation sat s) := by
  have set : Sound s { s with busTable := setClips sat s.busTable } :=
    sound_busTable (t := setClips sat s.busTable) (by simp only [setClips]) (by simp only [setClips])
      fun b => by rw [bus_setClips]; exact ⟨rfl, rfl⟩
  unfold takeSaturation
  dsimp only
  split
  · exact set.trans (sound_raiseEverywhere ..)
  · exact set

/-- Stage 2 of a sample period: every cell takes its step (R38). -/
theorem cellsLaw_advance {s : State} {e : Engine} (law : s.CellsLaw)
    (cells : e.stripCells = s.engine.stripCells.map fun v => v.map Cell.advance)
    (gains : e.gainCells = s.engine.gainCells.map Cell.advance) (ramp : e.rampLength = s.engine.rampLength) :
    ({ s with engine := e } : State).CellsLaw where
  values := valuesLaw_congr (s := s) rfl (fun _ => rfl) (cuesFrom_of_eq rfl) (fun _ _ hk => hk) law.values
  ramp_pos := by rw [ramp]; exact law.ramp_pos
  ramp_range := by rw [ramp]; exact law.ramp_range
  strip_cells n c := by
    have h := cell_law_advance (law.strip_cells n c)
    simp only [State.cells, cells, Fin.getElem_fin, Vector.getElem_map] at h ⊢
    exact h
  gain_cells b := by
    have h := cell_law_advance (law.gain_cells b)
    simp only [gains, Fin.getElem_fin, Vector.getElem_map] at h ⊢
    exact h

theorem sound_levels (tick : Bool) (h : Handed) (s : State) :
    Sound s { s with busTable := takeLevels tick h s.busTable } :=
  sound_busTable (t := takeLevels tick h s.busTable) (by simp only [takeLevels]) (by simp only [takeLevels])
    fun b => by simp only [takeLevels, and_self]

theorem enginePeriod_taken (s : State) :
    enginePeriod s = takeSaturation s.mix.saturated
      { s with
        engine := s.mix.engine, busTable := takeLevels s.tickDue s.mix.handed s.busTable,
        audio := { s.audio with handed := s.mix.handed, handedBefore := s.audio.handed, engineTaken := true } } := by
  unfold enginePeriod
  rfl

theorem sound_audio (a : Audio) (s : State) : Sound s { s with audio := a } := sound_of_blocks rfl (cuesFrom_of_eq rfl)

theorem sound_enginePeriod (s : State) : Sound s (enginePeriod s) := by
  have stepped : Sound s { s with engine := s.mix.engine } :=
    ⟨fun _ law => law, handsLaw_congr rfl (fun _ => rfl) fun _ => rfl,
      pansLaw_congr rfl rfl rfl (cuesFrom_of_eq rfl) fun _ _ hk => hk,
      fun law => cellsLaw_advance law (mix_stripCells s) (mix_gainCells s) rfl⟩
  rw [enginePeriod_taken]
  generalize s.mix = m at *
  refine Sound.trans ?_ (sound_takeSaturation ..)
  exact (stepped.trans (sound_levels s.tickDue m.handed _)).trans (sound_audio _ _)

theorem sound_withAudio (a : Audio) (s : State) : Sound s (withAudio a s) := by
  have taken : Sound s { s with audio := a } := sound_of_blocks rfl (cuesFrom_of_eq rfl)
  unfold withAudio
  dsimp only
  split
  · exact taken.trans (sound_raiseEverywhere ..)
  · exact taken

/-! ### Attach and reset -/

/-- A port that attaches (R71). -/
theorem sound_attach {p : PortId} {s : State} :
    Sound s (s.modPort p fun q => PortState.fresh true q.transaction.overtaken) := by
  have snapshots : ∀ q, ∀ k ∈ ((s.modPort p fun q => PortState.fresh true q.transaction.overtaken).port q).recallStack,
      k ∈ (s.port q).recallStack := by
    intro q k hk
    rw [port_modPort] at hk
    split at hk
    · cases hk
    · exact hk
  refine ⟨fun q law => ?_, fun law => ?_, pansLaw_congr rfl rfl rfl (cuesFrom_of_eq rfl) snapshots,
    cellsLaw_congr (valuesLaw_congr rfl (fun _ => rfl) (cuesFrom_of_eq rfl) snapshots) rfl⟩
  · rw [port_modPort]
    split
    · exact law_fresh true fun h => by cases h
    · exact law
  · have attached : ∀ q, s.isAttached q →
        (s.modPort p fun q => PortState.fresh true q.transaction.overtaken).isAttached q := by
      intro q hq
      rw [State.isAttached, port_modPort]
      split
      · rfl
      · exact hq
    exact ⟨fun n q hq => attached q (law.holder_attached n q hq), fun n q hq => attached q (law.toucher_attached n q hq),
      law.toucher_is_holder, fun b q hq => attached q (law.bus_holder_attached b q hq)⟩

section Reset
variable (rate : SampleRate) {ports : Vector PortState 4}

theorem strip_afterReset (n : StripNo) : (State.afterReset rate ports).strip n = Strip.reset := by
  simp [State.strip, State.afterReset]

theorem bus_afterReset (b : BusNo) :
    (State.afterReset rate ports).bus b = { gain := Config.unity, mute := false, holder := none, clip := false } := by
  simp [State.bus, State.afterReset, BusTable.reset]

theorem cell_afterReset (n : StripNo) (c : Channel) :
    ((State.afterReset rate ports).cells n)[c] = Cell.settledAt 0 := by
  simp [State.cells, State.afterReset, Engine.reset]

theorem gainCell_afterReset (b : BusNo) :
    (State.afterReset rate ports).engine.gainCells[b] = Cell.settledAt Config.unity := by
  simp [State.afterReset, Engine.reset]

theorem handsLaw_afterReset : (State.afterReset rate ports).HandsLaw := by
  refine (handsLaw_iff _).mpr ⟨fun n => ?_, fun b p h => ?_⟩
  · rw [strip_afterReset]
    exact ⟨nofun, nofun, nofun⟩
  · rw [bus_afterReset] at h
    cases h

theorem pansLaw_reset (t : BusTable) : Strip.reset.PansLaw t :=
  ⟨⟨rfl, fun _ he => (List.mem_singleton.mp he).symm ▸ le_rfl⟩, rfl, rfl, nofun⟩

theorem valuesLaw_reset : Strip.reset.ValuesLaw :=
  ⟨(by decide : Config.unity ≤ 65535), (by decide : Config.unity ≤ 65535), nofun,
    fun _ he => (List.mem_singleton.mp he).symm ▸ le_rfl, nofun⟩

variable (empty : ∀ q, ((State.afterReset rate ports).port q).recallStack = [])
include empty

theorem pansLaw_afterReset : (State.afterReset rate ports).PansLaw := by
  refine (pansLaw_iff _).mpr ⟨fun n => ?_, nofun, fun q k h => ?_⟩
  · rw [strip_afterReset]; exact pansLaw_reset _
  · rw [empty] at h; cases h

theorem valuesLaw_afterReset : (State.afterReset rate ports).ValuesLaw := by
  refine (valuesLaw_iff _).mpr ⟨fun n => ?_, fun b => ?_, nofun, fun q k h => ?_⟩
  · rw [strip_afterReset]; exact valuesLaw_reset
  · rw [bus_afterReset]; exact (by decide : Config.unity ≤ 65535)
  · rw [empty] at h; cases h

theorem cellsLaw_afterReset : (State.afterReset rate ports).CellsLaw where
  values := valuesLaw_afterReset rate empty
  ramp_pos := (by decide : 1 ≤ 64)
  ramp_range := (by decide : 64 ≤ 1024)
  strip_cells n c := by rw [cell_afterReset]; exact cell_law_settledAt (Nat.zero_le _)
  gain_cells b := by rw [gainCell_afterReset]; exact cell_law_settledAt (by decide : Config.unity ≤ 65535)

end Reset

theorem port_resetState (rate : SampleRate) (present : Vector Bool 4) (s : State) (q : PortId) :
    (State.afterReset rate (Vector.ofFn fun p =>
      PortState.fresh present[p] (s.port p).transaction.overtaken)).port q =
      PortState.fresh present[q] (s.port q).transaction.overtaken := by
  simp [State.port, State.afterReset]

theorem sound_reset (rate : SampleRate) (present : Vector Bool 4) (s : State) :
    Sound s { State.afterReset rate (Vector.ofFn fun p =>
      PortState.fresh present[p] (s.port p).transaction.overtaken) with pending := s.pending } := by
  have queue : ∀ (t : State) (l : List Instr), Sound t { t with pending := l } := fun t l =>
    sound_of_blocks rfl (cuesFrom_of_eq rfl)
  have empty : ∀ q, ((State.afterReset rate (Vector.ofFn fun p =>
      PortState.fresh present[p] (s.port p).transaction.overtaken)).port q).recallStack = [] :=
    fun q => by rw [port_resetState]; rfl
  refine Sound.trans ⟨fun q _ => ?_, fun _ => handsLaw_afterReset rate, fun _ => pansLaw_afterReset rate empty,
    fun _ => cellsLaw_afterReset rate empty⟩ (queue _ _)
  rw [port_resetState]
  exact law_fresh _ fun _ => overtaken_ne_opened _

end Sys2Proof.Machine

/-!
PROOFS. A detach keeps the laws of hands, ports, pans and cells though it breaks the first two on its way; with it every
step keeps the four.
-/
namespace Sys2Proof.Machine

/-! ### What a detach makes of records and ports -/

theorem Strip.SameSetting.hands {r r' : Strip} (h : r.SameSetting r') : r'.holder = r.holder ∧ r'.toucher = r.toucher := by
  rw [h]; exact ⟨rfl, rfl⟩

/-- No record of `t` differs from that of `s` but in what the writing block writes. -/
def SameSettings (s t : State) : Prop := ∀ m, (s.strip m).SameSetting (t.strip m)

theorem SameSettings.refl (s : State) : SameSettings s s := fun _ => .refl _

theorem SameSettings.trans {s t u : State} (h : SameSettings s t) (k : SameSettings t u) : SameSettings s u :=
  fun m => (h m).trans (k m)

theorem sameSettings_of_strips {s t : State} (h : t.strips = s.strips) : SameSettings s t := fun m => by
  rw [strip_of_strips h]; exact .refl _

theorem eachStrip_sameSettings {f : StripNo → State → State} (h : ∀ n t, SameSettings t (f n t)) (s : State) :
    SameSettings s (eachStrip f s) :=
  eachStrip_keeps (P := SameSettings s) (fun n t ht => ht.trans (h n t)) (.refl s)

theorem sameSettings_disarmed (s : State) : SameSettings s (disarmed s) := by
  have flushed : SameSettings s (s.withCues []) := sameSettings_of_strips rfl
  refine flushed.trans (eachStrip_sameSettings (fun n t m => ?_) _)
  unfold disarmStrip
  split
  · split
    · exact sameSetting_endPunch ..
    · exact sameSetting_setWriteState ..
  · exact .refl _

theorem passClosed_strips (s : State) : (passClosed s).strips = s.strips := rfl

theorem sameSettings_closePassNow (s : State) : SameSettings s (closePassNow s) :=
  (sameSettings_disarmed s).trans
    (sameSettings_of_strips ((closePassNow_onlyCells s).strips.trans (passClosed_strips _)))

theorem sameSettings_endRoles (p : PortId) (s : State) : SameSettings s (endRoles p s) := by
  unfold endRoles
  split
  · exact (sameSettings_closePassNow s).trans (sameSettings_of_strips (discardTakes_strips _))
  · split
    · exact sameSettings_of_strips (discardTakes_strips s)
    · exact .refl s

theorem strip_releaseClaims (p : PortId) (s : State) (m : StripNo) :
    (releaseClaims p s).strip m = { s.strip m with holder := unheldBy p (s.strip m).holder } := by
  simp [State.strip, releaseClaims]

theorem bus_releaseClaims (p : PortId) (s : State) (b : BusNo) :
    (releaseClaims p s).bus b = { s.bus b with holder := unheldBy p (s.bus b).holder } := by
  simp [State.bus, releaseClaims]

theorem holder_liftTouch (p : PortId) (n : StripNo) (s : State) :
    ((liftTouch p n s).strip n).holder = (s.strip n).holder := by
  unfold liftTouch
  split
  · have setting := sameSetting_triggerChange s n n (s.modStrip n fun r => { r with toucher := none })
    rw [strip_modStrip_self] at setting
    rw [changeToucher, setting]
  · rfl

/-- The touches of port `p` have ended, and holders stand (R72). -/
theorem hands_releaseTouches (p : PortId) (s : State) (m : StripNo) :
    ((releaseTouches p s).strip m).holder = (s.strip m).holder ∧
      ((releaseTouches p s).strip m).toucher = if (s.strip m).toucher = some p then none else (s.strip m).toucher := by
  obtain ⟨t, -, strip, -, turned, -⟩ := eachStrip_turn (f := liftTouch p) (fun n t => .liftTouch p n t) m s
  rw [releaseTouches_eq, turned, holder_liftTouch, toucher_liftTouch, strip]
  exact ⟨rfl, rfl⟩

/-- The last two steps of a detach: port `p` is emptied, and the others take DETACH (R72). -/
def emptied (p : PortId) (u : State) : State :=
  raiseElsewhere .detach p (u.modPort p fun q => PortState.fresh false q.transaction)

theorem emptied_rest (p : PortId) (u : State) : emptied p u = { u with ports := (emptied p u).ports } := rfl

theorem detachPort_emptied (p : PortId) (s : State) : detachPort p s = emptied p (unhanded p s) := detachPort_eq p s

theorem strips_detachPort (p : PortId) (s : State) : (detachPort p s).strips = (unhanded p s).strips := by
  rw [detachPort_emptied, emptied_rest]

theorem detachPort_busTable (p : PortId) (s : State) : (detachPort p s).busTable = (unhanded p s).busTable := by
  rw [detachPort_emptied, emptied_rest]

theorem busTable_detachPort (p : PortId) (s : State) :
    (detachPort p s).busTable = (releaseClaims p (releaseTouches p (unplugged p s))).busTable := by
  rw [detachPort_busTable, unhanded, (endRoles_onlyPass ..).busTable]

/-- After a detach port `p` neither holds nor touches, and the hands of the other ports stand. -/
theorem hands_detachPort (p : PortId) (s : State) (m : StripNo) :
    ((detachPort p s).strip m).holder = unheldBy p (s.strip m).holder ∧
      ((detachPort p s).strip m).toucher = if (s.strip m).toucher = some p then none else (s.strip m).toucher := by
  obtain ⟨holder, toucher⟩ := (sameSettings_endRoles p (releaseClaims p (releaseTouches p (unplugged p s))) m).hands
  obtain ⟨held, touched⟩ := hands_releaseTouches p (unplugged p s) m
  rw [strip_of_strips (strips_detachPort p s), unhanded, holder, toucher, strip_releaseClaims]
  dsimp only
  rw [held, touched]
  exact ⟨rfl, rfl⟩

theorem bus_detachPort (p : PortId) (s : State) (b : BusNo) :
    (detachPort p s).bus b = { s.bus b with holder := unheldBy p (s.bus b).holder } := by
  have released : (detachPort p s).bus b = (releaseClaims p (releaseTouches p (unplugged p s))).bus b := by
    rw [State.bus, State.bus, busTable_detachPort]
  have kept : (releaseTouches p (unplugged p s)).bus b = s.bus b := by
    rw [State.bus, State.bus, (releaseTouches_onlyStrips ..).busTable]; rfl
  rw [released, bus_releaseClaims, kept]

theorem sameLines_releaseClaims (p : PortId) (s : State) : SameLines s (releaseClaims p s) := sameLines_of_ports rfl

theorem OnlyPass.sameLines {s t : State} (h : OnlyPass s t) : SameLines s t :=
  ⟨fun q => by rw [h.ports q], fun q => by rw [h.ports q]⟩

theorem sameLines_unhanded (p : PortId) (s : State) : SameLines (unplugged p s) (unhanded p s) :=
  ((releaseTouches_onlyStrips ..).sameLines.trans (sameLines_releaseClaims ..)).trans (endRoles_onlyPass ..).sameLines

theorem port_unplugged (p q : PortId) (s : State) :
    (unplugged p s).port q =
      if p = q then
        { s.port q with attached := false, replySlot := none, shiftOut := [], transaction := (s.port q).transaction.overtaken }
      else s.port q := port_modPort ..

/-- After a detach port `p` is empty, and the others have taken DETACH where they are attached. -/
theorem port_detachPort (p q : PortId) (s : State) :
    (detachPort p s).port q =
      if q = p then PortState.fresh false ((unhanded p s).port p).transaction
      else ((unhanded p s).port q).raised .detach := by
  rw [detachPort_eq, raiseElsewhere, port_mapPorts]
  by_cases h : q = p
  · subst h; simp
  · simp [h]

theorem attached_detachPort (p q : PortId) (s : State) :
    ((detachPort p s).port q).attached = if q = p then false else (s.port q).attached := by
  rw [port_detachPort]
  split
  · rfl
  · next other => rw [raised_attached, (sameLines_unhanded p s).attached, port_unplugged, if_neg (Ne.symm other)]

/-! ### A detach is sound -/

theorem unheldBy_some {p q : PortId} {h : Option PortId} (e : unheldBy p h = some q) : h = some q ∧ q ≠ p := by
  unfold unheldBy at e
  split at e
  · cases e
  · next other => exact ⟨e, fun h => other (h ▸ e)⟩

theorem handsLaw_detachPort {p : PortId} {s : State} (law : s.HandsLaw) : (detachPort p s).HandsLaw := by
  have attached : ∀ q, q ≠ p → s.isAttached q → (detachPort p s).isAttached q := fun q other h => by
    rw [State.isAttached, attached_detachPort, if_neg other]; exact h
  have touches : ∀ {n q}, ((detachPort p s).strip n).toucher = some q → (s.strip n).toucher = some q ∧ q ≠ p := by
    intro n q h
    rw [(hands_detachPort p s n).2] at h
    exact unheldBy_some h
  have holds : ∀ {n q}, ((detachPort p s).strip n).holder = some q → (s.strip n).holder = some q ∧ q ≠ p := by
    intro n q h
    rw [(hands_detachPort p s n).1] at h
    exact unheldBy_some h
  refine ⟨fun n q h => ?_, fun n q h => ?_, fun n q r h k => ?_, fun b q h => ?_⟩
  · exact attached q (holds h).2 (law.holder_attached n q (holds h).1)
  · exact attached q (touches h).2 (law.toucher_attached n q (touches h).1)
  · exact law.toucher_is_holder n q r (holds h).1 (touches k).1
  · rw [bus_detachPort] at h
    exact attached q (unheldBy_some h).2 (law.bus_holder_attached b q (unheldBy_some h).1)

theorem sound_releaseTouches (p : PortId) (s : State) : Sound s (releaseTouches p s) :=
  eachStrip_sound (fun n t => sound_liftTouch p n t) s

theorem unheldBy_or (p : PortId) (h : Option PortId) : unheldBy p h = none ∨ unheldBy p h = h := by
  unfold unheldBy; split
  · exact .inl rfl
  · exact .inr rfl

theorem hand_unheldBy {p q : PortId} {h : Option PortId} (e : unheldBy p h = some q) : h = some q := (unheldBy_some e).1

theorem sound_releaseClaims (p : PortId) (s : State) : Sound s (releaseClaims p s) := by
  have values : s.ValuesLaw → (releaseClaims p s).ValuesLaw := fun law => by
    obtain ⟨strips, gains, rest⟩ := (valuesLaw_iff s).mp law
    refine (valuesLaw_iff _).mpr ⟨fun n => ?_, fun b => ?_, rest⟩
    · rw [strip_releaseClaims]
      exact ⟨(strips n).1, (strips n).2, (strips n).3, (strips n).4, (strips n).5⟩
    · rw [bus_releaseClaims]; exact gains b
  refine ⟨fun _ law => law, fun law => ?_, fun law => ?_, cellsLaw_congr values rfl⟩
  · obtain ⟨strips, buses⟩ := (handsLaw_iff s).mp law
    refine (handsLaw_iff _).mpr ⟨fun n => ?_, fun b q h => ?_⟩
    · rw [strip_releaseClaims]
      exact ⟨fun q h => (strips n).holder q (hand_unheldBy h), (strips n).toucher,
        fun q r h k => (strips n).same q r (hand_unheldBy h) k⟩
    · rw [bus_releaseClaims] at h
      exact buses b q (hand_unheldBy h)
  · obtain ⟨strips, rest⟩ := (pansLaw_iff s).mp law
    refine (pansLaw_iff _).mpr ⟨fun n => ?_, rest⟩
    rw [strip_releaseClaims]
    exact strip_pansLaw_congr rfl rfl ⟨(strips n).1, (strips n).2, (strips n).3, (strips n).4⟩

/-- From the moment the port is off, its touches, claims and roles end soundly. -/
theorem sound_unhanded (p : PortId) (s : State) : Sound (unplugged p s) (unhanded p s) :=
  ((sound_releaseTouches ..).trans (sound_releaseClaims ..)).trans (sound_endRoles ..)

theorem snapshots_unplugged (p : PortId) (s : State) :
    ∀ q, ∀ k ∈ ((unplugged p s).port q).recallStack, k ∈ (s.port q).recallStack := by
  intro q k hk
  rw [port_unplugged] at hk
  split at hk <;> exact hk

theorem emptied_snapshots (p : PortId) (u : State) :
    ∀ q, ∀ k ∈ ((emptied p u).port q).recallStack, k ∈ (u.port q).recallStack := by
  intro q k hk
  rw [emptied, raiseElsewhere, port_mapPorts] at hk
  split at hk
  · next e => subst e; rw [port_modPort_self] at hk; cases hk
  · next other => rwa [raised_eq, port_modPort_ne _ _ other] at hk

theorem emptied_blocks (p : PortId) (u : State) :
    (emptied p u).busTable = u.busTable ∧ (emptied p u).engine = u.engine ∧ (emptied p u).playback = u.playback :=
  ⟨rfl, rfl, rfl⟩

theorem snapshots_detachPort (p : PortId) (s : State) :
    ∀ q, ∀ k ∈ ((detachPort p s).port q).recallStack, k ∈ ((unhanded p s).port q).recallStack :=
  emptied_snapshots p (unhanded p s)

theorem detachPort_rest (p : PortId) (s : State) :
    (detachPort p s).busTable = (unhanded p s).busTable ∧ (detachPort p s).engine = (unhanded p s).engine ∧
      (detachPort p s).playback = (unhanded p s).playback := emptied_blocks p (unhanded p s)

theorem sound_detachPort (p : PortId) (s : State) : Sound s (detachPort p s) := by
  obtain ⟨table, engine, playback⟩ := detachPort_rest p s
  have cues : CuesFrom (unhanded p s) (detachPort p s) := cuesFrom_of_eq (by rw [playback])
  have bus : ∀ b, (detachPort p s).bus b = (unhanded p s).bus b := fun b => by rw [State.bus, State.bus, table]
  refine ⟨fun q law => ?_, handsLaw_detachPort, fun law => ?_, fun law => ?_⟩
  · rw [port_detachPort]
    split
    · refine law_fresh false fun _ => ?_
      rw [(sameLines_unhanded p s).transaction, port_unplugged, if_pos rfl]
      exact overtaken_ne_opened _
    · next other =>
      refine (tended_raised _ _).law ((sound_unhanded p s).port q ?_)
      rwa [port_unplugged, if_neg (Ne.symm other)]
  · have off : (unplugged p s).PansLaw :=
      pansLaw_congr (s := s) rfl rfl rfl (cuesFrom_of_eq rfl) (snapshots_unplugged p s) law
    exact pansLaw_congr (strips_detachPort p s) (by rw [table]) (by rw [table]) cues (snapshots_detachPort p s)
      ((sound_unhanded p s).pans off)
  · have off : (unplugged p s).CellsLaw := cellsLaw_congr
      (valuesLaw_congr (s := s) rfl (fun _ => rfl) (cuesFrom_of_eq rfl) (snapshots_unplugged p s)) rfl law
    exact cellsLaw_congr (valuesLaw_congr (strips_detachPort p s) (fun b => by rw [bus]) cues (snapshots_detachPort p s))
      engine ((sound_unhanded p s).cells off)

/-- Every event is sound. -/
theorem Event.sound {s t : State} (e : Event s t) : Sound s t := by
  cases e with
  | ports rest port => exact sound_ports rest port
  | deed attached d => exact d.sound attached
  | reset rate present => exact sound_reset rate present s
  | attach detached => exact sound_attach
  | detach attached => exact sound_detachPort _ s
  | audio turn => exact sound_withAudio _ s
  | engine => exact sound_enginePeriod s
  | frames => exact sound_audio _ s
  | timeline v => exact sound_timelinePeriod v s

theorem sound_pending (s : State) (l : List Instr) : Sound s { s with pending := l } :=
  sound_of_blocks rfl (cuesFrom_of_eq rfl)

/-! ### The statements -/

/-- Settles O5: every event is sound for hands, a detach by what it leaves of them. -/
theorem stepKeepsHoldersAndTouchersLawful : Obligations.StepKeepsHoldersAndTouchersLawful := by
  intro s t law h
  exact step_keeps (fun l law => (sound_pending _ l).hands law) (fun law e => e.sound.hands law) law h

/-- Settles O6: every event tends the ports. -/
theorem stepKeepsPortsWithinTheirSizes : Obligations.StepKeepsPortsWithinTheirSizes := by
  intro s t law h
  exact step_keeps (fun l law q => (sound_pending _ l).port q (law q)) (fun law e q => e.sound.port q (law q)) law h

/-- Settles O7: every event is sound for pans. -/
theorem stepKeepsPansAndSourcesLawful : Obligations.StepKeepsPansAndSourcesLawful := by
  intro s t law h
  exact step_keeps (fun l law => (sound_pending _ l).pans law) (fun law e => e.sound.pans law) law h

/-- Settles O8: every event is sound for cells and for the values that form their targets. -/
theorem stepKeepsCellsOnTheirRamps : Obligations.StepKeepsCellsOnTheirRamps := by
  intro s t law h
  exact step_keeps (fun l law => (sound_pending _ l).cells law) (fun law e => e.sound.cells law) law h

end Sys2Proof.Machine

/-!
PROOFS. Every step keeps the target of every cell the one its record forms (R9, R10, R34 to R36).
-/
namespace Sys2Proof.Machine

/-! ### The cells of one strip -/

/-- The targets of the cells of strip `n` are those that its record forms. -/
def State.TargetsAt (s : State) (n : StripNo) : Prop := ∀ c : Channel, ((s.cells n)[c]).target = s.target n c

/-- The target of every gain cell is the one that its bus forms (R35). -/
def State.GainTargets (s : State) : Prop := ∀ b : BusNo, (s.engine.gainCells[b]).target = (s.bus b).gainTarget

theorem targetsLaw_iff (s : State) : s.TargetsLaw ↔ (∀ n, s.TargetsAt n) ∧ s.GainTargets :=
  ⟨fun h => ⟨h.strip_targets, h.gain_targets⟩, fun ⟨h, g⟩ => ⟨h, g⟩⟩

/-- What the targets of strip `n` are formed from, used values and cells apart: its destination and the widths. -/
structure SameRoute (n : StripNo) (s t : State) : Prop where
  dest : (t.strip n).dest = (s.strip n).dest
  premix : t.busTable.premixWidth = s.busTable.premixWidth
  master : t.busTable.masterWidth = s.busTable.masterWidth

theorem SameRoute.target {n : StripNo} {s t : State} (h : SameRoute n s t) (used : t.used n = s.used n) (c : Channel) :
    t.target n c = s.target n c := target_of_used used h.dest h.premix h.master c

/-- Used values, route and cells as they were leave the targets in step. -/
theorem targetsAt_of_used {n : StripNo} {s t : State} (route : SameRoute n s t) (used : t.used n = s.used n)
    (cells : t.cells n = s.cells n) (h : s.TargetsAt n) : t.TargetsAt n := fun c => by
  rw [cells, route.target used]
  exact h c

/-- A hand-off of the used values brings the targets in step, where cells and route are as before. -/
theorem targetsAt_handRetarget {before s : State} {n : StripNo} (route : SameRoute n before s)
    (cells : s.cells n = before.cells n) (h : before.TargetsAt n) : (handRetarget before n s).TargetsAt n := fun c => by
  have only := handRetarget_onlyCells before n s
  have same : (handRetarget before n s).target n c = s.target n c :=
    target_congr (only.strip n) (by rw [only.playback]) (by rw [only.busTable]) (by rw [only.busTable]) c
  rw [same]
  exact handRetarget_targets (fun c => by rw [cells]; exact h c) (fun used c => route.target used c) c

theorem OnlyAt.sameRoute {n : StripNo} {s t : State} (h : OnlyAt n s t) (dest : (t.strip n).dest = (s.strip n).dest) :
    SameRoute n s t := ⟨dest, by rw [h.busTable], by rw [h.busTable]⟩

/-- An operation on strip `n` keeps the targets law where it keeps it at strip `n`. -/
theorem OnlyAt.targetsLaw {n : StripNo} {s t : State} (h : OnlyAt n s t) (at_strip : s.TargetsAt n → t.TargetsAt n)
    (law : s.TargetsLaw) : t.TargetsLaw := by
  obtain ⟨strips, gains⟩ := (targetsLaw_iff s).mp law
  refine (targetsLaw_iff t).mpr ⟨fun m => ?_, fun b => ?_⟩
  · by_cases e : m = n
    · exact e ▸ at_strip (strips n)
    · refine targetsAt_of_used ⟨by rw [h.strips m e], by rw [h.busTable], by rw [h.busTable]⟩ ?_ (h.cells m e) (strips m)
      exact used_congr (h.strips m e) (by rw [h.playback])
  · rw [h.engine, State.bus, h.busTable]
    exact gains b

/-- What reads neither strips, cells, widths nor the pass leaves the targets law. -/
theorem targetsLaw_congr {s t : State} (law : s.TargetsLaw) (strips : t.strips = s.strips) (engine : t.engine = s.engine)
    (busTable : t.busTable = s.busTable) (pass : t.playback.passOpen = s.playback.passOpen) : t.TargetsLaw := by
  refine ⟨fun n c => ?_, fun b => ?_⟩
  · rw [State.cells, engine, target_congr (s := s) (strip_of_strips strips n) pass (by rw [busTable]) (by rw [busTable])]
    exact law.strip_targets n c
  · rw [engine, State.bus, busTable]
    exact law.gain_targets b

/-! ### The writing block -/

theorem used_punched {passOpen : Bool} {r : Strip} {w : WriteState} (h : w.punched = r.writeState.punched) :
    Strip.used passOpen { r with writeState := w } = r.used passOpen := by
  unfold Strip.used
  dsimp only
  rw [h]
  rfl

theorem targetsAt_setWriteState {n : StripNo} {w : WriteState} {s : State}
    (punched : w.punched = (s.strip n).writeState.punched) (h : s.TargetsAt n) : (setWriteState n w s).TargetsAt n := by
  refine targetsAt_of_used ((OnlyAt.setWriteState n w s).sameRoute ?_) ?_ rfl h
  · rw [setWriteState, strip_modStrip_self]
  · rw [State.used, State.used, setWriteState, strip_modStrip_self]
    exact used_punched punched

theorem targetsAt_punchIn {n : StripNo} {s : State} (h : s.TargetsAt n) : (punchIn n s).TargetsAt n := by
  have only : OnlyAt n s (appendTake (punchInRecord s.timeline.counter n (s.loaded n)) (s.setStrip n (s.loaded n))) :=
    (OnlyAt.modStrip n _ s).trans (.appendTake n _ _)
  refine targetsAt_handRetarget (only.sameRoute ?_) ?_ h
  · rw [appendTake_strip, strip_setStrip_self]; rfl
  · rw [appendTake_cells]; rfl

theorem cells_endPunch (reason : PunchReason) (mode : Mode) (n m : StripNo) (w : WriteState) (s : State) :
    (endPunch reason mode n w s).cells m = s.cells m := appendTake_cells ..

theorem sameRoute_endPunch (reason : PunchReason) (mode : Mode) (n : StripNo) (w : WriteState) (s : State) :
    SameRoute n s (endPunch reason mode n w s) :=
  (OnlyAt.endPunch reason mode n w s).sameRoute (by rw [strip_endPunch])

theorem targetsAt_punchOut {reason : PunchReason} {n : StripNo} {w : WriteState} {s : State} (h : s.TargetsAt n) :
    (punchOut reason n w s).TargetsAt n :=
  targetsAt_handRetarget (sameRoute_endPunch ..) (cells_endPunch ..) h

theorem targetsAt_triggerRise {n : StripNo} {s : State} (h : s.TargetsAt n) : (triggerRise n s).TargetsAt n := by
  unfold triggerRise
  split
  · next ready =>
    split
    · exact targetsAt_punchIn h
    · exact targetsAt_setWriteState (by rw [ready]; rfl) h
  · next latched =>
    split
    · exact targetsAt_setWriteState (by rw [latched]; rfl) h
    · exact h
  all_goals exact h

theorem targetsAt_triggerFall {n : StripNo} {s : State} (h : s.TargetsAt n) : (triggerFall n s).TargetsAt n := by
  unfold triggerFall
  split
  · next wait => exact targetsAt_setWriteState (by rw [wait]; rfl) h
  · exact targetsAt_punchOut h
  · exact targetsAt_punchOut h
  · next writing _ => exact targetsAt_setWriteState (by rw [writing]; rfl) h
  · exact h

theorem targetsAt_triggerChange {before : State} {n : StripNo} {s : State} (h : s.TargetsAt n) :
    (triggerChange before n s).TargetsAt n := by
  unfold triggerChange
  split
  · split
    · exact targetsAt_triggerRise h
    · exact targetsAt_triggerFall h
  · exact h

theorem targetsAt_fallStrip {reason : PunchReason} {n : StripNo} {s : State} (h : s.TargetsAt n) :
    (fallStrip reason n s).TargetsAt n := by
  unfold fallStrip
  split
  · split
    · exact targetsAt_punchOut h
    · exact targetsAt_punchOut h
    · next wait =>
      split
      · exact targetsAt_setWriteState (by rw [wait]; rfl) h
      · exact h
    all_goals exact h
  · exact h

theorem targetsAt_riseStrip {n : StripNo} {s : State} (h : s.TargetsAt n) : (riseStrip n s).TargetsAt n := by
  unfold riseStrip
  split
  · exact targetsAt_punchIn h
  · exact h

theorem targetsAt_changeMode {n : StripNo} {m : Mode} {s : State} (h : s.TargetsAt n) :
    (changeMode n m s).TargetsAt n := by
  unfold changeMode
  dsimp only
  split
  · exact h
  · split
    · refine targetsAt_handRetarget ⟨?_, ?_, ?_⟩ ?_ h
      · rw [strip_endPunch, strip_modStrip_self]
      · rw [(OnlyAt.endPunch ..).busTable]; rfl
      · rw [(OnlyAt.endPunch ..).busTable]; rfl
      · rw [cells_endPunch]; rfl
    · refine targetsAt_handRetarget ⟨?_, rfl, rfl⟩ rfl h
      rw [setWriteState, strip_modStrip_self, strip_modStrip_self]

theorem targetsAt_changeToucher {n : StripNo} {t : Option PortId} {s : State} (h : s.TargetsAt n) :
    (changeToucher n t s).TargetsAt n := by
  refine targetsAt_triggerChange (targetsAt_of_used (s := s) ⟨?_, rfl, rfl⟩ ?_ rfl h)
  · rw [strip_modStrip_self]
  · rw [State.used, State.used, strip_modStrip_self]; rfl

/-- What follows the retarget of an accepted change, the trigger change apart. -/
theorem OnlyAt.changed (p : PortId) (n : StripNo) (r : Strip) (written : List FieldValue) (reported : Bool) (s : State) :
    OnlyAt n s (Machine.changed p n r written reported s) := by
  have retargeted : OnlyAt n s (Machine.handRetarget s n (s.setStrip n r)) :=
    (OnlyAt.modStrip n _ s).trans (.handRetarget s n _)
  have recorded : OnlyAt n s (if (s.strip n).writeState.punched then
      Machine.recordMoves p n written (Machine.handRetarget s n (s.setStrip n r))
      else Machine.handRetarget s n (s.setStrip n r)) := by
    split
    · exact retargeted.trans (.recordMoves ..)
    · exact retargeted
  unfold Machine.changed
  dsimp only
  split
  · exact recorded.trans (.report ..)
  · exact recorded

theorem recordMoves_cells (p : PortId) (n m : StripNo) (l : List FieldValue) (s : State) :
    (recordMoves p n l s).cells m = s.cells m := by
  unfold recordMoves
  induction l generalizing s with
  | nil => rfl
  | cons v rest ih => exact (ih _).trans (appendTake_cells ..)

/-- The cells after an accepted change, before its trigger change and cut: the retarget alone. -/
theorem changed_cells (p : PortId) (n m : StripNo) (r : Strip) (written : List FieldValue) (reported : Bool) (s : State) :
    (changed p n r written reported s).cells m = (handRetarget s n (s.setStrip n r)).cells m := by
  unfold changed
  dsimp only
  split <;> split <;> simp only [report_cells, recordMoves_cells]

theorem targetsAt_changed {p : PortId} {n : StripNo} {r : Strip} {s : State} (dest : r.dest = (s.strip n).dest)
    (written : List FieldValue) (reported : Bool) (h : s.TargetsAt n) : (changed p n r written reported s).TargetsAt n := by
  have retargeted : (handRetarget s n (s.setStrip n r)).TargetsAt n :=
    targetsAt_handRetarget ⟨by rw [strip_setStrip_self, dest], rfl, rfl⟩ rfl h
  have only := OnlyAt.changed p n r written reported s
  have before : (handRetarget s n (s.setStrip n r)).strip n = r := by rw [handRetarget_strip, strip_setStrip_self]
  have table := (handRetarget_onlyCells s n (s.setStrip n r)).busTable
  have playback := (handRetarget_onlyCells s n (s.setStrip n r)).playback
  refine targetsAt_of_used ⟨?_, ?_, ?_⟩ ?_ (changed_cells ..) retargeted
  · rw [changed_strip, before]
  · rw [only.busTable, table]; rfl
  · rw [only.busTable, table]; rfl
  · exact used_congr ((changed_strip ..).trans before.symm) (by rw [only.playback, playback]; rfl)

theorem targetsAt_writeChange {p : PortId} {n : StripNo} {r : Strip} {s : State} (dest : r.dest = (s.strip n).dest)
    (written : List FieldValue) (reported : Bool) (h : s.TargetsAt n) :
    (writeChange p n r written reported s).TargetsAt n :=
  targetsAt_triggerChange (targetsAt_changed dest written reported h)

/-- A cut leaves the targets in step whatever they were (R10, R39). -/
theorem targetsAt_cut {before s : State} {n : StripNo} (route : routeChanged (before.strip n) (s.strip n) = true) :
    (handCut before n s).TargetsAt n := fun c => by
  have only := handCut_onlyCells before n s
  rw [cells_handCut route, target_congr (only.strip n) (by rw [only.playback]) (by rw [only.busTable])
    (by rw [only.busTable]) c]
  rfl

/-- The end of a request: cut where the route changed, and else as the request's retargets left the targets. -/
theorem targetsAt_handCut {before s : State} {n : StripNo}
    (steady : routeChanged (before.strip n) (s.strip n) = false → s.TargetsAt n) : (handCut before n s).TargetsAt n := by
  rcases handCut_cases before n s with ⟨route, -⟩ | ⟨route, same⟩
  · exact targetsAt_cut route
  · rw [same]; exact steady route

theorem dest_of_steady {r r' : Strip} (h : routeChanged r r' = false) : r'.dest = r.dest := by
  simp only [routeChanged, Bool.or_eq_false_iff, bne_eq_false_iff_eq] at h
  exact h.1.2.symm

theorem Strip.SameSetting.dest {r r' : Strip} (h : r.SameSetting r') : r'.dest = r.dest := by rw [h]

theorem writeChange_dest (p : PortId) (n : StripNo) (r : Strip) (written : List FieldValue) (reported : Bool)
    (s : State) : ((writeChange p n r written reported s).strip n).dest = r.dest := by
  have setting := sameSetting_triggerChange s n n (changed p n r written reported s)
  rw [changed_strip] at setting
  exact setting.dest

theorem changeMode_dest (n : StripNo) (m : Mode) (s : State) :
    ((changeMode n m s).strip n).dest = (s.strip n).dest := by
  unfold changeMode
  dsimp only
  split
  · rfl
  · rw [handRetarget_strip]
    split
    · rw [strip_endPunch, strip_modStrip_self]
    · rw [setWriteState, strip_modStrip_self, strip_modStrip_self]

theorem targetsAt_change {p : PortId} {n : StripNo} {r : Strip} {s : State} (written : List FieldValue)
    (reported : Bool) (m : Mode) (h : s.TargetsAt n) :
    (handCut s n (changeMode n m (writeChange p n r written reported s))).TargetsAt n := by
  refine targetsAt_handCut fun route => targetsAt_changeMode (targetsAt_writeChange ?_ written reported h)
  have dest := dest_of_steady route
  rwa [changeMode_dest, writeChange_dest] at dest

theorem targetsAt_commit {p : PortId} {n : StripNo} {r : Strip} {s : State} (written : List FieldValue)
    (reported : Bool) (h : s.TargetsAt n) : (commit p n r written reported s).TargetsAt n := by
  refine targetsAt_handCut fun route => targetsAt_writeChange ?_ written reported h
  have dest := dest_of_steady route
  rwa [writeChange_dest] at dest

/-! ### Walks over the strips -/

theorem eachStrip_targetsLaw {f : StripNo → State → State} (only : ∀ n t, OnlyAt n t (f n t))
    (keeps : ∀ n t, t.TargetsAt n → (f n t).TargetsAt n) {s : State} (law : s.TargetsLaw) :
    (eachStrip f s).TargetsLaw :=
  eachStrip_keeps (P := State.TargetsLaw) (fun n t h => (only n t).targetsLaw (keeps n t) h) law

theorem targetsLaw_recount {reason : PunchReason} {s : State} (law : s.TargetsLaw) : (recount reason s).TargetsLaw := by
  unfold recount
  dsimp only
  split
  · exact law
  · have counted := targetsLaw_congr (t := s.modTimeline fun tl =>
      { tl with counting := s.timeline.roll.filtered && s.timeline.settle == 0 }) law rfl rfl rfl rfl
    split
    · exact eachStrip_targetsLaw (fun n t => .riseStrip n t) (fun n t => targetsAt_riseStrip) counted
    · exact eachStrip_targetsLaw (fun n t => .fallStrip reason n t) (fun n t => targetsAt_fallStrip) counted

theorem targetsLaw_modTimeline {f : Timeline → Timeline} {s : State} (law : s.TargetsLaw) :
    (s.modTimeline f).TargetsLaw := targetsLaw_congr law rfl rfl rfl rfl

theorem targetsLaw_flush {s : State} (law : s.TargetsLaw) : (flushFromTimeline s).TargetsLaw := by
  rw [flushFromTimeline_eq]
  exact targetsLaw_congr law rfl rfl rfl rfl

theorem targetsLaw_locateTo {frame : Nat} {reason : PunchReason} {s : State} (law : s.TargetsLaw) :
    (locateTo frame reason s).TargetsLaw := targetsLaw_recount (targetsLaw_flush (targetsLaw_modTimeline law))

theorem setShadow_dest (v : FieldValue) (r : Strip) : (r.setShadow v).dest = r.dest := by cases v <;> rfl

theorem targetsLaw_applyCue {c : Cue} {s : State} (law : s.TargetsLaw) : (applyCue c s).TargetsLaw := by
  refine (OnlyAt.applyCue c s).targetsLaw (fun h => targetsAt_handRetarget ⟨?_, rfl, rfl⟩ rfl h) law
  rw [strip_modStrip_self, setShadow_dest]

theorem targetsLaw_withCues {q : List Cue} {s : State} (law : s.TargetsLaw) : (s.withCues q).TargetsLaw :=
  targetsLaw_congr law rfl rfl rfl rfl

theorem targetsLaw_arrivalScan {q : List Cue} {s : State} (law : s.TargetsLaw) : (arrivalScan q s).TargetsLaw := by
  induction q generalizing s with
  | nil => exact targetsLaw_withCues law
  | cons c rest ih =>
    unfold arrivalScan
    split
    · exact ih (targetsLaw_applyCue law)
    · exact targetsLaw_withCues law

theorem targetsLaw_boundaryHeads {q : List Cue} {s : State} (law : s.TargetsLaw) : (boundaryHeads q s).TargetsLaw := by
  induction q generalizing s with
  | nil => exact targetsLaw_withCues law
  | cons c rest ih =>
    unfold boundaryHeads
    split
    · exact ih (targetsLaw_congr law rfl rfl rfl rfl)
    · split
      · exact ih (targetsLaw_applyCue law)
      · exact targetsLaw_withCues law

theorem targetsLaw_ports {s t : State} (rest : t = { s with ports := t.ports }) (law : s.TargetsLaw) : t.TargetsLaw :=
  targetsLaw_congr law (by rw [rest]) (by rw [rest]) (by rw [rest]) (by rw [rest])

theorem targetsLaw_raiseAtRole {r : Reason} {o : Option PortId} {s : State} (law : s.TargetsLaw) :
    (raiseAtRole r o s).TargetsLaw := targetsLaw_ports (raiseAtRole_eq ..) law

theorem targetsLaw_boundary {s : State} (law : s.TargetsLaw) : (boundary s).TargetsLaw := by
  unfold boundary
  split
  · exact targetsLaw_ports (s := locateTo s.timeline.loopStart .loop s) rfl (targetsLaw_locateTo law)
  · unfold boundaryScan
    dsimp only
    have scanned := targetsLaw_boundaryHeads (q := s.playback.cues) (targetsLaw_modTimeline (f := fun tl =>
      { tl with phase := 0, counter := nextFrame tl.reverse tl.counter }) law)
    split
    · exact targetsLaw_raiseAtRole scanned
    · exact scanned

theorem targetsLaw_advanceTimeline {s : State} (law : s.TargetsLaw) : (advanceTimeline s).TargetsLaw := by
  unfold advanceTimeline
  split
  · exact targetsLaw_recount (targetsLaw_modTimeline law)
  · split
    · split
      · exact targetsLaw_boundary law
      · exact targetsLaw_modTimeline law
    · exact law

theorem targetsLaw_handPunch {filtered : Bool} {s : State} (law : s.TargetsLaw) : (handPunch filtered s).TargetsLaw := by
  refine eachStrip_targetsLaw (fun n t => .punchLineStrip s n t) (fun n t h => ?_) (targetsLaw_modTimeline law)
  unfold punchLineStrip
  split
  · exact targetsAt_triggerChange h
  · exact h

theorem targetsLaw_timelinePeriod {v : LineLevels} {s : State} (law : s.TargetsLaw) :
    (timelinePeriod v s).TargetsLaw := by
  have turned : ∀ {t : State}, t.TargetsLaw → (turnStage v s.timeline t).TargetsLaw := fun law => by
    unfold turnStage; split
    · exact targetsLaw_locateTo (targetsLaw_modTimeline law)
    · exact law
  have rolled : ∀ {t : State}, t.TargetsLaw → (rollStage v s.timeline t).TargetsLaw := fun law => by
    unfold rollStage; split
    · exact targetsLaw_recount law
    · exact law
  have advanced : ∀ {t : State}, t.TargetsLaw → (advanceStage v s.timeline t).TargetsLaw := fun law => by
    unfold advanceStage; split
    · exact law
    · exact targetsLaw_advanceTimeline law
  have punched : ∀ {t : State}, t.TargetsLaw → (punchStage v s.timeline t).TargetsLaw := fun law => by
    unfold punchStage; split
    · exact targetsLaw_handPunch law
    · exact law
  rw [timelinePeriod_eq]
  exact punched (advanced (rolled (turned (targetsLaw_modTimeline law))))

/-- The hand-off of every strip brings all targets in step, where cells, routes and gains are as before (R110, R111). -/
theorem targetsLaw_handEvery {before s : State} (law : before.TargetsLaw) (routes : ∀ n, SameRoute n before s)
    (engine : s.engine = before.engine) (busTable : s.busTable = before.busTable) : (handEvery before s).TargetsLaw := by
  obtain ⟨strips, gains⟩ := (targetsLaw_iff before).mp law
  have only := handEvery_onlyCells before s
  refine (targetsLaw_iff _).mpr ⟨fun n => ?_, fun b => ?_⟩
  · obtain ⟨t, others, strip, cells, -, turned⟩ :=
      eachStrip_turn (f := handRetarget before) (fun n t => .handRetarget before n t) n s
    have at_turn : (handRetarget before n t).TargetsAt n := by
      refine targetsAt_handRetarget ⟨?_, ?_, ?_⟩ ?_ (strips n)
      · rw [strip, (routes n).dest]
      · rw [others.busTable, (routes n).premix]
      · rw [others.busTable, (routes n).master]
      · rw [cells, State.cells, engine]; rfl
    intro c
    have same : (handEvery before s).target n c = (handRetarget before n t).target n c := by
      refine target_congr ?_ ?_ ?_ ?_ c
      · rw [only.strip, handRetarget_strip, strip]
      · rw [only.playback, (handRetarget_onlyCells before n t).playback, others.playback]
      · rw [only.busTable, (handRetarget_onlyCells before n t).busTable, others.busTable]
      · rw [only.busTable, (handRetarget_onlyCells before n t).busTable, others.busTable]
    rw [same, ← at_turn c]
    exact congrArg (fun v => (v[c]).target) turned
  · rw [only.engine, only.bus, State.bus, busTable, engine]
    exact gains b

/-! ### Opening and closing the pass, and a detach -/

theorem eachStrip_engine {f : StripNo → State → State} (h : ∀ n t, (f n t).engine = t.engine) (s : State) :
    (eachStrip f s).engine = s.engine :=
  eachStrip_keeps (P := fun t => t.engine = s.engine) (fun n t ht => (h n t).trans ht) rfl

theorem armStrip_engine (n : StripNo) (s : State) : (armStrip n s).engine = s.engine := by
  unfold armStrip; split <;> rfl

theorem endPunch_engine (reason : PunchReason) (mode : Mode) (n : StripNo) (w : WriteState) (s : State) :
    (endPunch reason mode n w s).engine = s.engine := appendTake_engine ..

theorem disarmStrip_engine (n : StripNo) (s : State) : (disarmStrip n s).engine = s.engine := by
  unfold disarmStrip
  split
  · split
    · exact endPunch_engine ..
    · rfl
  · rfl

theorem sameSettings_armStrip (n : StripNo) (s : State) : SameSettings s (armStrip n s) := fun m => by
  unfold armStrip
  split
  · exact sameSetting_setWriteState ..
  · exact .refl _

theorem targetsLaw_openPassBy {p : PortId} {low high : Nat} {s : State} (law : s.TargetsLaw) :
    (openPassBy p low high s).TargetsLaw := by
  have only := eachStrip_armStrip_onlyStrips (passOpened p low high s)
  have settings := eachStrip_sameSettings sameSettings_armStrip (passOpened p low high s)
  rw [openPassBy_eq]
  refine targetsLaw_handEvery law (fun n => ⟨?_, ?_, ?_⟩) ?_ ?_
  · exact (settings n).dest
  · rw [only.busTable]; rfl
  · rw [only.busTable]; rfl
  · exact eachStrip_engine armStrip_engine _
  · exact only.busTable

theorem disarmed_engine (s : State) : (disarmed s).engine = s.engine := eachStrip_engine disarmStrip_engine _

theorem disarmed_busTable (s : State) : (disarmed s).busTable = s.busTable := (disarmed_frame s).busTable

theorem passClosed_blocks (s : State) :
    (passClosed s).engine = s.engine ∧ (passClosed s).busTable = s.busTable ∧ (passClosed s).strips = s.strips :=
  ⟨rfl, rfl, rfl⟩

theorem targetsLaw_closePassNow {s : State} (law : s.TargetsLaw) : (closePassNow s).TargetsLaw := by
  obtain ⟨engine, table, strips⟩ := passClosed_blocks (disarmed s)
  rw [closePassNow_disarmed]
  refine targetsLaw_handEvery law (fun n => ⟨?_, ?_, ?_⟩) ?_ ?_
  · rw [strip_of_strips strips]; exact (sameSettings_disarmed s n).dest
  · rw [table, disarmed_busTable]
  · rw [table, disarmed_busTable]
  · rw [engine, disarmed_engine]
  · rw [table, disarmed_busTable]

theorem targetsLaw_discardTakes {s : State} (law : s.TargetsLaw) : (discardTakes s).TargetsLaw :=
  targetsLaw_congr law rfl rfl rfl rfl

theorem targetsLaw_endRoles {p : PortId} {s : State} (law : s.TargetsLaw) : (endRoles p s).TargetsLaw := by
  unfold endRoles
  split
  · exact targetsLaw_discardTakes (targetsLaw_closePassNow law)
  · split
    · exact targetsLaw_discardTakes law
    · exact law

/-- Used values do not depend on the hands of a record. -/
theorem targetsLaw_releaseClaims {p : PortId} {s : State} (law : s.TargetsLaw) : (releaseClaims p s).TargetsLaw := by
  obtain ⟨strips, gains⟩ := (targetsLaw_iff s).mp law
  refine (targetsLaw_iff _).mpr ⟨fun n => targetsAt_of_used (s := s) ⟨?_, rfl, rfl⟩ ?_ rfl (strips n), fun b => ?_⟩
  · rw [strip_releaseClaims]
  · rw [State.used, State.used, strip_releaseClaims]; rfl
  · rw [bus_releaseClaims]; exact gains b

theorem targetsAt_liftTouch {p : PortId} {n : StripNo} {s : State} (h : s.TargetsAt n) :
    (liftTouch p n s).TargetsAt n := by
  unfold liftTouch
  split
  · exact targetsAt_changeToucher h
  · exact h

theorem targetsLaw_emptied {p : PortId} {u : State} (law : u.TargetsLaw) : (emptied p u).TargetsLaw :=
  targetsLaw_congr law rfl rfl rfl rfl

theorem targetsLaw_detachPort {p : PortId} {s : State} (law : s.TargetsLaw) : (detachPort p s).TargetsLaw := by
  have off : (unplugged p s).TargetsLaw := targetsLaw_congr law rfl rfl rfl rfl
  have lifted : (releaseTouches p (unplugged p s)).TargetsLaw := by
    rw [releaseTouches_eq]
    exact eachStrip_targetsLaw (fun n t => .liftTouch p n t) (fun n t => targetsAt_liftTouch) off
  rw [detachPort_emptied]
  exact targetsLaw_emptied (targetsLaw_endRoles (targetsLaw_releaseClaims lifted))

/-! ### Widths and gains -/

/-- A retarget under new widths brings the targets of the strips concerned in step; no other target changes (R36, R49). -/
theorem retargetWhere_targetsAt {concerns : Dest → Bool} {s t : State} (strips : t.strips = s.strips)
    (engine : t.engine.stripCells = s.engine.stripCells) (pass : t.playback.passOpen = s.playback.passOpen)
    (width : ∀ d, concerns d = false → t.busTable.destWidth d = s.busTable.destWidth d) {n : StripNo}
    (h : s.TargetsAt n) : (retargetWhere concerns t).TargetsAt n := by
  have only := retargetWhere_onlyCells concerns t
  obtain ⟨u, others, strip, cells, -, turned⟩ := eachStrip_turn
    (f := fun n t => if concerns (t.strip n).dest then retargetStrip n t else t) (fun n t => .sweepRetarget concerns n t) n t
  intro c
  have goal : (retargetWhere concerns t).target n c = t.target n c :=
    target_congr (only.strip n) (by rw [only.playback]) (by rw [only.busTable]) (by rw [only.busTable]) c
  have read : (retargetWhere concerns t).cells n =
      (if concerns (u.strip n).dest then retargetStrip n u else u).cells n := turned
  rw [goal]
  by_cases feeds : concerns (u.strip n).dest = true
  · rw [if_pos feeds] at read
    rw [read, cells_retargetStrip, if_pos rfl, retarget_target, others.target strip]
  · rw [if_neg feeds] at read
    have same : t.target n c = s.target n c := by
      rw [State.target, State.target, State.used, State.used, pass, strip_of_strips strips,
        width _ (by rw [← strip_of_strips strips, ← strip]; simpa using feeds)]
    rw [read, cells, State.cells, engine, same]
    exact h c

theorem gainTargets_retargetGain {b : BusNo} {s : State}
    (h : ∀ a, a ≠ b → (s.engine.gainCells[a]).target = (s.bus a).gainTarget) : (retargetGain b s).GainTargets := by
  intro a
  rw [gainCells_retargetGain]
  split
  · rw [retarget_target]; rfl
  · next other => exact h a (Ne.symm other)

theorem targetsAt_retargetGain {b : BusNo} {s : State} {n : StripNo} (h : s.TargetsAt n) :
    (retargetGain b s).TargetsAt n := targetsAt_of_used (s := s) ⟨rfl, rfl, rfl⟩ rfl rfl h

theorem width_writeBus {b : BusNo} {c : BusChange} {t : BusTable} {d : Dest}
    (spared : (writeBus b c t).busWidth b = t.busWidth b ∨ feedsBus b d = false) :
    (writeBus b c t).destWidth d = t.destWidth d := by
  rw [writeBus_destWidth]
  cases d with
  | none => rfl
  | stem k => rfl
  | premix k =>
    by_cases hk : k.val = b.val
    · rcases spared with same | apart
      · rw [busWidth_premix _ hk, busWidth_premix _ hk, writeBus_premixWidth] at same
        exact congrArg some same
      · simp [feedsBus, hk] at apart
    · simp [hk, BusTable.destWidth]

theorem targetsLaw_applyBus {b : BusNo} {c : BusChange} {s : State} (law : s.TargetsLaw) :
    (applyBus b c s).TargetsLaw := by
  obtain ⟨strips, gains⟩ := (targetsLaw_iff s).mp law
  have others : ∀ (t : State), t.engine.gainCells = s.engine.gainCells → t.busTable = writeBus b c s.busTable →
      (retargetGain b t).GainTargets := fun t cells table => gainTargets_retargetGain fun a other => by
    rw [cells, State.bus, table, writeBus_bus, if_neg (Ne.symm other)]
    exact gains a
  unfold applyBus
  dsimp only
  split
  · next same =>
    refine (targetsLaw_iff _).mpr ⟨fun n => targetsAt_retargetGain fun k => ?_, others _ rfl rfl⟩
    have target : ({ s with busTable := writeBus b c s.busTable } : State).target n k = s.target n k := by
      rw [State.target, State.target]
      exact congrArg (fun w => targetOf (s.used n) w _) (width_writeBus (.inl same))
    rw [target]
    exact strips n k
  · have only := retargetWhere_onlyCells (feedsBus b) { s with busTable := writeBus b c s.busTable }
    refine (targetsLaw_iff _).mpr ⟨fun n => targetsAt_retargetGain ?_, others _ ?_ ?_⟩
    · exact retargetWhere_targetsAt (s := s) (t := { s with busTable := writeBus b c s.busTable }) rfl rfl rfl
        (fun d apart => width_writeBus (.inr apart)) (strips n)
    · rw [only.engine]
    · rw [only.busTable]

theorem targetsLaw_applyMaster {w : Nat} {s : State} (law : s.TargetsLaw) : (applyMaster w s).TargetsLaw := by
  obtain ⟨strips, gains⟩ := (targetsLaw_iff s).mp law
  by_cases same : w = s.busTable.masterWidth
  · rw [applyMaster, if_pos same]; exact law
  · have only := retargetWhere_onlyCells feedsStem { s with busTable := mastered w s.busTable }
    rw [applyMaster_mastered same]
    refine (targetsLaw_iff _).mpr ⟨fun n => ?_, fun b => ?_⟩
    · refine retargetWhere_targetsAt (s := s) (t := { s with busTable := mastered w s.busTable }) rfl rfl rfl
        (fun d apart => ?_) (strips n)
      rw [mastered_destWidth]
      cases d with
      | stem k => cases apart
      | none | premix => rfl
    · rw [only.engine, only.bus, bus_mastered]
      exact gains b

/-! ### Requests and events -/

theorem targetsLaw_modHolder {h : Option PortId} {o : Object} {s : State} (law : s.TargetsLaw) :
    (setHolder h o s).TargetsLaw := by
  cases o with
  | strip n =>
    refine (OnlyAt.modStrip n (fun r => { r with holder := h }) s).targetsLaw (fun at_strip => ?_) law
    refine targetsAt_of_used (s := s) ⟨?_, rfl, rfl⟩ ?_ rfl at_strip
    · rw [strip_modStrip_self]
    · rw [State.used, State.used, strip_modStrip_self]; rfl
  | bus b =>
    obtain ⟨strips, gains⟩ := (targetsLaw_iff s).mp law
    refine (targetsLaw_iff _).mpr ⟨fun n => strips n, fun a => ?_⟩
    rw [setHolder, bus_modBus]
    have target : ∀ x : Bus, Bus.gainTarget { x with holder := h } = x.gainTarget := fun _ => rfl
    split
    · rw [target]; exact gains a
    · exact gains a

theorem targetsLaw_busTable {s : State} {t : BusTable} (premix : t.premixWidth = s.busTable.premixWidth)
    (master : t.masterWidth = s.busTable.masterWidth)
    (gains : ∀ b : BusNo, t.buses[b].gainTarget = s.busTable.buses[b].gainTarget) (law : s.TargetsLaw) :
    ({ s with busTable := t } : State).TargetsLaw :=
  (targetsLaw_iff _).mpr ⟨fun n => targetsAt_of_used (s := s) ⟨rfl, premix, master⟩ rfl rfl (law.strip_targets n),
    fun b => (law.gain_targets b).trans (gains b).symm⟩

theorem Deed.targetsLaw {p : PortId} {s t : State} (d : Deed p s t) (law : s.TargetsLaw) : t.TargetsLaw := by
  cases d with
  | ports rest port transaction => exact targetsLaw_ports rest law
  | @change n r _ revised written reported m =>
    exact (OnlyAt.change p n r written reported m s).targetsLaw (targetsAt_change written reported m) law
  | mode n m => exact (OnlyAt.changeMode n m s).targetsLaw targetsAt_changeMode law
  | @putBack k rest _ top passed =>
    have popped : (setRecall p rest s).TargetsLaw := targetsLaw_congr law rfl rfl rfl rfl
    refine (recallApply_onlyAt p k (setRecall p rest s)).targetsLaw (fun at_strip => ?_) popped
    unfold recallApply
    dsimp only
    split
    · exact at_strip
    · exact targetsAt_commit _ _ at_strip
  | bus passed gain => exact targetsLaw_applyBus law
  | master passed => exact targetsLaw_applyMaster law
  | clips set =>
    exact targetsLaw_busTable (t := clearClips set s.busTable) (by simp only [clearClips]) (by simp only [clearClips])
      (fun b => by simp [clearClips, Bus.gainTarget]) law
  | meters hold => exact targetsLaw_busTable rfl rfl (fun _ => rfl) law
  | hold held touched => exact targetsLaw_modHolder law
  | unhold o => exact targetsLaw_modHolder law
  | @yield o q _ holder target =>
    refine targetsLaw_modHolder ?_
    cases o with
    | strip n => exact (OnlyAt.liftTouch p n s).targetsLaw targetsAt_liftTouch law
    | bus b => exact law
  | touch free => exact (OnlyAt.changeToucher _ _ s).targetsLaw targetsAt_changeToucher law
  | untouch n => exact (OnlyAt.changeToucher n none s).targetsLaw targetsAt_changeToucher law
  | locate range => exact targetsLaw_locateTo law
  | openPass passed low high => exact targetsLaw_openPassBy law
  | closePass port => exact targetsLaw_closePassNow law
  | cue port read passed => exact targetsLaw_arrivalScan law
  | ramp v => exact ⟨fun n c => law.strip_targets n c, fun b => law.gain_targets b⟩
  | save | line | loop | rate | stale | take | patch => exact targetsLaw_congr law rfl rfl rfl rfl

theorem targetsLaw_afterReset (rate : SampleRate) (ports : Vector PortState 4) :
    (State.afterReset rate ports).TargetsLaw := by
  refine ⟨fun n c => ?_, fun b => ?_⟩
  · rw [cell_afterReset, State.target, State.used, strip_afterReset]; rfl
  · rw [gainCell_afterReset, bus_afterReset]; rfl

/-- The steps of stage 2 keep every target (R38). -/
theorem targetsLaw_stepped {s : State} {e : Engine}
    (cells : e.stripCells = s.engine.stripCells.map fun v => v.map Cell.advance)
    (gains : e.gainCells = s.engine.gainCells.map Cell.advance) (law : s.TargetsLaw) :
    ({ s with engine := e } : State).TargetsLaw := by
  refine ⟨fun n c => ?_, fun b => ?_⟩
  · have h := law.strip_targets n c
    simp only [State.cells, cells, Fin.getElem_fin, Vector.getElem_map, advance_target] at h ⊢
    exact h
  · have h := law.gain_targets b
    simp only [gains, Fin.getElem_fin, Vector.getElem_map, advance_target] at h ⊢
    exact h

theorem targetsLaw_takeSaturation {sat : Saturated} {s : State} (law : s.TargetsLaw) :
    (takeSaturation sat s).TargetsLaw := by
  rw [takeSaturation_eq]
  refine targetsLaw_ports (s := { s with busTable := setClips sat s.busTable }) rfl ?_
  exact targetsLaw_busTable (t := setClips sat s.busTable) (by simp only [setClips]) (by simp only [setClips])
    (fun b => by rw [bus_setClips]; rfl) law

theorem targetsLaw_enginePeriod {s : State} (law : s.TargetsLaw) : (enginePeriod s).TargetsLaw := by
  have stepped := targetsLaw_stepped (mix_stripCells s) (mix_gainCells s) law
  have levels := targetsLaw_busTable (t := takeLevels s.tickDue s.mix.handed s.busTable) (by simp only [takeLevels])
    (by simp only [takeLevels]) (fun b => by simp only [takeLevels]) stepped
  rw [enginePeriod_taken]
  generalize s.mix = m at *
  exact targetsLaw_takeSaturation (targetsLaw_congr levels rfl rfl rfl rfl)

theorem Event.targetsLaw {s t : State} (e : Event s t) (law : s.TargetsLaw) : t.TargetsLaw := by
  cases e with
  | ports rest port => exact targetsLaw_ports rest law
  | deed attached d => exact d.targetsLaw law
  | reset rate present => exact targetsLaw_congr (targetsLaw_afterReset rate
      (Vector.ofFn fun p => PortState.fresh present[p] (s.port p).transaction.overtaken)) rfl rfl rfl rfl
  | detach attached => exact targetsLaw_detachPort law
  | audio turn => rw [withAudio_eq]; exact targetsLaw_congr law rfl rfl rfl rfl
  | engine => exact targetsLaw_enginePeriod law
  | timeline v => exact targetsLaw_timelinePeriod law
  | attach | frames => exact targetsLaw_congr law rfl rfl rfl rfl

/-- Settles O9: every change of a used value ends with its hand-off, every change of a route with a cut, and every change
of a width or a gain with its retargets. -/
theorem stepKeepsTargetsInStepWithRecords : Obligations.StepKeepsTargetsInStepWithRecords := by
  intro s t law h
  exact step_keeps (fun _ law => targetsLaw_congr law rfl rfl rfl rfl) (fun law e => e.targetsLaw law) law h

end Sys2Proof.Machine

/-!
PROOFS. Every step keeps the cue queue in play order, ahead of the frame counter, and empty under a closed pass (R114,
R116 to R122).
-/
namespace Sys2Proof.Machine

/-! ### Play order -/

theorem inPlayOrder_trans {reverse : Bool} {c d e : Cue} (h : inPlayOrder reverse c d) (k : inPlayOrder reverse d e) :
    inPlayOrder reverse c e := by
  unfold inPlayOrder at *
  split at h <;> simp_all <;> omega

theorem ahead_of_inPlayOrder {reverse : Bool} {c d : Cue} {f : Nat} (h : ahead reverse c.frame f)
    (k : inPlayOrder reverse c d) : ahead reverse d.frame f := by
  unfold inPlayOrder at k
  unfold ahead at *
  split at h <;> simp_all <;> omega

theorem inPlayOrder_of_not_behind {reverse : Bool} {c d : Cue} (h : behind reverse d.frame c.frame = false) :
    inPlayOrder reverse c d := by
  unfold inPlayOrder
  unfold behind at h
  split at h <;> simp_all

theorem ahead_of_not_behind {reverse : Bool} {f g : Nat} (h : behind reverse f g = false) (ne : f ≠ g) :
    ahead reverse f g := by
  unfold ahead
  unfold behind at h
  split at h <;> simp_all <;> omega

theorem not_behind_of_ahead {reverse : Bool} {f g : Nat} (h : ahead reverse f g) :
    behind reverse f g = false ∧ f ≠ g := by
  unfold ahead at h
  unfold behind
  split at h <;> simp_all <;> omega

/-- Where the head of a queue in play order lies ahead of a frame, the whole queue does. -/
theorem all_ahead_of_head {reverse : Bool} {c : Cue} {rest : List Cue} {f : Nat}
    (order : (c :: rest).Pairwise (inPlayOrder reverse)) (h : ahead reverse c.frame f) :
    ∀ d ∈ c :: rest, ahead reverse d.frame f := by
  intro d hd
  rcases List.mem_cons.mp hd with e | e
  · exact e ▸ h
  · exact ahead_of_inPlayOrder h (List.rel_of_pairwise_cons order e)

/-! ### The law of the cue queue -/

/-- The cues law as a law of the playback block under a direction and a frame counter. -/
structure Playback.Lawful (reverse : Bool) (counter : Nat) (b : Playback) : Prop where
  size : b.cues.length ≤ 1024
  play_order : b.cues.Pairwise (inPlayOrder reverse)
  cues_ahead : ∀ c ∈ b.cues, ahead reverse c.frame counter
  closed_empty : b.passOpen = false → b.cues = []
  port_iff_open : b.passPort.isSome = b.passOpen

theorem cuesLaw_iff (s : State) : s.CuesLaw ↔ s.playback.Lawful s.timeline.reverse s.timeline.counter :=
  ⟨fun h => ⟨h.size, h.play_order, h.cues_ahead, h.closed_empty, h.port_iff_open⟩,
    fun h => ⟨h.size, h.play_order, h.cues_ahead, h.closed_empty, h.port_iff_open⟩⟩

theorem cuesLaw_congr {s t : State} (law : s.CuesLaw) (playback : t.playback = s.playback)
    (reverse : t.timeline.reverse = s.timeline.reverse) (counter : t.timeline.counter = s.timeline.counter) :
    t.CuesLaw := by
  rw [cuesLaw_iff] at *
  rwa [playback, reverse, counter]

theorem cuesLaw_of_timeline {s t : State} (law : s.CuesLaw) (playback : t.playback = s.playback)
    (timeline : t.timeline = s.timeline) : t.CuesLaw :=
  cuesLaw_congr law playback (by rw [timeline]) (by rw [timeline])

theorem OnlyStrips.cuesLaw {s t : State} (h : OnlyStrips s t) (law : s.CuesLaw) : t.CuesLaw :=
  cuesLaw_of_timeline law h.playback h.timeline

theorem OnlyAt.cuesLaw {n : StripNo} {s t : State} (h : OnlyAt n s t) (law : s.CuesLaw) : t.CuesLaw :=
  h.onlyStrips.cuesLaw law

/-- An empty queue is lawful at every frame. -/
theorem cuesLaw_of_empty {t : State} (empty : t.playback.cues = []) (port : t.playback.passPort.isSome = t.playback.passOpen) :
    t.CuesLaw where
  size := by rw [empty]; exact Nat.zero_le _
  play_order := by rw [empty]; exact .nil
  cues_ahead c hc := by rw [empty] at hc; cases hc
  closed_empty _ := empty
  port_iff_open := port

theorem recount_playback (reason : PunchReason) (s : State) : (recount reason s).playback = s.playback :=
  (recount_frame reason s).playback

theorem locateTo_playback (frame : Nat) (reason : PunchReason) (s : State) :
    (locateTo frame reason s).playback = { s.playback with cues := [] } := by
  rw [locateTo, recount_playback, flushFromTimeline_eq]
  rfl

theorem cuesLaw_locateTo {s : State} (port : s.playback.passPort.isSome = s.playback.passOpen) (frame : Nat)
    (reason : PunchReason) : (locateTo frame reason s).CuesLaw := by
  have playback := locateTo_playback frame reason s
  exact cuesLaw_of_empty (by rw [playback]) (by rw [playback]; exact port)

theorem cuesLaw_recount {s : State} (law : s.CuesLaw) (reason : PunchReason) : (recount reason s).CuesLaw :=
  cuesLaw_congr law (recount_playback ..) (by rw [recount_timeline]; rfl) (by rw [recount_timeline]; rfl)

/-! ### A cue on arrival -/

/-- What the steps of R116 let pass. -/
structure Examined (s : State) (c : Cue) : Prop where
  order : ∀ tail, s.playback.cues.getLast? = some tail → inPlayOrder s.timeline.reverse tail c
  late : s.playback.cues = [] → behind s.timeline.reverse c.frame s.timeline.counter = false
  full : s.playback.cues.length < 1024

theorem examined_of_passed {field : CueField} {rc : ReadCue} {s : State} (read : readCue field = some rc)
    (passed : examineCue field s = none) : Examined s rc.cue := by
  simp only [examineCue, read, firstFailure_cons_none, failIf_none] at passed
  obtain ⟨order, late, -, full, -⟩ := passed
  refine ⟨fun tail last => ?_, fun empty => ?_, ?_⟩
  · rw [last] at order
    exact inPlayOrder_of_not_behind order
  · simpa [empty] using late
  · exact Nat.lt_of_not_le (of_decide_eq_false full)

/-- A cue that passes R116 stands after every queued one. -/
theorem Examined.after {s : State} {c : Cue} (h : Examined s c)
    (order : s.playback.cues.Pairwise (inPlayOrder s.timeline.reverse)) :
    ∀ d ∈ s.playback.cues, inPlayOrder s.timeline.reverse d c := by
  intro d hd
  have ne : s.playback.cues ≠ [] := List.ne_nil_of_mem hd
  have last := h.order _ (List.getLast?_eq_some_getLast ne)
  rw [← List.dropLast_append_getLast ne] at hd order
  rcases List.mem_append.mp hd with before | tail
  · exact inPlayOrder_trans ((List.pairwise_append.mp order).2.2 d before _ (List.mem_singleton.mpr rfl)) last
  · rw [List.mem_singleton.mp tail]; exact last

theorem cuesLaw_queueCue {c : Cue} {s : State} (law : s.CuesLaw) (isOpen : s.playback.passOpen = true) (h : Examined s c) :
    (queueCue c s).CuesLaw := by
  have playback := queueCue_playback c s
  have timeline := queueCue_timeline c s
  have order : (s.playback.cues ++ [c]).Pairwise (inPlayOrder s.timeline.reverse) :=
    List.pairwise_append.mpr ⟨law.play_order, List.pairwise_singleton _ _,
      fun d hd e he => List.mem_singleton.mp he ▸ h.after law.play_order d hd⟩
  have tail := (List.dropWhile_sublist (l := s.playback.cues ++ [c])
    (fun c => decide (c.frame = s.timeline.counter)))
  rw [cuesLaw_iff, playback, timeline]
  refine ⟨?_, order.sublist tail, fun d hd => ?_, fun closed => ?_, law.port_iff_open⟩
  · have := h.full
    exact tail.length_le.trans (by simp; omega)
  · rcases List.eq_nil_or_concat s.playback.cues with empty | some_cue
    · rw [empty, List.nil_append] at hd
      by_cases now : c.frame = s.timeline.counter
      · simp [now] at hd
      · have same : d = c := by simpa [now] using hd
        rw [same]
        exact ahead_of_not_behind (h.late empty) now
    · rcases List.mem_append.mp (tail.subset hd) with queued | new
      · exact law.cues_ahead d queued
      · obtain ⟨_, e, he⟩ := some_cue
        have member : e ∈ s.playback.cues := by rw [he]; simp
        rw [List.mem_singleton.mp new]
        exact ahead_of_inPlayOrder (law.cues_ahead e member) (h.after law.play_order e member)
  · exact absurd closed (by simp [isOpen])

/-! ### A frame boundary -/

/-- A boundary scan takes the heads that are behind the counter or at it (R119). -/
theorem boundaryHeads_cues (q : List Cue) (s : State) :
    (boundaryHeads q s).playback.cues =
      q.dropWhile fun c => behind s.timeline.reverse c.frame s.timeline.counter || decide (c.frame = s.timeline.counter) := by
  induction q generalizing s with
  | nil => rfl
  | cons c rest ih =>
    unfold boundaryHeads
    split
    · next late =>
      rw [List.dropWhile_cons_of_pos (by simp [late])]
      exact ih (countStale s)
    · next fresh =>
      split
      · next now =>
        have := ih (applyCue c s)
        rw [(OnlyAt.applyCue c s).timeline] at this
        simpa [now] using this
      · next later => simp [fresh, later, State.withCues]

/-- What a scan leaves of a queue in play order lies ahead. -/
theorem dropWhile_ahead {reverse : Bool} {f : Nat} {q : List Cue} (order : q.Pairwise (inPlayOrder reverse)) :
    ∀ c ∈ q.dropWhile (fun c => behind reverse c.frame f || decide (c.frame = f)), ahead reverse c.frame f := by
  induction q with
  | nil => intro c hc; cases hc
  | cons d rest ih =>
    by_cases taken : (behind reverse d.frame f || decide (d.frame = f)) = true
    · rw [List.dropWhile_cons_of_pos (by exact taken)]
      exact ih (List.pairwise_cons.mp order).2
    · rw [List.dropWhile_cons_of_neg (by exact taken)]
      simp only [Bool.or_eq_true, decide_eq_true_eq, not_or, Bool.not_eq_true] at taken
      exact all_ahead_of_head order (ahead_of_not_behind taken.1 taken.2)

theorem boundaryScan_playback (s : State) : (boundaryScan s).playback = (boundaryHeads s.playback.cues s).playback := by
  unfold boundaryScan
  dsimp only
  split
  · rw [raiseAtRole_eq]
  · rfl

/-- A boundary scan leaves the law whatever the frame was before (R119). -/
theorem cuesLaw_boundaryScan {s : State} (size : s.playback.cues.length ≤ 1024)
    (order : s.playback.cues.Pairwise (inPlayOrder s.timeline.reverse))
    (closed : s.playback.passOpen = false → s.playback.cues = [])
    (port : s.playback.passPort.isSome = s.playback.passOpen) : (boundaryScan s).CuesLaw := by
  have cues := boundaryHeads_cues s.playback.cues s
  have frame := (boundaryHeads_onlyRun s.playback.cues s).playback
  have tail := List.dropWhile_sublist (l := s.playback.cues) (fun c =>
    behind s.timeline.reverse c.frame s.timeline.counter || decide (c.frame = s.timeline.counter))
  rw [cuesLaw_iff, boundaryScan_playback, boundaryScan_timeline]
  refine ⟨?_, ?_, ?_, fun shut => ?_, ?_⟩
  · rw [cues]; exact tail.length_le.trans size
  · rw [cues]; exact order.sublist tail
  · rw [cues]; exact dropWhile_ahead order
  · rw [frame] at shut
    rw [cues, closed shut]; rfl
  · rw [frame]; exact port

theorem cuesLaw_boundary {s : State} (law : s.CuesLaw) : (boundary s).CuesLaw := by
  unfold boundary
  split
  · exact cuesLaw_of_timeline (cuesLaw_locateTo law.port_iff_open ..) rfl rfl
  · exact cuesLaw_boundaryScan law.size law.play_order law.closed_empty law.port_iff_open

theorem cuesLaw_advanceTimeline {s : State} (law : s.CuesLaw) : (advanceTimeline s).CuesLaw := by
  unfold advanceTimeline
  split
  · exact cuesLaw_recount (s := s.modTimeline fun tl => { tl with settle := tl.settle - 1 })
      (cuesLaw_congr law rfl rfl rfl) _
  · split
    · split
      · exact cuesLaw_boundary law
      · exact cuesLaw_congr law rfl rfl rfl
    · exact law

theorem cuesLaw_handPunch {s : State} (law : s.CuesLaw) (filtered : Bool) : (handPunch filtered s).CuesLaw :=
  (eachStrip_onlyStrips (fun n t => .punchLineStrip s n t) _).cuesLaw (cuesLaw_congr law rfl rfl rfl)

theorem cuesLaw_timelinePeriod {v : LineLevels} {s : State} (law : s.CuesLaw) : (timelinePeriod v s).CuesLaw := by
  have filtered : (s.modTimeline (filterLines v)).CuesLaw := cuesLaw_congr law rfl rfl rfl
  have turned : ∀ {t : State}, t.CuesLaw → (turnStage v s.timeline t).CuesLaw := fun {t} law => by
    unfold turnStage; split
    · exact cuesLaw_locateTo (s := t.modTimeline fun tl => { tl with reverse := tl.rev.filtered }) law.port_iff_open ..
    · exact law
  have rolled : ∀ {t : State}, t.CuesLaw → (rollStage v s.timeline t).CuesLaw := fun law => by
    unfold rollStage; split
    · exact cuesLaw_recount law _
    · exact law
  have advanced : ∀ {t : State}, t.CuesLaw → (advanceStage v s.timeline t).CuesLaw := fun law => by
    unfold advanceStage; split
    · exact law
    · exact cuesLaw_advanceTimeline law
  have punched : ∀ {t : State}, t.CuesLaw → (punchStage v s.timeline t).CuesLaw := fun law => by
    unfold punchStage; split
    · exact cuesLaw_handPunch law _
    · exact law
  rw [timelinePeriod_eq]
  exact punched (advanced (rolled (turned filtered)))

/-! ### The pass, and a detach -/

theorem closed_of_openPass {s : State} (passed : openPassFailure s = none) : s.playback.passOpen = false := by
  simp only [openPassFailure, firstFailure_cons_none, failIf_none] at passed
  exact passed.1

theorem cuesLaw_openPassBy {p : PortId} {low high : Nat} {s : State} (law : s.CuesLaw)
    (passed : openPassFailure s = none) : (openPassBy p low high s).CuesLaw := by
  have playback := (openPassBy_frame p low high s).playback
  refine cuesLaw_of_empty ?_ ?_
  · rw [playback]; exact law.closed_empty (closed_of_openPass passed)
  · rw [playback]; rfl

theorem passClosed_playback (s : State) :
    (passClosed s).playback = { s.playback with passOpen := false, passPort := none } := rfl

/-- A close of the pass leaves its marks and its stale count (R111). -/
theorem closePassNow_playback (s : State) :
    (closePassNow s).playback = { s.playback with passOpen := false, passPort := none, cues := [] } := by
  rw [(closePassNow_onlyCells s).playback, passClosed_playback, (disarmed_frame s).playback]
  rfl

theorem cuesLaw_closePassNow (s : State) : (closePassNow s).CuesLaw := by
  have playback := closePassNow_playback s
  exact cuesLaw_of_empty (by rw [playback]) (by rw [playback]; rfl)

theorem discardTakes_blocks (s : State) :
    (discardTakes s).playback = s.playback ∧ (discardTakes s).timeline = s.timeline := ⟨rfl, rfl⟩

theorem cuesLaw_discardTakes {s : State} (law : s.CuesLaw) : (discardTakes s).CuesLaw :=
  cuesLaw_of_timeline law (discardTakes_blocks s).1 (discardTakes_blocks s).2

theorem cuesLaw_endRoles {p : PortId} {s : State} (law : s.CuesLaw) : (endRoles p s).CuesLaw := by
  unfold endRoles
  split
  · exact cuesLaw_discardTakes (cuesLaw_closePassNow s)
  · split
    · exact cuesLaw_discardTakes law
    · exact law

theorem emptied_timeline (p : PortId) (u : State) : (emptied p u).timeline = u.timeline := rfl

theorem releaseClaims_playback (p : PortId) (s : State) : (releaseClaims p s).playback = s.playback := rfl

theorem cuesLaw_detachPort {p : PortId} {s : State} (law : s.CuesLaw) : (detachPort p s).CuesLaw := by
  have off : (unplugged p s).CuesLaw := cuesLaw_congr law rfl rfl rfl
  have released : (releaseClaims p (releaseTouches p (unplugged p s))).CuesLaw :=
    cuesLaw_of_timeline ((releaseTouches_onlyStrips ..).cuesLaw off) (releaseClaims_playback ..)
      (releaseClaims_timeline ..)
  rw [detachPort_emptied]
  exact cuesLaw_of_timeline (cuesLaw_endRoles released) (emptied_blocks p _).2.2 (emptied_timeline p _)

/-! ### Requests and events -/

theorem setHolder_playback (h : Option PortId) (o : Object) (s : State) : (setHolder h o s).playback = s.playback := by
  cases o <;> rfl

theorem Deed.cuesLaw {p : PortId} {s t : State} (d : Deed p s t) (law : s.CuesLaw) : t.CuesLaw := by
  cases d with
  | ports rest port transaction => exact cuesLaw_of_timeline law (by rw [rest]) (by rw [rest])
  | @change n r _ revised written reported m => exact (OnlyAt.change p n r written reported m s).cuesLaw law
  | mode n m => exact (OnlyAt.changeMode n m s).cuesLaw law
  | @putBack k rest _ top passed =>
    exact (recallApply_onlyAt p k (setRecall p rest s)).cuesLaw (cuesLaw_congr law rfl rfl rfl)
  | bus passed gain => rw [applyBus_eq]; exact cuesLaw_congr law rfl rfl rfl
  | master passed => rw [applyMaster_eq]; exact cuesLaw_congr law rfl rfl rfl
  | hold | unhold => exact cuesLaw_of_timeline law (setHolder_playback ..) (setHolder_timeline ..)
  | @yield o q =>
    exact cuesLaw_of_timeline ((endTouch_onlyStrips p o s).cuesLaw law) (setHolder_playback ..) (setHolder_timeline ..)
  | touch free => exact (OnlyAt.changeToucher _ _ s).cuesLaw law
  | untouch n => exact (OnlyAt.changeToucher n none s).cuesLaw law
  | line l low filter => cases l <;> exact cuesLaw_congr law rfl rfl rfl
  | locate range => exact cuesLaw_locateTo law.port_iff_open ..
  | openPass passed low high => exact cuesLaw_openPassBy law passed
  | closePass port => exact cuesLaw_closePassNow s
  | cue port read passed =>
    exact cuesLaw_queueCue law (by rw [← law.port_iff_open, port]; rfl) (examined_of_passed read passed)
  | stale => exact ⟨law.size, law.play_order, law.cues_ahead, law.closed_empty, law.port_iff_open⟩
  | save | ramp | clips | meters | loop | rate | take | patch => exact cuesLaw_congr law rfl rfl rfl

theorem Event.cuesLaw {s t : State} (e : Event s t) (law : s.CuesLaw) : t.CuesLaw := by
  cases e with
  | ports rest port => exact cuesLaw_of_timeline law (by rw [rest]) (by rw [rest])
  | deed attached d => exact d.cuesLaw law
  | reset rate present => exact cuesLaw_of_empty rfl rfl
  | detach attached => exact cuesLaw_detachPort law
  | audio turn => rw [withAudio_eq]; exact cuesLaw_congr law rfl rfl rfl
  | engine => rw [enginePeriod_eq]; exact cuesLaw_congr law rfl rfl rfl
  | timeline v => exact cuesLaw_timelinePeriod law
  | attach | frames => exact cuesLaw_congr law rfl rfl rfl

/-- Settles O11: a cue enters behind the tail and ahead of the counter, and what moves the counter or the direction scans
or flushes the queue. -/
theorem stepKeepsCuesAheadInPlayOrder : Obligations.StepKeepsCuesAheadInPlayOrder := by
  intro s t law h
  exact step_keeps (fun _ law => cuesLaw_congr law rfl rfl rfl) (fun law e => e.cuesLaw law) law h

end Sys2Proof.Machine

/-!
PROOFS. Write states stay in step with arming, trigger and counting, and the roles of the pass with the take queue (R108,
R109, R112, R126 to R145).
-/
namespace Sys2Proof.Machine

/-! ### The write state law of a record -/

/-- The write state law of a record that is armed or not, under its trigger and the counting field. -/
structure Strip.WriteLaw (armed trigger counting : Bool) (r : Strip) : Prop where
  unarmed : armed = false → r.writeState = .off
  armed_on : armed = true → r.writeState ≠ .off
  waiting : r.writeState = .wait → trigger = true
  ready : r.writeState = .ready → trigger = false
  writing : r.writeState = .writing → trigger = true ∧ counting = true
  latched : r.writeState = .latched → trigger = false ∧ counting = true ∧ r.mode = .latch
  trim_unity : ¬(r.mode = .trim ∧ r.writeState = .writing) → r.trim = 16384

theorem writeLawAt_iff (s : State) (n : StripNo) :
    s.WriteLawAt n ↔ (s.strip n).WriteLaw (s.armed n) (s.trigger n) s.timeline.counting :=
  ⟨fun h => ⟨h.unarmed, h.armed, h.waiting, h.ready, h.writing, h.latched, h.trim_unity⟩,
    fun h => ⟨h.unarmed, h.armed_on, h.waiting, h.ready, h.writing, h.latched, h.trim_unity⟩⟩

/-- The trigger of a record while the timeline counts or not and filtered PUNCH is active or not (R127). -/
def Strip.triggered (counting punch : Bool) (r : Strip) : Bool :=
  match r.mode with
  | .write => counting
  | .touch | .latch | .trim => r.toucher.isSome || (r.linePunch && punch)
  | .live | .playback => false

theorem trigger_eq (s : State) (n : StripNo) :
    s.trigger n = (s.strip n).triggered s.timeline.counting s.timeline.punch.filtered := rfl

theorem triggered_write {r : Strip} (h : r.mode = .write) (counting punch : Bool) :
    r.triggered counting punch = counting := by simp [Strip.triggered, h]

theorem triggered_counting {r : Strip} (h : r.mode ≠ .write) (c c' punch : Bool) :
    r.triggered c punch = r.triggered c' punch := by
  unfold Strip.triggered
  split <;> simp_all

theorem triggered_punch {r : Strip} (h : r.mode = .write ∨ r.linePunch = false) (counting p p' : Bool) :
    r.triggered counting p = r.triggered counting p' := by
  unfold Strip.triggered
  split <;> simp_all

theorem Strip.SameSetting.triggered {r r' : Strip} (h : r.SameSetting r') (counting punch : Bool) :
    r'.triggered counting punch = r.triggered counting punch := by rw [h]; rfl

theorem Strip.SameSetting.mode {r r' : Strip} (h : r.SameSetting r') : r'.mode = r.mode := by rw [h]

/-- After an operation of the writing block on strip `n` the strip is armed and triggered as before it. -/
theorem writeLawAt_of_setting {n : StripNo} {s t : State} (only : OnlyAt n s t)
    (setting : (s.strip n).SameSetting (t.strip n))
    (law : (t.strip n).WriteLaw (s.armed n) (s.trigger n) s.timeline.counting) : t.WriteLawAt n := by
  have armed : t.armed n = s.armed n := by rw [State.armed, State.armed, only.playback, setting.mode]
  have trigger : t.trigger n = s.trigger n := by rw [trigger_eq, trigger_eq, only.timeline, setting.triggered]
  rw [writeLawAt_iff, armed, trigger, only.timeline]
  exact law

theorem armed_mode {s : State} {n : StripNo} (h : s.armed n = true) : (s.strip n).mode.writes = true :=
  (Bool.and_eq_true_iff.mp h).2

theorem armed_open {s : State} {n : StripNo} (h : s.armed n = true) : s.playback.passOpen = true :=
  (Bool.and_eq_true_iff.mp h).1

theorem strip_setWriteState (n : StripNo) (w : WriteState) (s : State) :
    (setWriteState n w s).strip n = { s.strip n with writeState := w } := strip_modStrip_self ..

/-! ### The write state machine (R132, R133) -/

/-- A trigger that rises on an armed strip leaves the law under the active trigger. -/
theorem writeLaw_triggerRise {n : StripNo} {s : State}
    (law : (s.strip n).WriteLaw true false s.timeline.counting) :
    ((triggerRise n s).strip n).WriteLaw true true s.timeline.counting := by
  have on := law.armed_on rfl
  unfold triggerRise
  split
  · next ready =>
    have unity := law.trim_unity (by simp [ready])
    split
    · next counting =>
      rw [strip_punchIn, counting]
      exact ⟨nofun, fun _ => nofun, nofun, nofun, fun _ => ⟨rfl, rfl⟩, nofun, fun _ => unity⟩
    · rw [strip_setWriteState]
      exact ⟨nofun, fun _ => nofun, fun _ => rfl, nofun, nofun, nofun, fun _ => unity⟩
  · next latched =>
    have counting := (law.latched latched).2.1
    have unity := law.trim_unity (by simp [latched])
    rw [if_pos counting, strip_setWriteState, counting]
    exact ⟨nofun, fun _ => nofun, nofun, nofun, fun _ => ⟨rfl, rfl⟩, nofun, fun _ => unity⟩
  · next off => exact absurd off on
  · next wait => cases law.waiting wait
  · next writing => cases (law.writing writing).1

/-- A trigger that falls on an armed strip whose mode is not WRITE leaves the law under the inactive trigger. -/
theorem writeLaw_triggerFall {n : StripNo} {s : State} (writes : (s.strip n).mode.writes = true)
    (ne : (s.strip n).mode ≠ .write) (law : (s.strip n).WriteLaw true true s.timeline.counting) :
    ((triggerFall n s).strip n).WriteLaw true false s.timeline.counting := by
  have on := law.armed_on rfl
  unfold triggerFall
  split
  · next wait =>
    have unity := law.trim_unity (by simp [wait])
    rw [strip_setWriteState]
    exact ⟨nofun, fun _ => nofun, nofun, fun _ => rfl, nofun, nofun, fun _ => unity⟩
  · next writing mode =>
    have unity := law.trim_unity (by simp [mode])
    rw [strip_punchOut]
    exact ⟨nofun, fun _ => nofun, nofun, fun _ => rfl, nofun, nofun, fun _ => by simp [mode, unity]⟩
  · next writing mode =>
    rw [strip_punchOut]
    exact ⟨nofun, fun _ => nofun, nofun, fun _ => rfl, nofun, nofun, fun _ => by simp [mode]⟩
  · next writing mode =>
    have unity := law.trim_unity (by simp [mode])
    have counting := (law.writing writing).2
    rw [strip_setWriteState]
    exact ⟨nofun, fun _ => nofun, nofun, nofun, nofun, fun _ => ⟨rfl, counting, mode⟩, fun _ => unity⟩
  · next not_wait not_touch not_trim not_latch =>
    exfalso
    cases hw : (s.strip n).writeState with
    | off => exact on hw
    | wait => exact not_wait hw
    | ready => cases law.ready hw
    | latched => cases (law.latched hw).1
    | writing =>
      cases hm : (s.strip n).mode with
      | write => exact ne hm
      | touch => exact not_touch hw hm
      | trim => exact not_trim hw hm
      | latch => exact not_latch hw hm
      | live | playback => rw [hm] at writes; cases writes

/-- The hand-off of a trigger brings a strip that was lawful under the trigger of `before` in step. -/
theorem writeLawAt_triggerChange {before s : State} {n : StripNo}
    (steady : (s.strip n).mode = .write → before.trigger n = s.trigger n)
    (law : (s.strip n).WriteLaw (s.armed n) (before.trigger n) s.timeline.counting) :
    (triggerChange before n s).WriteLawAt n := by
  refine writeLawAt_of_setting (OnlyAt.triggerChange ..) (sameSetting_triggerChange ..) ?_
  unfold triggerChange
  by_cases moved : (s.armed n && before.trigger n != s.trigger n) = true
  · rw [if_pos moved]
    obtain ⟨armed, differs⟩ := Bool.and_eq_true_iff.mp moved
    rw [armed] at law ⊢
    cases now : s.trigger n with
    | true =>
      have was : before.trigger n = false := by simpa [now] using differs
      rw [was] at law
      exact writeLaw_triggerRise law
    | false =>
      have was : before.trigger n = true := by simpa [now] using differs
      rw [was] at law
      refine writeLaw_triggerFall (armed_mode armed) (fun mode => ?_) law
      rw [steady mode, now] at was
      cases was
  · rw [if_neg moved]
    cases armed : s.armed n with
    | true =>
      have same : before.trigger n = s.trigger n := by simpa [armed] using moved
      rw [← same, ← armed]
      exact law
    | false =>
      have off := law.unarmed armed
      have unity := law.trim_unity (by simp [off])
      exact ⟨fun _ => off, nofun, by simp [off], by simp [off], by simp [off], by simp [off], fun _ => unity⟩

/-- A hand-off of an input of the trigger, from a state that differs in what the trigger does not read. -/
theorem writeLawAt_triggered {before s : State} {n : StripNo} (law : before.WriteLawAt n)
    (mode : (s.strip n).mode = (before.strip n).mode) (state : (s.strip n).writeState = (before.strip n).writeState)
    (trim : (s.strip n).trim = (before.strip n).trim ∨
      ((before.strip n).mode = .trim ∧ (before.strip n).writeState = .writing))
    (pass : s.playback.passOpen = before.playback.passOpen) (counting : s.timeline.counting = before.timeline.counting) :
    (triggerChange before n s).WriteLawAt n := by
  refine writeLawAt_triggerChange (fun write => ?_) ?_
  · rw [trigger_eq, trigger_eq, triggered_write write, triggered_write (mode ▸ write), counting]
  · have armed : s.armed n = before.armed n := by rw [State.armed, State.armed, pass, mode]
    have h := (writeLawAt_iff before n).mp law
    rw [armed, counting]
    refine ⟨state ▸ h.unarmed, state ▸ h.armed_on, state ▸ h.waiting, state ▸ h.ready, state ▸ h.writing, ?_, ?_⟩
    · rw [state, mode]; exact h.latched
    · rw [state, mode]
      intro other
      rcases trim with same | writing
      · rw [same]; exact h.trim_unity other
      · exact absurd writing other

/-! ### Take records -/

/-- The take queue stays within its size, and takes no record under a closed pass. -/
structure TakesKept (s t : State) : Prop where
  size : s.writing.takes.length ≤ 1024 → t.writing.takes.length ≤ 1024
  closed : s.playback.passOpen = false → t.writing.takes = s.writing.takes

theorem TakesKept.refl (s : State) : TakesKept s s := ⟨id, fun _ => rfl⟩

theorem TakesKept.trans {s t u : State} (pass : t.playback.passOpen = s.playback.passOpen) (h : TakesKept s t)
    (k : TakesKept t u) : TakesKept s u :=
  ⟨k.size ∘ h.size, fun closed => (k.closed (pass.trans closed)).trans (h.closed closed)⟩

theorem takesKept_of_writing {s t : State} (h : t.writing.takes = s.writing.takes) : TakesKept s t :=
  ⟨by rw [h]; exact id, fun _ => h⟩

/-- A take queue that stays within its size while the pass is open. -/
theorem takesKept_of_open {s t : State} (isOpen : s.playback.passOpen = true)
    (size : s.writing.takes.length ≤ 1024 → t.writing.takes.length ≤ 1024) : TakesKept s t :=
  ⟨size, fun closed => by rw [isOpen] at closed; cases closed⟩

theorem size_appendTake (r : TakeRecord) {s : State} (h : s.writing.takes.length ≤ 1024) :
    (appendTake r s).writing.takes.length ≤ 1024 := by
  rw [appendTake_takes]
  split
  · simp; omega
  · exact h

theorem size_recordMoves (p : PortId) (n : StripNo) (l : List FieldValue) {s : State}
    (h : s.writing.takes.length ≤ 1024) : (recordMoves p n l s).writing.takes.length ≤ 1024 := by
  unfold recordMoves
  induction l generalizing s with
  | nil => exact h
  | cons v rest ih => exact ih (size_appendTake _ h)

theorem size_punchIn (n : StripNo) {s : State} (h : s.writing.takes.length ≤ 1024) :
    (punchIn n s).writing.takes.length ≤ 1024 := by
  rw [punchIn, handRetarget_writing]
  exact size_appendTake _ (s := s.setStrip n (s.loaded n)) h

theorem size_endPunch (reason : PunchReason) (mode : Mode) (n : StripNo) (w : WriteState) {s : State}
    (h : s.writing.takes.length ≤ 1024) : (endPunch reason mode n w s).writing.takes.length ≤ 1024 :=
  size_appendTake _ h

theorem size_punchOut (reason : PunchReason) (n : StripNo) (w : WriteState) {s : State}
    (h : s.writing.takes.length ≤ 1024) : (punchOut reason n w s).writing.takes.length ≤ 1024 := by
  rw [punchOut, handRetarget_writing]
  exact size_endPunch _ _ _ _ h

theorem size_triggerRise (n : StripNo) {s : State} (h : s.writing.takes.length ≤ 1024) :
    (triggerRise n s).writing.takes.length ≤ 1024 := by
  unfold triggerRise
  split
  · split
    · exact size_punchIn n h
    · exact h
  · split <;> exact h
  all_goals exact h

theorem size_triggerFall (n : StripNo) {s : State} (h : s.writing.takes.length ≤ 1024) :
    (triggerFall n s).writing.takes.length ≤ 1024 := by
  unfold triggerFall
  split
  · exact h
  · exact size_punchOut _ n _ h
  · exact size_punchOut _ n _ h
  all_goals exact h

theorem takesKept_triggerChange (before : State) (n : StripNo) (s : State) : TakesKept s (triggerChange before n s) := by
  unfold triggerChange
  split
  · next moved =>
    have isOpen := armed_open (Bool.and_eq_true_iff.mp moved).1
    split
    · exact takesKept_of_open isOpen (size_triggerRise n)
    · exact takesKept_of_open isOpen (size_triggerFall n)
  · exact .refl s

theorem takesKept_fallStrip (reason : PunchReason) (n : StripNo) (s : State) : TakesKept s (fallStrip reason n s) := by
  unfold fallStrip
  split
  · next armed =>
    have isOpen := armed_open armed
    split
    · exact takesKept_of_open isOpen (size_punchOut reason n _)
    · exact takesKept_of_open isOpen (size_punchOut reason n _)
    · split <;> exact takesKept_of_writing rfl
    all_goals exact .refl s
  · exact .refl s

theorem takesKept_riseStrip (n : StripNo) (s : State) : TakesKept s (riseStrip n s) := by
  unfold riseStrip
  split
  · next rises =>
    simp only [Bool.and_eq_true] at rises
    exact takesKept_of_open (armed_open rises.1.1) (size_punchIn n)
  · exact .refl s

theorem eachStrip_takesKept {f : StripNo → State → State} (only : ∀ n t, OnlyAt n t (f n t))
    (keeps : ∀ n t, TakesKept t (f n t)) (s : State) : TakesKept s (eachStrip f s) := by
  refine (eachStrip_keeps (P := fun t => t.playback = s.playback ∧ TakesKept s t) (fun n t ht => ?_)
    ⟨rfl, .refl s⟩).2
  exact ⟨(only n t).playback.trans ht.1, ht.2.trans (by rw [ht.1]) (keeps n t)⟩

/-! ### Roles -/

/-- The roles law but for its clause about attached ports, which a detach breaks on its way. -/
structure State.RolesAgree (s : State) : Prop where
  port_iff_open : s.playback.passPort.isSome = s.playback.passOpen
  open_take_port : s.playback.passOpen = true → s.writing.takePort = s.playback.passPort
  takes_size : s.writing.takes.length ≤ 1024
  none_empty : s.writing.takePort = none → s.writing.takes = []
  closed_empty : s.playback.passOpen = false → s.writing.takes = [] → s.writing.takePort = none

theorem rolesLaw_iff (s : State) : s.RolesLaw ↔ s.RolesAgree ∧ ∀ p, s.writing.takePort = some p → s.isAttached p :=
  ⟨fun h => ⟨⟨h.port_iff_open, h.open_take_port, h.takes_size, h.none_empty, h.closed_empty⟩, h.take_port_attached⟩,
    fun ⟨h, attached⟩ => ⟨h.port_iff_open, h.open_take_port, attached, h.takes_size, h.none_empty, h.closed_empty⟩⟩

/-- The roles agree where they stand and the take queue is kept. -/
theorem rolesAgree_congr {s t : State} (law : s.RolesAgree) (passOpen : t.playback.passOpen = s.playback.passOpen)
    (passPort : t.playback.passPort = s.playback.passPort) (takePort : t.writing.takePort = s.writing.takePort)
    (kept : TakesKept s t) : t.RolesAgree where
  port_iff_open := by rw [passOpen, passPort]; exact law.port_iff_open
  open_take_port := by rw [passOpen, passPort, takePort]; exact law.open_take_port
  takes_size := kept.size law.takes_size
  none_empty hp := by
    rw [takePort] at hp
    cases shut : s.playback.passOpen with
    | true =>
      have port := law.port_iff_open
      rw [← law.open_take_port shut, hp, shut] at port
      cases port
    | false => rw [kept.closed shut]; exact law.none_empty hp
  closed_empty shut empty := by
    rw [passOpen] at shut
    rw [takePort]
    exact law.closed_empty shut (kept.closed shut ▸ empty)

/-- The roles law where the roles stand, no port is detached, and the take queue is kept. -/
theorem rolesLaw_congr {s t : State} (law : s.RolesLaw) (passOpen : t.playback.passOpen = s.playback.passOpen)
    (passPort : t.playback.passPort = s.playback.passPort) (takePort : t.writing.takePort = s.writing.takePort)
    (attached : ∀ q, (s.port q).attached = true → (t.port q).attached = true) (kept : TakesKept s t) : t.RolesLaw := by
  obtain ⟨agree, roles⟩ := (rolesLaw_iff s).mp law
  exact (rolesLaw_iff t).mpr ⟨rolesAgree_congr agree passOpen passPort takePort kept,
    fun p hp => attached p (roles p (takePort ▸ hp))⟩

theorem OnlyStrips.rolesAgree {s t : State} (h : OnlyStrips s t) (kept : TakesKept s t) (law : s.RolesAgree) :
    t.RolesAgree :=
  rolesAgree_congr law (by rw [h.playback]) (by rw [h.playback]) (by rw [h.writing]) kept

theorem OnlyStrips.rolesLaw {s t : State} (h : OnlyStrips s t) (kept : TakesKept s t) (law : s.RolesLaw) :
    t.RolesLaw :=
  rolesLaw_congr law (by rw [h.playback]) (by rw [h.playback]) (by rw [h.writing])
    (fun q ha => (h.attached q).trans ha) kept

/-! ### Both laws along an operation on one strip -/

/-- The write state law of every strip. -/
def State.StripsWrite (s : State) : Prop := ∀ n, s.WriteLawAt n

theorem writingLaw_iff (s : State) : s.WritingLaw ↔ s.timeline.Counts ∧ s.StripsWrite :=
  ⟨fun h => ⟨h.counting_iff, h.strips⟩, fun ⟨c, h⟩ => ⟨c, h⟩⟩

/-- The write states of all strips, and the roles. -/
structure State.WriteRoles (s : State) : Prop where
  strips : s.StripsWrite
  roles : s.RolesLaw

/-- What the write state of a record and its trigger depend on. -/
structure Strip.SameWriting (r r' : Strip) : Prop where
  mode : r'.mode = r.mode
  writeState : r'.writeState = r.writeState
  trim : r'.trim = r.trim
  toucher : r'.toucher = r.toucher
  linePunch : r'.linePunch = r.linePunch

theorem Strip.SameWriting.refl (r : Strip) : r.SameWriting r := ⟨rfl, rfl, rfl, rfl, rfl⟩

theorem Strip.SameWriting.law {r r' : Strip} (h : r.SameWriting r') {armed trigger counting : Bool}
    (law : r.WriteLaw armed trigger counting) : r'.WriteLaw armed trigger counting := by
  obtain ⟨mode, writeState, trim, -, -⟩ := h
  refine ⟨writeState ▸ law.1, writeState ▸ law.2, writeState ▸ law.3, writeState ▸ law.4, writeState ▸ law.5, ?_, ?_⟩
  · rw [writeState, mode]; exact law.6
  · rw [writeState, mode, trim]; exact law.7

/-- What a write state reads stands: the writing of the record, the pass and the timeline's inputs of the trigger. -/
theorem writeLawAt_of_writing {s t : State} {n : StripNo} (law : s.WriteLawAt n)
    (strip : (s.strip n).SameWriting (t.strip n)) (pass : t.playback.passOpen = s.playback.passOpen)
    (counting : t.timeline.counting = s.timeline.counting)
    (punch : t.timeline.punch.filtered = s.timeline.punch.filtered) : t.WriteLawAt n := by
  have armed : t.armed n = s.armed n := by rw [State.armed, State.armed, pass, strip.mode]
  have trigger : t.trigger n = s.trigger n := by
    rw [trigger_eq, trigger_eq, counting, punch, Strip.triggered, Strip.triggered, strip.mode, strip.toucher,
      strip.linePunch]
  rw [writeLawAt_iff, armed, trigger, counting]
  exact strip.law ((writeLawAt_iff s n).mp law)

theorem writeLawAt_congr {s t : State} {n : StripNo} (law : s.WriteLawAt n) (strip : t.strip n = s.strip n)
    (pass : t.playback.passOpen = s.playback.passOpen) (counting : t.timeline.counting = s.timeline.counting)
    (punch : t.timeline.punch.filtered = s.timeline.punch.filtered) : t.WriteLawAt n :=
  writeLawAt_of_writing law (by rw [strip]; exact .refl _) pass counting punch

/-- A strip that is OFF under a closed pass, or whose mode does not write. -/
theorem writeLawAt_off {s : State} {n : StripNo} (unarmed : s.armed n = false) (off : (s.strip n).writeState = .off)
    (unity : (s.strip n).trim = 16384) : s.WriteLawAt n where
  unarmed _ := off
  armed h := by rw [unarmed] at h; cases h
  waiting h := by rw [off] at h; cases h
  ready h := by rw [off] at h; cases h
  writing h := by rw [off] at h; cases h
  latched h := by rw [off] at h; cases h
  trim_unity _ := unity

/-- A strip that is armed afresh, or turned OFF (R129, R130). -/
theorem writeLawAt_afresh {s : State} {n : StripNo}
    (state : (s.strip n).writeState = if s.armed n then s.armedState n else .off) (unity : (s.strip n).trim = 16384) :
    s.WriteLawAt n := by
  cases armed : s.armed n with
  | false => exact writeLawAt_off armed (by rw [state, armed]; rfl) unity
  | true =>
    rw [armed, if_pos rfl, State.armedState] at state
    rw [writeLawAt_iff, armed]
    cases on : s.trigger n <;> simp only [on] at state <;>
      exact ⟨nofun, by simp [state], by simp [state], by simp [state], by simp [state], by simp [state], fun _ => unity⟩

theorem OnlyAt.stripsWrite {n : StripNo} {s t : State} (h : OnlyAt n s t) (at_strip : s.WriteLawAt n → t.WriteLawAt n)
    (law : s.StripsWrite) : t.StripsWrite := fun m => by
  by_cases e : m = n
  · exact e ▸ at_strip (law n)
  · exact writeLawAt_congr (law m) (h.strips m e) (by rw [h.playback]) (by rw [h.timeline]) (by rw [h.timeline])

theorem OnlyAt.writeRoles {n : StripNo} {s t : State} (h : OnlyAt n s t) (at_strip : s.WriteLawAt n → t.WriteLawAt n)
    (kept : s.WriteLawAt n → TakesKept s t) (law : s.WriteRoles) : t.WriteRoles := by
  exact ⟨h.stripsWrite at_strip law.strips, h.onlyStrips.rolesLaw (kept (law.strips n)) law.roles⟩

theorem stripsWrite_congr {s t : State} (law : s.StripsWrite) (strips : ∀ n, (s.strip n).SameWriting (t.strip n))
    (pass : t.playback.passOpen = s.playback.passOpen) (counting : t.timeline.counting = s.timeline.counting)
    (punch : t.timeline.punch.filtered = s.timeline.punch.filtered) : t.StripsWrite :=
  fun n => writeLawAt_of_writing (law n) (strips n) pass counting punch

/-- What touches neither strips, pass, counting nor filtered PUNCH, and keeps the takes and the roles. -/
theorem writeRoles_congr {s t : State} (law : s.WriteRoles) (strips : t.strips = s.strips)
    (playback : t.playback.passOpen = s.playback.passOpen ∧ t.playback.passPort = s.playback.passPort)
    (writing : t.writing = s.writing) (counting : t.timeline.counting = s.timeline.counting)
    (punch : t.timeline.punch.filtered = s.timeline.punch.filtered)
    (attached : ∀ q, (s.port q).attached = true → (t.port q).attached = true) : t.WriteRoles :=
  ⟨fun n => writeLawAt_congr (law.strips n) (strip_of_strips strips n) playback.1 counting punch,
    rolesLaw_congr law.roles playback.1 playback.2 (by rw [writing]) attached (takesKept_of_writing (by rw [writing]))⟩

theorem OnlyCells.writeRoles {s t : State} (h : OnlyCells s t) (law : s.WriteRoles) : t.WriteRoles :=
  writeRoles_congr law h.strips ⟨by rw [h.playback], by rw [h.playback]⟩ h.writing (by rw [h.timeline])
    (by rw [h.timeline]) fun q ha => by rwa [h.port q]

end Sys2Proof.Machine

/-!
PROOFS. Every request and every event keeps the write states and the roles.
-/
namespace Sys2Proof.Machine

/-! ### Changes of a record and of a mode -/

theorem changed_size {p : PortId} {n : StripNo} {r : Strip} {written : List FieldValue} {reported : Bool} {s : State}
    (h : s.writing.takes.length ≤ 1024) : (changed p n r written reported s).writing.takes.length ≤ 1024 := by
  have retargeted : (handRetarget s n (s.setStrip n r)).writing.takes.length ≤ 1024 := by
    rw [handRetarget_writing]; exact h
  have recorded : (if (s.strip n).writeState.punched then
      recordMoves p n written (handRetarget s n (s.setStrip n r))
      else handRetarget s n (s.setStrip n r)).writing.takes.length ≤ 1024 := by
    split
    · exact size_recordMoves p n written retargeted
    · exact retargeted
  unfold changed
  dsimp only
  split <;> exact recorded

theorem writing_report (p : PortId) (n : StripNo) (s : State) : (report p n s).writing = s.writing := rfl

/-- A strip that does not write takes no MOVE record (R138). -/
theorem changed_writing {p : PortId} {n : StripNo} {r : Strip} {written : List FieldValue} {reported : Bool} {s : State}
    (idle : (s.strip n).writeState.punched = false) : (changed p n r written reported s).writing = s.writing := by
  unfold changed
  simp only [idle, Bool.false_eq_true, if_false]
  split
  · rw [writing_report, handRetarget_writing]; rfl
  · rw [handRetarget_writing]; rfl

theorem armed_of_punched {s : State} {n : StripNo} (law : s.WriteLawAt n)
    (punched : (s.strip n).writeState.punched = true) : s.armed n = true := by
  by_contra unarmed
  rw [law.unarmed (by simpa using unarmed)] at punched
  cases punched

theorem takesKept_changed {p : PortId} {n : StripNo} {r : Strip} {written : List FieldValue} {reported : Bool}
    {s : State} (law : s.WriteLawAt n) : TakesKept s (changed p n r written reported s) := by
  cases punched : (s.strip n).writeState.punched with
  | true => exact takesKept_of_open (armed_open (armed_of_punched law punched)) changed_size
  | false => exact takesKept_of_writing (by rw [changed_writing punched])

theorem takesKept_writeChange {p : PortId} {n : StripNo} {r : Strip} {written : List FieldValue} {reported : Bool}
    {s : State} (law : s.WriteLawAt n) : TakesKept s (writeChange p n r written reported s) :=
  (takesKept_changed law).trans (by rw [(OnlyAt.changed ..).playback]) (takesKept_triggerChange ..)

theorem writeLawAt_writeChange {p : PortId} {n : StripNo} {r : Strip} {s : State}
    (mode : r.mode = (s.strip n).mode) (state : r.writeState = (s.strip n).writeState)
    (trim : r.trim = (s.strip n).trim ∨ ((s.strip n).mode = .trim ∧ (s.strip n).writeState = .writing))
    (written : List FieldValue) (reported : Bool) (law : s.WriteLawAt n) :
    (writeChange p n r written reported s).WriteLawAt n := by
  have only := OnlyAt.changed p n r written reported s
  rw [writeChange_eq]
  refine writeLawAt_triggered law ?_ ?_ ?_ (by rw [only.playback]) (by rw [only.timeline])
  · rw [changed_strip, mode]
  · rw [changed_strip, state]
  · rwa [changed_strip]

/-- The write state and the trim of a strip whose mode changes (R26, R130, R131). -/
theorem writeLaw_changeMode {n : StripNo} {m : Mode} {s : State} (law : s.WriteLawAt n) :
    (changeMode n m s).WriteLawAt n := by
  unfold changeMode
  dsimp only
  split
  · exact law
  · next ne =>
    have only := OnlyAt.modStrip n (fun r => { r with mode := m }) s
    have strip : (s.modStrip n fun r => { r with mode := m }).strip n = { s.strip n with mode := m } :=
      strip_modStrip_self ..
    generalize hu : (s.modStrip n fun r => { r with mode := m }) = u at only strip ⊢
    have target : ∀ {t : State}, OnlyAt n u t → (u.strip n).SameSetting (t.strip n) →
        (t.strip n).writeState = (if u.armed n then u.armedState n else .off) → (t.strip n).trim = 16384 →
        (handRetarget s n t).WriteLawAt n := by
      intro t only setting state unity
      have armed : t.armed n = u.armed n := by rw [State.armed, State.armed, only.playback, setting.mode]
      have trigger : t.trigger n = u.trigger n := by rw [trigger_eq, trigger_eq, only.timeline, setting.triggered]
      have after : t.WriteLawAt n :=
        writeLawAt_afresh (by rw [state, armed, State.armedState, State.armedState, trigger]) unity
      have cells := handRetarget_onlyCells s n t
      exact writeLawAt_congr after (cells.strip n) (by rw [cells.playback]) (by rw [cells.timeline])
        (by rw [cells.timeline])
    split
    · next punching =>
      refine target (OnlyAt.endPunch ..) (sameSetting_endPunch ..) (by rw [strip_endPunch]) ?_
      rw [strip_endPunch, strip]
      dsimp only
      split
      · rfl
      · next other => exact law.trim_unity fun h => other h.1
    · next idle =>
      refine target (OnlyAt.setWriteState ..) (sameSetting_setWriteState ..) (by rw [strip_setWriteState]) ?_
      rw [strip_setWriteState, strip]
      refine law.trim_unity fun h => idle ?_
      have punched : (s.strip n).writeState.punched = true := by rw [h.2]; rfl
      rw [armed_of_punched law punched, punched]
      rfl

theorem takesKept_changeMode (n : StripNo) (m : Mode) (s : State) : TakesKept s (changeMode n m s) := by
  unfold changeMode
  dsimp only
  split
  · exact .refl s
  · split
    · next punching =>
      refine takesKept_of_open (armed_open (Bool.and_eq_true_iff.mp punching).1) fun h => ?_
      rw [handRetarget_writing]
      exact size_endPunch _ _ _ _ (s := s.modStrip n fun r => { r with mode := m }) h
    · exact takesKept_of_writing (by rw [handRetarget_writing]; rfl)

/-- A record that a change of strip `n` may write, as the write states see it. -/
theorem Strip.Revised.trim_open {t : BusTable} {r r' : Strip} (h : r.Revised t r') :
    r'.trim = r.trim ∨ (r.mode = .trim ∧ r.writeState = .writing) :=
  h.trim.imp id fun ⟨mode, state, _⟩ => ⟨mode, state⟩

theorem Strip.Revised.writeState {t : BusTable} {r r' : Strip} (h : r.Revised t r') : r'.writeState = r.writeState := by
  rw [h.setting]

theorem writeRoles_change {p : PortId} {n : StripNo} {r : Strip} {s : State} (revised : (s.strip n).Revised s.busTable r)
    (written : List FieldValue) (reported : Bool) (m : Mode) (law : s.WriteRoles) :
    (handCut s n (changeMode n m (writeChange p n r written reported s))).WriteRoles := by
  have wrote : (writeChange p n r written reported s).WriteRoles := (OnlyAt.writeChange ..).writeRoles
    (writeLawAt_writeChange revised.mode revised.writeState revised.trim_open written reported) takesKept_writeChange law
  exact (handCut_onlyCells ..).writeRoles
    ((OnlyAt.changeMode ..).writeRoles writeLaw_changeMode (fun _ => takesKept_changeMode ..) wrote)

theorem writeRoles_commit {p : PortId} {n : StripNo} {r : Strip} {s : State} (mode : r.mode = (s.strip n).mode)
    (state : r.writeState = (s.strip n).writeState) (trim : r.trim = (s.strip n).trim) (written : List FieldValue)
    (reported : Bool) (law : s.WriteRoles) : (commit p n r written reported s).WriteRoles :=
  (handCut_onlyCells ..).writeRoles ((OnlyAt.writeChange ..).writeRoles
    (writeLawAt_writeChange mode state (.inl trim) written reported) takesKept_writeChange law)

theorem writeLawAt_changeToucher {n : StripNo} {t : Option PortId} {s : State} (law : s.WriteLawAt n) :
    (changeToucher n t s).WriteLawAt n := by
  refine writeLawAt_triggered law ?_ ?_ (.inl ?_) rfl rfl
  all_goals rw [strip_modStrip_self]

theorem takesKept_changeToucher (n : StripNo) (t : Option PortId) (s : State) : TakesKept s (changeToucher n t s) :=
  TakesKept.trans (t := s.modStrip n fun r => { r with toucher := t }) rfl (takesKept_of_writing rfl)
    (takesKept_triggerChange ..)

theorem writeRoles_changeToucher {n : StripNo} {t : Option PortId} {s : State} (law : s.WriteRoles) :
    (changeToucher n t s).WriteRoles :=
  (OnlyAt.changeToucher n t s).writeRoles writeLawAt_changeToucher (fun _ => takesKept_changeToucher n t s) law

theorem writeLawAt_liftTouch {p : PortId} {n : StripNo} {s : State} (law : s.WriteLawAt n) :
    (liftTouch p n s).WriteLawAt n := by
  unfold liftTouch
  split
  · exact writeLawAt_changeToucher law
  · exact law

theorem takesKept_liftTouch (p : PortId) (n : StripNo) (s : State) : TakesKept s (liftTouch p n s) := by
  unfold liftTouch
  split
  · exact takesKept_changeToucher n none s
  · exact .refl s

theorem writeRoles_setHolder {h : Option PortId} {o : Object} {s : State} (law : s.WriteRoles) :
    (setHolder h o s).WriteRoles := by
  cases o with
  | bus b => exact writeRoles_congr law rfl ⟨rfl, rfl⟩ rfl rfl rfl fun _ ha => ha
  | strip n =>
    refine (OnlyAt.modStrip n (fun r => { r with holder := h }) s).writeRoles (fun at_strip => ?_)
      (fun _ => takesKept_of_writing rfl) law
    refine writeLawAt_of_writing at_strip ?_ rfl rfl rfl
    rw [strip_modStrip_self]
    exact ⟨rfl, rfl, rfl, rfl, rfl⟩

/-! ### Counting -/

/-- A rise of counting: a READY strip in WRITE mode punches in, and no other trigger moves (R134). -/
theorem writeLawAt_riseStrip {n : StripNo} {s : State}
    (law : (s.strip n).WriteLaw (s.armed n) ((s.strip n).triggered false s.timeline.punch.filtered) false)
    (counting : s.timeline.counting = true) : (riseStrip n s).WriteLawAt n := by
  have trigger := trigger_eq s n
  rw [counting] at trigger
  unfold riseStrip
  split
  · next rises =>
    simp only [Bool.and_eq_true, decide_eq_true_eq] at rises
    obtain ⟨⟨armed, mode⟩, ready⟩ := rises
    have unity := law.trim_unity (by simp [ready])
    refine writeLawAt_of_setting (OnlyAt.punchIn n s) (sameSetting_punchIn ..) ?_
    rw [strip_punchIn, armed, trigger, triggered_write mode, counting]
    exact ⟨nofun, fun _ => nofun, nofun, nofun, fun _ => ⟨rfl, rfl⟩, nofun, fun _ => unity⟩
  · next stays =>
    simp only [Bool.and_eq_true, decide_eq_true_eq] at stays
    rw [writeLawAt_iff, trigger, counting]
    by_cases mode : (s.strip n).mode = .write
    · rw [triggered_write mode] at law ⊢
      refine ⟨law.unarmed, law.armed_on, fun _ => rfl, fun ready => ?_, fun h => ?_, fun h => ?_, law.trim_unity⟩
      · cases armed : s.armed n with
        | true => exact absurd ⟨⟨armed, mode⟩, ready⟩ stays
        | false => rw [law.unarmed armed] at ready; cases ready
      · cases (law.writing h).2
      · cases (law.latched h).2.1
    · rw [triggered_counting mode true false]
      exact ⟨law.unarmed, law.armed_on, law.waiting, law.ready, fun h => (by cases (law.writing h).2),
        fun h => (by cases (law.latched h).2.1), law.trim_unity⟩

/-- A fall of counting: a punch ends, and a strip in WRITE mode leaves WAIT (R134, R139). -/
theorem writeLawAt_fallStrip {reason : PunchReason} {n : StripNo} {s : State}
    (law : (s.strip n).WriteLaw (s.armed n) ((s.strip n).triggered true s.timeline.punch.filtered) true)
    (counting : s.timeline.counting = false) : (fallStrip reason n s).WriteLawAt n := by
  have trigger := trigger_eq s n
  rw [counting] at trigger
  have stand : s.armed n = true → (s.strip n).writeState ≠ .writing → (s.strip n).writeState ≠ .latched →
      ((s.strip n).writeState = .wait → (s.strip n).mode ≠ .write) → s.WriteLawAt n := by
    intro armed not_writing not_latched not_wait
    have unity := law.trim_unity fun h => not_writing h.2
    rw [writeLawAt_iff]
    refine ⟨law.unarmed, law.armed_on, fun wait => ?_, fun ready => ?_, fun h => absurd h not_writing,
      fun h => absurd h not_latched, fun _ => unity⟩
    · rw [trigger, triggered_counting (not_wait wait) false true]
      exact law.waiting wait
    · by_cases mode : (s.strip n).mode = .write
      · rw [trigger, triggered_write mode]
      · rw [trigger, triggered_counting mode false true]
        exact law.ready ready
  have out : (s.strip n).writeState = .writing ∨ (s.strip n).writeState = .latched → s.armed n = true →
      (punchOut reason n (s.armedState n) s).WriteLawAt n := by
    intro punched armed
    refine writeLawAt_of_setting (OnlyAt.punchOut ..) (sameSetting_punchOut ..) ?_
    have unity : (if (s.strip n).mode = .trim then 16384 else (s.strip n).trim) = 16384 := by
      split
      · rfl
      · next other => exact law.trim_unity fun h => other h.1
    rw [strip_punchOut, armed, State.armedState]
    cases on : s.trigger n with
    | true => exact ⟨nofun, fun _ => nofun, fun _ => rfl, nofun, nofun, nofun, fun _ => unity⟩
    | false => exact ⟨nofun, fun _ => nofun, nofun, fun _ => rfl, nofun, nofun, fun _ => unity⟩
  unfold fallStrip
  split
  · next armed =>
    split
    · next writing => exact out (.inl writing) armed
    · next latched => exact out (.inr latched) armed
    · next wait =>
      split
      · next mode =>
        have unity := law.trim_unity (by simp [wait])
        refine writeLawAt_of_setting (OnlyAt.setWriteState ..) (sameSetting_setWriteState ..) ?_
        rw [strip_setWriteState, armed, trigger, triggered_write mode, counting]
        exact ⟨nofun, fun _ => nofun, nofun, fun _ => rfl, nofun, nofun, fun _ => unity⟩
      · next mode => exact stand armed (by simp [wait]) (by simp [wait]) fun _ => mode
    · next off => exact absurd off (law.armed_on armed)
    · next ready => exact stand armed (by simp [ready]) (by simp [ready]) (by simp [ready])
  · next unarmed =>
    have off := law.unarmed (by simpa using unarmed)
    have unity := law.trim_unity (by simp [off])
    rw [writeLawAt_iff]
    exact ⟨fun _ => off, fun h => absurd h unarmed, by simp [off], by simp [off], by simp [off], by simp [off],
      fun _ => unity⟩

/-- After a walk in which each strip takes its own turn, a strip is lawful where its turn makes it so. -/
theorem eachStrip_writeLawAt {f : StripNo → State → State} (only : ∀ n t, OnlyAt n t (f n t)) {s : State} {n : StripNo}
    (turn : ∀ t, OnlyStrips s t → t.strip n = s.strip n → (f n t).WriteLawAt n) : (eachStrip f s).WriteLawAt n := by
  obtain ⟨t, others, strip, -, turned, -⟩ := eachStrip_turn only n s
  have walked := eachStrip_onlyStrips only s
  have own := (only n t).onlyStrips
  exact writeLawAt_congr (turn t others strip) turned (by rw [walked.playback, own.playback, others.playback])
    (by rw [walked.timeline, own.timeline, others.timeline]) (by rw [walked.timeline, own.timeline, others.timeline])

theorem writeRoles_recount {reason : PunchReason} {s : State} (law : s.WriteRoles) :
    (recount reason s).WriteRoles := by
  unfold recount
  dsimp only
  split
  · exact law
  · next moved =>
    generalize hc : (s.timeline.roll.filtered && s.timeline.settle == 0) = c at moved
    have was : s.timeline.counting = !c := by cases c <;> cases h : s.timeline.counting <;> simp_all
    have roles : (s.modTimeline fun tl => { tl with counting := c }).RolesLaw :=
      rolesLaw_congr law.roles rfl rfl rfl (fun _ ha => ha) (takesKept_of_writing rfl)
    split
    · next rise =>
      subst rise
      have only := fun n t => OnlyAt.riseStrip n t
      refine ⟨fun n => eachStrip_writeLawAt only fun t others strip => writeLawAt_riseStrip ?_ ?_,
        (eachStrip_onlyStrips only _).rolesLaw (eachStrip_takesKept only takesKept_riseStrip _) roles⟩
      · have before := (writeLawAt_iff s n).mp (law.strips n)
        rw [trigger_eq, was] at before
        rw [others.armed strip, strip, others.timeline]
        exact before
      · rw [others.timeline]; rfl
    · next fall =>
      have fall : c = false := by simpa using fall
      subst fall
      have only := fun n t => OnlyAt.fallStrip reason n t
      refine ⟨fun n => eachStrip_writeLawAt only fun t others strip => writeLawAt_fallStrip ?_ ?_,
        (eachStrip_onlyStrips only _).rolesLaw (eachStrip_takesKept only (takesKept_fallStrip reason) _) roles⟩
      · have before := (writeLawAt_iff s n).mp (law.strips n)
        rw [trigger_eq, was] at before
        rw [others.armed strip, strip, others.timeline]
        exact before
      · rw [others.timeline]; rfl

/-! ### The timeline's sample period -/

theorem writeRoles_locateTo {frame : Nat} {reason : PunchReason} {s : State} (law : s.WriteRoles) :
    (locateTo frame reason s).WriteRoles := by
  have placed : (s.modTimeline fun tl => { tl with counter := frame, phase := 0, settle := 2 * s.spf }).WriteRoles :=
    writeRoles_congr law rfl ⟨rfl, rfl⟩ rfl rfl rfl fun _ ha => ha
  refine writeRoles_recount ?_
  have lines := (sameLines_flush (s.modTimeline fun tl =>
    { tl with counter := frame, phase := 0, settle := 2 * s.spf })).attached
  generalize (s.modTimeline fun tl => { tl with counter := frame, phase := 0, settle := 2 * s.spf }) = u at placed lines ⊢
  have flushed := flushFromTimeline_eq u
  exact writeRoles_congr placed (by rw [flushed]) ⟨by rw [flushed], by rw [flushed]⟩ (by rw [flushed])
    (by rw [flushed]) (by rw [flushed]) fun q ha => (lines q).trans ha

theorem setShadow_sameWriting (v : FieldValue) (r : Strip) : r.SameWriting (r.setShadow v) := by
  cases v <;> exact ⟨rfl, rfl, rfl, rfl, rfl⟩

theorem applyCue_strip (c : Cue) (s : State) : (applyCue c s).strip c.strip = (s.strip c.strip).setShadow c.value := by
  rw [applyCue, handRetarget_strip, strip_modStrip_self]

theorem writeRoles_applyCue {c : Cue} {s : State} (law : s.WriteRoles) : (applyCue c s).WriteRoles := by
  have only := OnlyAt.applyCue c s
  refine only.writeRoles (fun at_strip => writeLawAt_of_writing at_strip ?_ (by rw [only.playback])
    (by rw [only.timeline]) (by rw [only.timeline])) (fun _ => takesKept_of_writing ?_) law
  · rw [applyCue_strip]; exact setShadow_sameWriting ..
  · rw [applyCue, handRetarget_writing]; rfl

theorem writeRoles_withCues {q : List Cue} {s : State} (law : s.WriteRoles) : (s.withCues q).WriteRoles :=
  writeRoles_congr law rfl ⟨rfl, rfl⟩ rfl rfl rfl fun _ ha => ha

theorem writeRoles_arrivalScan {q : List Cue} {s : State} (law : s.WriteRoles) : (arrivalScan q s).WriteRoles := by
  induction q generalizing s with
  | nil => exact writeRoles_withCues law
  | cons c rest ih =>
    unfold arrivalScan
    split
    · exact ih (writeRoles_applyCue law)
    · exact writeRoles_withCues law

theorem writeRoles_countStale {s : State} (law : s.WriteRoles) : (countStale s).WriteRoles :=
  writeRoles_congr law rfl ⟨rfl, rfl⟩ rfl rfl rfl fun _ ha => ha

theorem writeRoles_boundaryHeads {q : List Cue} {s : State} (law : s.WriteRoles) : (boundaryHeads q s).WriteRoles := by
  induction q generalizing s with
  | nil => exact writeRoles_withCues law
  | cons c rest ih =>
    unfold boundaryHeads
    split
    · exact ih (writeRoles_countStale law)
    · split
      · exact ih (writeRoles_applyCue law)
      · exact writeRoles_withCues law

theorem writeRoles_ports {s t : State} (law : s.WriteRoles) (rest : t = { s with ports := t.ports })
    (attached : ∀ q, (s.port q).attached = true → (t.port q).attached = true) : t.WriteRoles :=
  writeRoles_congr law (by rw [rest]) ⟨by rw [rest], by rw [rest]⟩ (by rw [rest]) (by rw [rest]) (by rw [rest]) attached

theorem writeRoles_raiseEverywhere {r : Reason} {s : State} (law : s.WriteRoles) : (raiseEverywhere r s).WriteRoles :=
  writeRoles_ports law rfl fun q ha => by rwa [raiseEverywhere, port_mapPorts, raised_attached]

theorem writeRoles_raiseAtRole {r : Reason} {o : Option PortId} {s : State} (law : s.WriteRoles) :
    (raiseAtRole r o s).WriteRoles :=
  writeRoles_ports law (raiseAtRole_eq ..) fun q ha => ((sameLines_raiseAtRole r o s).attached q).trans ha

theorem writeRoles_boundary {s : State} (law : s.WriteRoles) : (boundary s).WriteRoles := by
  unfold boundary
  split
  · exact writeRoles_raiseEverywhere (writeRoles_locateTo law)
  · have moved : (s.modTimeline fun tl => { tl with phase := 0, counter := nextFrame tl.reverse tl.counter }).WriteRoles :=
      writeRoles_congr law rfl ⟨rfl, rfl⟩ rfl rfl rfl fun _ ha => ha
    unfold boundaryScan
    dsimp only
    split
    · exact writeRoles_raiseAtRole (writeRoles_boundaryHeads moved)
    · exact writeRoles_boundaryHeads moved

theorem writeRoles_advanceTimeline {s : State} (law : s.WriteRoles) : (advanceTimeline s).WriteRoles := by
  unfold advanceTimeline
  split
  · exact writeRoles_recount (s := s.modTimeline fun tl => { tl with settle := tl.settle - 1 })
      (writeRoles_congr law rfl ⟨rfl, rfl⟩ rfl rfl rfl fun _ ha => ha)
  · split
    · split
      · exact writeRoles_boundary law
      · exact writeRoles_congr law rfl ⟨rfl, rfl⟩ rfl rfl rfl fun _ ha => ha
    · exact law

theorem takesKept_punchLineStrip (before : State) (n : StripNo) (s : State) :
    TakesKept s (punchLineStrip before n s) := by
  unfold punchLineStrip
  split
  · exact takesKept_triggerChange ..
  · exact .refl s

/-- A change of filtered PUNCH reaches the strips whose line punch is on; the trigger of no other reads it (R127). -/
theorem writeRoles_handPunch {filtered : Bool} {s : State} (law : s.WriteRoles) : (handPunch filtered s).WriteRoles := by
  have only := fun n t => OnlyAt.punchLineStrip s n t
  refine ⟨fun n => eachStrip_writeLawAt only fun t others strip => ?_,
    (eachStrip_onlyStrips only _).rolesLaw (eachStrip_takesKept only (takesKept_punchLineStrip s) _)
      (rolesLaw_congr law.roles rfl rfl rfl (fun _ ha => ha) (takesKept_of_writing rfl))⟩
  have before := (writeLawAt_iff s n).mp (law.strips n)
  have strip : t.strip n = s.strip n := strip
  have armed : t.armed n = s.armed n := by rw [State.armed, State.armed, strip, others.playback]; rfl
  have counting : t.timeline.counting = s.timeline.counting := by rw [others.timeline]; rfl
  unfold punchLineStrip
  split
  · next pressed =>
    simp only [Bool.and_eq_true, decide_eq_true_eq] at pressed
    have was : ({ t with timeline := s.timeline } : State).trigger n = s.trigger n := by
      rw [trigger_eq, trigger_eq]
      exact congrArg (fun r => Strip.triggered _ _ r) strip
    refine writeLawAt_triggerChange (fun write => absurd write pressed.2) ?_
    rw [was, strip, armed, counting]
    exact before
  · next spared =>
    have unread : (s.strip n).mode = .write ∨ (s.strip n).linePunch = false := by
      rw [strip] at spared
      by_cases mode : (s.strip n).mode = .write
      · exact .inl mode
      · exact .inr (by simpa [mode] using spared)
    rw [writeLawAt_iff, trigger_eq, strip, armed, counting, triggered_punch unread _ _ s.timeline.punch.filtered,
      ← trigger_eq]
    exact before

theorem writeRoles_timelinePeriod {v : LineLevels} {s : State} (law : s.WriteRoles) : (timelinePeriod v s).WriteRoles := by
  have filtered : (s.modTimeline (filterLines v)).WriteRoles :=
    writeRoles_congr law rfl ⟨rfl, rfl⟩ rfl rfl rfl fun _ ha => ha
  have turned : ∀ {t : State}, t.WriteRoles → (turnStage v s.timeline t).WriteRoles := fun {t} law => by
    unfold turnStage; split
    · exact writeRoles_locateTo (s := t.modTimeline fun tl => { tl with reverse := tl.rev.filtered })
        (writeRoles_congr law rfl ⟨rfl, rfl⟩ rfl rfl rfl fun _ ha => ha)
    · exact law
  have rolled : ∀ {t : State}, t.WriteRoles → (rollStage v s.timeline t).WriteRoles := fun law => by
    unfold rollStage; split
    · exact writeRoles_recount law
    · exact law
  have advanced : ∀ {t : State}, t.WriteRoles → (advanceStage v s.timeline t).WriteRoles := fun law => by
    unfold advanceStage; split
    · exact law
    · exact writeRoles_advanceTimeline law
  have punched : ∀ {t : State}, t.WriteRoles → (punchStage v s.timeline t).WriteRoles := fun law => by
    unfold punchStage; split
    · exact writeRoles_handPunch law
    · exact law
  rw [timelinePeriod_eq]
  exact punched (advanced (rolled (turned filtered)))

end Sys2Proof.Machine

/-!
PROOFS. The pass, a detach and every request keep the write states and the roles, and with the counting field every step
does.
-/
namespace Sys2Proof.Machine

/-! ### A close of the pass -/

/-- A strip that the close of the pass turned OFF, or that was OFF (R111). -/
theorem off_disarmStrip {n : StripNo} {s : State} (law : s.WriteLawAt n) :
    ((disarmStrip n s).strip n).writeState = .off ∧ ((disarmStrip n s).strip n).trim = 16384 := by
  unfold disarmStrip
  split
  · split
    · rw [strip_endPunch]
      refine ⟨rfl, ?_⟩
      dsimp only
      split
      · rfl
      · next other => exact law.trim_unity fun h => other h.1
    · next idle =>
      rw [strip_setWriteState]
      exact ⟨rfl, law.trim_unity fun h => idle (by rw [h.2]; rfl)⟩
  · next unarmed =>
    have off := law.unarmed (by simpa using unarmed)
    exact ⟨off, law.trim_unity fun h => by rw [off] at h; cases h.2⟩

theorem takesKept_disarmStrip (n : StripNo) (s : State) : TakesKept s (disarmStrip n s) := by
  unfold disarmStrip
  split
  · next armed =>
    split
    · exact takesKept_of_open (armed_open armed) (size_endPunch _ _ _ _)
    · exact takesKept_of_writing rfl
  · exact .refl s

theorem off_disarmed {s : State} (law : s.StripsWrite) (n : StripNo) :
    ((disarmed s).strip n).writeState = .off ∧ ((disarmed s).strip n).trim = 16384 := by
  have flushed : (s.withCues []).StripsWrite := stripsWrite_congr law (fun _ => .refl _) rfl rfl rfl
  obtain ⟨t, others, strip, -, turned, -⟩ := eachStrip_turn (fun n t => .disarmStrip n t) n (s.withCues [])
  rw [disarmed, turned]
  exact off_disarmStrip (writeLawAt_congr (flushed n) strip (by rw [others.playback]) (by rw [others.timeline])
    (by rw [others.timeline]))

theorem passClosed_strip (s : State) (n : StripNo) : (passClosed s).strip n = s.strip n := rfl

theorem stripsWrite_closePassNow {s : State} (law : s.StripsWrite) : (closePassNow s).StripsWrite := fun n => by
  have cells := closePassNow_onlyCells s
  obtain ⟨off, unity⟩ := off_disarmed law n
  refine writeLawAt_off ?_ ?_ ?_
  · rw [State.armed, closePassNow_playback]; rfl
  · rw [cells.strip, passClosed_strip, off]
  · rw [cells.strip, passClosed_strip, unity]

theorem rolesAgree_disarmed {s : State} (law : s.RolesAgree) : (disarmed s).RolesAgree :=
  (disarmed_frame s).rolesAgree (eachStrip_takesKept (fun n t => .disarmStrip n t) takesKept_disarmStrip _)
    (rolesAgree_congr law rfl rfl rfl (takesKept_of_writing rfl))

theorem settled_takePort {w : Writing} {p : PortId} (h : w.settled.takePort = some p) : w.takePort = some p := by
  unfold Writing.settled at h
  split at h
  · cases h
  · exact h

theorem settled_takes (w : Writing) : w.settled.takes = w.takes := by rw [settled_eq]

/-- Under a closed pass the take port is settled (R112, R144). -/
theorem rolesAgree_settled {t : State} (shut : t.playback.passOpen = false)
    (port : t.playback.passPort = none) {w : Writing} (size : w.takes.length ≤ 1024)
    (none_empty : w.takePort = none → w.takes = []) (writing : t.writing = w.settled) : t.RolesAgree where
  port_iff_open := by rw [shut, port]; rfl
  open_take_port h := by rw [shut] at h; cases h
  takes_size := by rw [writing, settled_takes]; exact size
  none_empty h := by
    rw [writing] at h ⊢
    rw [settled_takes]
    unfold Writing.settled at h
    split at h
    · next empty => exact List.isEmpty_iff.mp empty
    · exact none_empty h
  closed_empty _ empty := by
    rw [writing, settled_takes] at empty
    rw [writing, Writing.settled, if_pos (by rw [empty]; rfl)]

theorem passClosed_writing (s : State) : (passClosed s).writing = s.writing.settled := rfl

theorem rolesAgree_closePassNow {s : State} (law : s.RolesAgree) : (closePassNow s).RolesAgree := by
  have before := rolesAgree_disarmed law
  have playback := closePassNow_playback s
  refine rolesAgree_settled (by rw [playback]) (by rw [playback]) before.takes_size before.none_empty ?_
  rw [(closePassNow_onlyCells s).writing, passClosed_writing]

theorem disarmed_takePort (s : State) : (disarmed s).writing.takePort = s.writing.takePort := by
  rw [(disarmed_frame s).writing]; rfl

theorem closePassNow_takePort {s : State} {p : PortId} (h : (closePassNow s).writing.takePort = some p) :
    s.writing.takePort = some p := by
  rw [(closePassNow_onlyCells s).writing, passClosed_writing] at h
  exact disarmed_takePort s ▸ settled_takePort h

theorem writeRoles_closePassNow {s : State} (law : s.WriteRoles) : (closePassNow s).WriteRoles := by
  obtain ⟨agree, roles⟩ := (rolesLaw_iff s).mp law.roles
  refine ⟨stripsWrite_closePassNow law.strips, (rolesLaw_iff _).mpr ⟨rolesAgree_closePassNow agree, fun p hp => ?_⟩⟩
  exact ((sameLines_closePassNow s).attached p).trans (roles p (closePassNow_takePort hp))

/-! ### An opening of the pass -/

theorem writeLawAt_armStrip {n : StripNo} {s : State} (off : (s.strip n).writeState = .off)
    (unity : (s.strip n).trim = 16384) : (armStrip n s).WriteLawAt n := by
  unfold armStrip
  split
  · next armed =>
    have strip := strip_setWriteState n (s.armedState n) s
    refine writeLawAt_afresh ?_ ?_
    · have same : (setWriteState n (s.armedState n) s).armed n = s.armed n := by
        rw [State.armed, strip]; rfl
      have trigger : (setWriteState n (s.armedState n) s).trigger n = s.trigger n := by
        rw [trigger_eq, strip]; rfl
      have state : (setWriteState n (s.armedState n) s).armedState n = s.armedState n := by
        rw [State.armedState, trigger]; rfl
      rw [same, armed, if_pos rfl, state, strip]
    · rw [strip]; exact unity
  · next unarmed => exact writeLawAt_off (by simpa using unarmed) off unity

theorem passOpened_strip (p : PortId) (low high : Nat) (s : State) (n : StripNo) :
    (passOpened p low high s).strip n = s.strip n := rfl

theorem passOpened_blocks (p : PortId) (low high : Nat) (s : State) :
    (passOpened p low high s).playback.passOpen = true ∧ (passOpened p low high s).playback.passPort = some p ∧
      (passOpened p low high s).writing = { s.writing with takePort := some p, lost := 0 } := ⟨rfl, rfl, rfl⟩

theorem armStrip_writing (n : StripNo) (s : State) : (armStrip n s).writing = s.writing := by
  unfold armStrip
  split <;> rfl

theorem eachStrip_armStrip_writing (s : State) : (eachStrip armStrip s).writing = s.writing :=
  eachStrip_keeps (P := fun t => t.writing = s.writing) (fun n t ht => (armStrip_writing n t).trans ht) rfl

theorem openPassBy_writing (p : PortId) (low high : Nat) (s : State) :
    (openPassBy p low high s).writing = { s.writing with takePort := some p, lost := 0 } := by
  rw [openPassBy_eq, (handEvery_onlyCells s _).writing, eachStrip_armStrip_writing]
  exact (passOpened_blocks p low high s).2.2

theorem undrained_of_openPass {s : State} (passed : openPassFailure s = none) : s.writing.takes = [] := by
  simp only [openPassFailure, firstFailure_cons_none, failIf_none] at passed
  simpa using passed.2.1

theorem writeRoles_openPassBy {p : PortId} {low high : Nat} {s : State} (attached : (s.port p).attached = true)
    (passed : openPassFailure s = none) (law : s.WriteRoles) : (openPassBy p low high s).WriteRoles := by
  have shut := closed_of_openPass passed
  have empty := undrained_of_openPass passed
  have playback := (openPassBy_frame p low high s).playback
  have writing := openPassBy_writing p low high s
  obtain ⟨isOpen, port, -⟩ := passOpened_blocks p low high s
  constructor
  · intro n
    have off : (s.strip n).writeState = .off := (law.strips n).unarmed (by rw [State.armed, shut]; rfl)
    have unity := (law.strips n).trim_unity fun h => by rw [off] at h; cases h.2
    have cells := handEvery_onlyCells s (eachStrip armStrip (passOpened p low high s))
    rw [openPassBy_eq]
    refine writeLawAt_congr (s := eachStrip armStrip (passOpened p low high s)) ?_ (cells.strip n)
      (by rw [cells.playback]) (by rw [cells.timeline]) (by rw [cells.timeline])
    refine eachStrip_writeLawAt (fun n t => .armStrip n t) fun t _ strip => writeLawAt_armStrip ?_ ?_
    · rw [strip, passOpened_strip, off]
    · rw [strip, passOpened_strip, unity]
  · refine (rolesLaw_iff _).mpr ⟨⟨?_, fun _ => ?_, ?_, fun h => ?_, fun h => ?_⟩, fun q hq => ?_⟩
    · rw [playback, port, isOpen]; rfl
    · rw [playback, port, writing]
    · rw [writing, empty]; exact Nat.zero_le _
    · rw [writing]; exact empty
    · rw [playback, isOpen] at h; cases h
    · rw [writing] at hq
      cases hq
      exact ((sameLines_openPassBy p low high s).attached p).trans attached

/-! ### A take and a detach -/

theorem writeRoles_takeRecords {n : Nat} {s : State} (law : s.WriteRoles) : (takeRecords n s).WriteRoles := by
  obtain ⟨agree, roles⟩ := (rolesLaw_iff s).mp law.roles
  refine ⟨fun m => writeLawAt_congr (law.strips m) rfl rfl rfl rfl, ?_⟩
  have size : (s.writing.takes.drop n).length ≤ 1024 := by
    have := agree.takes_size
    simp only [List.length_drop]
    omega
  have empty : s.writing.takePort = none → s.writing.takes.drop n = [] := fun h => by
    rw [agree.none_empty h]; simp
  cases isOpen : s.playback.passOpen with
  | true =>
    have writing : (takeRecords n s).writing = { s.writing with takes := s.writing.takes.drop n } := by
      simp only [takeRecords, isOpen, if_true]
    refine (rolesLaw_iff _).mpr ⟨⟨agree.port_iff_open, fun _ => ?_, ?_, fun h => ?_, fun h => ?_⟩, fun p hp => ?_⟩
    · rw [writing]; exact agree.open_take_port isOpen
    · rw [writing]; exact size
    · rw [writing] at h ⊢; exact empty h
    · rw [show (takeRecords n s).playback.passOpen = s.playback.passOpen from rfl, isOpen] at h; cases h
    · rw [writing] at hp; exact roles p hp
  | false =>
    have writing : (takeRecords n s).writing = Writing.settled { s.writing with takes := s.writing.takes.drop n } := by
      simp only [takeRecords, isOpen, Bool.false_eq_true, if_false]
    have port : s.playback.passPort = none := by
      have := agree.port_iff_open
      rw [isOpen] at this
      simpa using this
    refine (rolesLaw_iff _).mpr ⟨rolesAgree_settled isOpen port size empty writing, fun p hp => ?_⟩
    rw [writing] at hp
    exact roles p (settled_takePort (w := { s.writing with takes := s.writing.takes.drop n }) hp)

theorem discardTakes_takes (s : State) :
    (discardTakes s).writing.takes = [] ∧ (discardTakes s).writing.takePort = none := by
  rw [discardTakes_writing]; exact ⟨rfl, rfl⟩

theorem rolesAgree_discardTakes {s : State} (law : s.RolesAgree) (shut : s.playback.passOpen = false) :
    (discardTakes s).RolesAgree where
  port_iff_open := by rw [(discardTakes_blocks s).1]; exact law.port_iff_open
  open_take_port h := by rw [(discardTakes_blocks s).1, shut] at h; cases h
  takes_size := by rw [(discardTakes_takes s).1]; exact Nat.zero_le _
  none_empty _ := (discardTakes_takes s).1
  closed_empty _ _ := (discardTakes_takes s).2

theorem stripsWrite_discardTakes {s : State} (law : s.StripsWrite) : (discardTakes s).StripsWrite :=
  stripsWrite_congr law (fun n => by rw [strip_of_strips (discardTakes_strips s)]; exact .refl _)
    (by rw [(discardTakes_blocks s).1]) (by rw [(discardTakes_blocks s).2]) (by rw [(discardTakes_blocks s).2])

theorem stripsWrite_endRoles {p : PortId} {s : State} (law : s.StripsWrite) : (endRoles p s).StripsWrite := by
  unfold endRoles
  split
  · exact stripsWrite_discardTakes (stripsWrite_closePassNow law)
  · split
    · exact stripsWrite_discardTakes law
    · exact law

/-- After the roles of port `p` have ended it has no role (R72, R145). -/
theorem rolesAgree_endRoles {p : PortId} {s : State} (law : s.RolesAgree) :
    (endRoles p s).RolesAgree ∧
      ∀ q, (endRoles p s).writing.takePort = some q → s.writing.takePort = some q ∧ q ≠ p := by
  have gone : ∀ t : State, ∀ q, (discardTakes t).writing.takePort = some q → s.writing.takePort = some q ∧ q ≠ p :=
    fun t q h => by rw [(discardTakes_takes t).2] at h; cases h
  unfold endRoles
  split
  · exact ⟨rolesAgree_discardTakes (rolesAgree_closePassNow law) (by rw [closePassNow_playback]), gone _⟩
  · next not_pass =>
    split
    · next take =>
      refine ⟨rolesAgree_discardTakes law ?_, gone _⟩
      by_contra isOpen
      exact not_pass ((law.open_take_port (by simpa using isOpen)).symm.trans take)
    · next not_take =>
      exact ⟨law, fun q hq => ⟨hq, fun e => not_take (e ▸ hq)⟩⟩

theorem releaseClaims_writing (p : PortId) (s : State) : (releaseClaims p s).writing = s.writing := rfl

theorem stripsWrite_releaseClaims {p : PortId} {s : State} (law : s.StripsWrite) : (releaseClaims p s).StripsWrite := by
  refine stripsWrite_congr law (fun n => ?_) (by rw [releaseClaims_playback]) (by rw [releaseClaims_timeline])
    (by rw [releaseClaims_timeline])
  rw [strip_releaseClaims]
  exact ⟨rfl, rfl, rfl, rfl, rfl⟩

theorem unplugged_blocks (p : PortId) (s : State) : (unplugged p s).strips = s.strips ∧
    (unplugged p s).playback = s.playback ∧ (unplugged p s).timeline = s.timeline ∧
      (unplugged p s).writing = s.writing := ⟨rfl, rfl, rfl, rfl⟩

theorem emptied_strips (p : PortId) (u : State) : (emptied p u).strips = u.strips := rfl

theorem emptied_writing (p : PortId) (u : State) : (emptied p u).writing = u.writing := rfl

theorem writeRoles_detachPort {p : PortId} {s : State} (law : s.WriteRoles) : (detachPort p s).WriteRoles := by
  obtain ⟨agree, roles⟩ := (rolesLaw_iff s).mp law.roles
  obtain ⟨strips, playback, timeline, writing⟩ := unplugged_blocks p s
  have off : (unplugged p s).StripsWrite := stripsWrite_congr law.strips
    (fun n => by rw [strip_of_strips strips]; exact .refl _) (by rw [playback]) (by rw [timeline]) (by rw [timeline])
  have off_agree : (unplugged p s).RolesAgree :=
    rolesAgree_congr agree (by rw [playback]) (by rw [playback]) (by rw [writing]) (takesKept_of_writing (by rw [writing]))
  have only := releaseTouches_onlyStrips p (unplugged p s)
  have lifted : (releaseTouches p (unplugged p s)).StripsWrite := eachStrip_keeps (P := State.StripsWrite)
    (fun n t h => (OnlyAt.liftTouch p n t).stripsWrite writeLawAt_liftTouch h) off
  have lifted_agree : (releaseTouches p (unplugged p s)).RolesAgree :=
    only.rolesAgree (eachStrip_takesKept (fun n t => .liftTouch p n t) (takesKept_liftTouch p) _) off_agree
  have released : (releaseClaims p (releaseTouches p (unplugged p s))).StripsWrite :=
    stripsWrite_releaseClaims lifted
  have released_agree : (releaseClaims p (releaseTouches p (unplugged p s))).RolesAgree :=
    rolesAgree_congr lifted_agree (by rw [releaseClaims_playback]) (by rw [releaseClaims_playback])
      (by rw [releaseClaims_writing]) (takesKept_of_writing (by rw [releaseClaims_writing]))
  have ended : (unhanded p s).StripsWrite := by
    rw [unhanded]; exact stripsWrite_endRoles released
  obtain ⟨ended_agree, others⟩ : (unhanded p s).RolesAgree ∧ ∀ q, (unhanded p s).writing.takePort = some q →
      (releaseClaims p (releaseTouches p (unplugged p s))).writing.takePort = some q ∧ q ≠ p := by
    rw [unhanded]; exact rolesAgree_endRoles released_agree
  have final_strips : (detachPort p s).strips = (unhanded p s).strips := strips_detachPort p s
  have final_playback := (detachPort_rest p s).2.2
  have final_writing : (detachPort p s).writing = (unhanded p s).writing := by
    rw [detachPort_emptied]; exact emptied_writing ..
  have final_timeline : (detachPort p s).timeline = (unhanded p s).timeline := by
    rw [detachPort_emptied]; exact emptied_timeline ..
  refine ⟨stripsWrite_congr ended (fun n => by rw [strip_of_strips final_strips]; exact .refl _)
    (by rw [final_playback]) (by rw [final_timeline]) (by rw [final_timeline]), (rolesLaw_iff _).mpr ⟨?_, fun q hq => ?_⟩⟩
  · exact rolesAgree_congr ended_agree (by rw [final_playback]) (by rw [final_playback]) (by rw [final_writing])
      (takesKept_of_writing (by rw [final_writing]))
  · rw [final_writing] at hq
    obtain ⟨take, other⟩ := others q hq
    rw [releaseClaims_writing, only.writing] at take
    rw [State.isAttached, attached_detachPort, if_neg other]
    exact roles q (writing ▸ take)

/-! ### Requests and events -/

theorem writeRoles_endTouch {p : PortId} {o : Object} {s : State} (law : s.WriteRoles) : (endTouch p o s).WriteRoles := by
  unfold endTouch
  split
  · split
    · exact writeRoles_changeToucher law
    · exact law
  · exact law

theorem writeRoles_timeline {f : Timeline → Timeline} {s : State} (law : s.WriteRoles)
    (counting : (f s.timeline).counting = s.timeline.counting)
    (punch : (f s.timeline).punch.filtered = s.timeline.punch.filtered) : (s.modTimeline f).WriteRoles :=
  writeRoles_congr law rfl ⟨rfl, rfl⟩ rfl counting punch fun _ ha => ha

theorem writeRoles_putBack {p : PortId} {k : Snapshot} {s : State} (law : s.WriteRoles) :
    (recallApply p k s).WriteRoles := by
  unfold recallApply
  dsimp only
  split
  · exact law
  · exact writeRoles_commit (by rfl) (by rfl) (by rfl) _ _ law

theorem writeRoles_blocks (e : Engine) (b : BusTable) (a : Audio) {s : State} (law : s.WriteRoles) :
    ({ s with engine := e, busTable := b, audio := a } : State).WriteRoles :=
  writeRoles_congr law rfl ⟨rfl, rfl⟩ rfl rfl rfl fun _ ha => ha

theorem Deed.writeRoles {p : PortId} {s t : State} (attached : (s.port p).attached = true) (d : Deed p s t)
    (law : s.WriteRoles) : t.WriteRoles := by
  cases d with
  | ports rest port transaction => exact writeRoles_ports law rest fun q ha => (port q).attached.trans ha
  | save n => exact writeRoles_ports law rfl fun q ha => ((sameLines_setRecall p _ s).attached q).trans ha
  | change revised written reported m => exact writeRoles_change revised written reported m law
  | mode n m => exact (OnlyAt.changeMode n m s).writeRoles writeLaw_changeMode (fun _ => takesKept_changeMode ..) law
  | @putBack k rest _ top passed =>
    exact writeRoles_putBack (writeRoles_ports law rfl fun q ha => ((sameLines_setRecall p rest s).attached q).trans ha)
  | bus passed gain => rw [applyBus_eq]; exact writeRoles_congr law rfl ⟨rfl, rfl⟩ rfl rfl rfl fun _ ha => ha
  | master passed => rw [applyMaster_eq]; exact writeRoles_congr law rfl ⟨rfl, rfl⟩ rfl rfl rfl fun _ ha => ha
  | hold held touched => exact writeRoles_setHolder law
  | unhold o => exact writeRoles_setHolder law
  | yield holder target => exact writeRoles_setHolder (writeRoles_endTouch law)
  | touch free => exact writeRoles_changeToucher law
  | untouch n => exact writeRoles_changeToucher law
  | line l low filter => cases l <;> exact writeRoles_timeline law rfl rfl
  | locate range => exact writeRoles_locateTo law
  | openPass passed low high => exact writeRoles_openPassBy attached passed law
  | closePass port => exact writeRoles_closePassNow law
  | cue port read passed => exact writeRoles_arrivalScan law
  | stale => exact writeRoles_countStale law
  | take port n => exact writeRoles_takeRecords law
  | clips set => exact writeRoles_blocks s.engine (clearClips set s.busTable) s.audio law
  | ramp | meters | loop | rate | patch => exact writeRoles_congr law rfl ⟨rfl, rfl⟩ rfl rfl rfl fun _ ha => ha

theorem writeRoles_withAudio {a : Audio} {s : State} (law : s.WriteRoles) : (withAudio a s).WriteRoles := by
  have taken : ({ s with audio := a } : State).WriteRoles :=
    writeRoles_congr law rfl ⟨rfl, rfl⟩ rfl rfl rfl fun _ ha => ha
  unfold withAudio
  dsimp only
  split
  · exact writeRoles_raiseEverywhere taken
  · exact taken

theorem writeRoles_takeSaturation {sat : Saturated} {s : State} (law : s.WriteRoles) :
    (takeSaturation sat s).WriteRoles := by
  have set := writeRoles_blocks s.engine (setClips sat s.busTable) s.audio law
  unfold takeSaturation
  dsimp only
  split
  · exact writeRoles_raiseEverywhere set
  · exact set

section Reset
variable (rate : SampleRate) {ports : Vector PortState 4}

theorem writeLawAt_afterReset (n : StripNo) : (State.afterReset rate ports).WriteLawAt n := by
  refine writeLawAt_off ?_ ?_ ?_
  · rw [State.armed]; rfl
  · rw [strip_afterReset]; rfl
  · rw [strip_afterReset]; rfl

theorem rolesLaw_afterReset : (State.afterReset rate ports).RolesLaw :=
  ⟨rfl, nofun, nofun, Nat.zero_le _, fun _ => rfl, fun _ _ => rfl⟩

end Reset

theorem Event.writeRoles {s t : State} (e : Event s t) (law : s.WriteRoles) : t.WriteRoles := by
  cases e with
  | ports rest port => exact writeRoles_ports law rest fun q ha => (port q).attached.trans ha
  | deed attached d => exact d.writeRoles attached law
  | reset rate present =>
    exact writeRoles_congr ⟨writeLawAt_afterReset rate, rolesLaw_afterReset rate⟩ rfl ⟨rfl, rfl⟩ rfl rfl rfl
      fun _ ha => ha
  | @attach p _ detached =>
    refine writeRoles_ports law rfl fun q ha => ?_
    rw [port_modPort]
    split
    · rfl
    · exact ha
  | detach attached => exact writeRoles_detachPort law
  | @audio a _ turn => exact writeRoles_withAudio law
  | engine =>
    rw [enginePeriod_taken]
    exact writeRoles_takeSaturation (writeRoles_blocks _ _ _ law)
  | timeline v => exact writeRoles_timelinePeriod law
  | frames => exact writeRoles_congr law rfl ⟨rfl, rfl⟩ rfl rfl rfl fun _ ha => ha

/-! ### The counting field (R97) -/

theorem Deed.counts {p : PortId} {s t : State} (d : Deed p s t) (h : s.timeline.Counts) : t.timeline.Counts := by
  have same : t.timeline = s.timeline → t.timeline.Counts := fun k => by rw [k]; exact h
  cases d with
  | ports rest port transaction => exact same (by rw [rest])
  | @change n r _ revised written reported m => exact same (OnlyAt.change p n r written reported m s).timeline
  | mode n m => exact same (OnlyAt.changeMode n m s).timeline
  | putBack top passed => exact same (recallApply_onlyAt ..).timeline
  | bus passed gain => exact same (by rw [applyBus_eq])
  | master passed => exact same (by rw [applyMaster_eq])
  | hold | unhold => exact same (setHolder_timeline ..)
  | @yield o q => exact same ((setHolder_timeline ..).trans (endTouch_onlyStrips p o s).timeline)
  | touch free => exact same (OnlyAt.changeToucher _ _ s).timeline
  | untouch n => exact same (OnlyAt.changeToucher n none s).timeline
  | line l low filter => cases l <;> exact h
  | loop | rate => exact h
  | locate range => exact locateTo_counts ..
  | openPass passed low high => exact same (openPassBy_onlyPass ..).timeline
  | closePass port => exact same (closePassNow_onlyPass s).timeline
  | cue port read passed => exact same (queueCue_timeline ..)
  | save | ramp | clips | meters | stale | take | patch => exact same rfl

theorem Event.counts {s t : State} (e : Event s t) (h : s.timeline.Counts) : t.timeline.Counts := by
  have same : t.timeline = s.timeline → t.timeline.Counts := fun k => by rw [k]; exact h
  cases e with
  | ports rest port => exact same (by rw [rest])
  | deed attached d => exact d.counts h
  | reset rate present => exact rfl
  | detach attached => exact same (detachPort_timeline ..)
  | audio turn => exact same (by rw [withAudio_eq])
  | engine => exact same (by rw [enginePeriod_eq])
  | timeline v => exact timelinePeriod_counts h v
  | attach | frames => exact same rfl

/-- Settles O12: every event moves the write states with arming, trigger and counting, and the roles with the pass and
the take queue. -/
theorem stepKeepsWriteStatesAndRolesLawful : Obligations.StepKeepsWriteStatesAndRolesLawful := by
  intro s t writing roles h
  obtain ⟨counts, strips⟩ := (writingLaw_iff s).mp writing
  obtain ⟨counts', law⟩ := step_keeps (P := fun s => s.timeline.Counts ∧ s.WriteRoles)
    (fun _ law => ⟨law.1, writeRoles_congr law.2 rfl ⟨rfl, rfl⟩ rfl rfl rfl fun _ ha => ha⟩)
    (fun law e => ⟨e.counts law.1, e.writeRoles law.2⟩) ⟨counts, strips, roles⟩ h
  exact ⟨(writingLaw_iff t).mpr ⟨counts', law.strips⟩, law.roles⟩

end Sys2Proof.Machine

/-!
PROOFS. Device reset, the beginning of a transaction, and the bytes of a strip record.
-/
namespace Sys2Proof.Machine

/-! ### Device reset -/

theorem exec_deviceReset_arm (rate : SampleRate) (present : Vector Bool 4) (s : State) :
    exec (.deviceReset rate present) s = execDeviceReset rate present s := rfl

theorem overtaken_eq (t : Transaction) : t.overtaken = if t = .idle then .idle else .ignored := by cases t <;> rfl

/-- The default patch sends the stem samples to the lanes from 1 on, 12 to a stem (R157). -/
theorem defaultSelection_stem (k : StemNo) (c : Channel)
    (h : 16 * (1 + (12 * k.val + c.val) / 16) + (12 * k.val + c.val) % 16 < 128) :
    defaultSelection ⟨16 * (1 + (12 * k.val + c.val) / 16) + (12 * k.val + c.val) % 16, h⟩ = .stem k c := by
  have index : 16 * (1 + (12 * k.val + c.val) / 16) + (12 * k.val + c.val) % 16 = 16 + 12 * k.val + c.val := by omega
  have stem : (16 + 12 * k.val + c.val - 16) / 12 = k.val := by omega
  have channel : (16 + 12 * k.val + c.val - 16) % 12 = c.val := by omega
  have bound := k.isLt
  simp only [defaultSelection, index, stem, channel]
  rw [dif_neg (by omega), if_neg (by omega), dif_pos (by omega)]

/-- Settles O3: the reset values of each block, and for each port what was of its transaction. -/
theorem deviceResetGivesEveryBlockItsValues : Obligations.DeviceResetGivesEveryBlockItsValues := by
  intro rate present s
  obtain ⟨ports, hports⟩ : ∃ ports, ports =
    Vector.ofFn fun p => PortState.fresh present[p] (s.port p).transaction.overtaken := ⟨_, rfl⟩
  refine ⟨{ State.afterReset rate ports with pending := s.pending },
    by rw [exec_deviceReset_arm, execDeviceReset, hports], strip_afterReset rate (ports := ports),
    cell_afterReset rate (ports := ports), gainCell_afterReset rate (ports := ports), rfl, fun b c => ?_,
    bus_afterReset rate (ports := ports), fun b => ?_, fun k => ?_,
    rfl, rfl, fun i => ?_, fun c => ?_, rfl, rfl, fun l => by cases l <;> rfl, rfl, rfl, rfl, rfl, rfl, rfl, rfl, rfl,
    rfl, rfl, rfl, rfl, rfl, rfl, rfl, fun l => ?_, fun l k => ?_, fun c => ?_, fun k c => ?_, fun k => ?_, fun k => ?_,
    fun p => ?_, rfl⟩
  · simp [State.afterReset, Engine.reset]
  · simp [State.afterReset, BusTable.reset]
  · simp [State.afterReset, BusTable.reset]
  · simp [State.afterReset, BusTable.reset]
  · simp [State.afterReset, BusTable.reset]
  · simp [State.afterReset, Audio.reset, Lane.down]
  · simp [State.afterReset, Audio.reset]
  · simp [State.afterReset, Audio.reset, defaultSelection]
  · simp [State.afterReset, Audio.reset, defaultSelection_stem]
  · have bound := k.isLt
    simp [State.afterReset, Audio.reset, defaultSelection]
    omega
  · simp [State.afterReset, Audio.reset, defaultSelection]
    omega
  · rw [hports]
    exact (port_resetState rate present s p).trans (by rw [overtaken_eq]; rfl)

/-- Settles O4: each law at the values of reset. -/
theorem resetMeetsEveryLaw : Obligations.ResetMeetsEveryLaw := by
  have port : ∀ p, State.reset.port p = PortState.fresh true .idle := fun p => by
    simp [State.reset, State.port, State.afterReset]
  have empty : ∀ p, (State.reset.port p).recallStack = [] := fun p => by rw [port]; rfl
  exact ⟨handsLaw_afterReset _, fun p => port p ▸ law_fresh true nofun, pansLaw_afterReset _ empty,
    cellsLaw_afterReset _ empty, targetsLaw_afterReset .., timelineLaw_reset .., cuesLaw_of_empty rfl rfl,
    rolesLaw_afterReset _, ⟨rfl, writeLawAt_afterReset _⟩, (lanesLaw_iff _).mpr (audio_law_reset _)⟩

/-! ### The beginning of a transaction -/

theorem exec_transactionBegin_arm (p : PortId) (s : State) :
    exec (.transactionBegin p) s = execTransactionBegin p s := rfl

/-- The bytes that SEL takes for shifting out: of the waiting reply, or of the idle one (R163, R166). -/
theorem reply_bytes (slot : Option Reply) (summary : BitVec 12) :
    (slot.getD Reply.idle).bytes summary =
      (match slot with
        | some r => [r.status.code, r.code] ++ bytes2 (BitVec.ofNat 16 r.payload.length)
        | none => [0xFF, 0x00, 0x00, 0x00])
      ++ bytes2 (summary.setWidth 16)
      ++ (match slot with
        | some r => r.payload
        | none => []) := by
  cases slot <;> rfl

theorem selRises_opened {q : PortState} (idle : q.transaction = .idle) (attached : q.attached = true) :
    q.selRises =
      { q with transaction := .opened, replySlot := none, shiftOut := (q.replySlot.getD Reply.idle).bytes q.summary } := by
  simp [PortState.selRises, idle, attached]

theorem selRises_ignored {q : PortState} (idle : q.transaction = .idle) (detached : q.attached = false) :
    q.selRises = { q with transaction := .ignored } := by
  simp [PortState.selRises, idle, detached]

theorem selRises_asserted {q : PortState} (asserted : q.transaction ≠ .idle) : q.selRises = q := by
  unfold PortState.selRises
  split
  · next idle => exact absurd idle asserted
  all_goals rfl

/-- Settles O15: the branches of SEL's rise, and the bits of a transaction in progress. -/
theorem transactionBeginTakesTheWaitingReply : Obligations.TransactionBeginTakesTheWaitingReply := by
  intro p clocks i bytes s hbytes
  have taken : bytes = ((s.port p).replySlot.getD Reply.idle).bytes (s.port p).summary := by
    rw [hbytes, reply_bytes]
    cases (s.port p).replySlot <;> rfl
  rw [exec_transactionBegin_arm, execTransactionBegin]
  refine ⟨fun idle attached => ?_, fun idle detached => ?_, fun asserted => ?_, fun closed => sdo_not_opened closed clocks⟩
  · refine ⟨_, rfl, modPort_congr (by rw [selRises_opened idle attached, taken]), ?_⟩
    have port : (s.modPort p PortState.selRises).port p =
        { s.port p with transaction := .opened, replySlot := none, shiftOut := bytes } := by
      rw [port_modPort_self, selRises_opened idle attached, taken]
    rw [sdo_opened (by rw [port])]
    refine ⟨by simp, fun clocked inside => ?_, fun clocked beyond => ?_⟩
    · rw [port]
      simp [clocked]
    · rw [port]
      simp [clocked, List.getElem?_eq_none beyond]
  · exact congrArg _ (modPort_congr (selRises_ignored idle detached))
  · exact congrArg _ ((modPort_congr (g := fun q => q) (selRises_asserted asserted)).trans (modPort_id ..))

/-! ### The strip record -/

theorem padded_length (n : Nat) (l : List Byte) : (padded n l).length = n := by simp [padded]

@[simp] theorem wPan_length (l : List PanEntry) : (wPan l).length = 13 := padded_length ..

theorem wPan_count (l : List PanEntry) : (wPan l)[0]? = some (BitVec.ofNat 8 l.length) := rfl

/-- The bytes of one pan entry (R178). -/
def wEntry (e : PanEntry) : List Byte := BitVec.ofNat 8 e.channel.val :: bytes2 (BitVec.ofNat 16 e.weight)

/-- Each entry of a pan list at its offset, and 0 where the list has none. -/
theorem wPan_entry {l : List PanEntry} (size : l.length ≤ 4) (k : Fin 4) :
    ((wPan l).drop (1 + 3 * k.val)).take 3 = (l[k.val]?.map wEntry).getD [0, 0, 0] := by
  match l, size with
  | [], _ | [_], _ | [_, _], _ | [_, _, _], _ | [_, _, _, _], _ =>
    match k with
    | 0 | 1 | 2 | 3 => rfl

/-- The first 17 bytes of a strip record. -/
def wFront (n : StripNo) (r : Strip) : List Byte :=
  [wBits [true, r.shadowFader.isSome, r.shadowMute.isSome, r.shadowPan.isSome, r.mute, r.shadowMute.getD false,
      r.inverted, r.linePunch], w1 n.val]
    ++ wSource r.source ++ wDest r.dest ++ w2 r.fader ++ w2 r.trim ++ w2 (r.shadowFader.getD 0)
    ++ [w1 r.mode.code, w1 r.writeState.code, wPort r.holder, wPort r.toucher]

/-- The last 13 bytes of a strip record. -/
def wShadow (r : Strip) : List Byte :=
  match r.shadowPan with
  | some l => wPan l
  | none => List.replicate 13 0

theorem wStrip_parts (n : StripNo) (r : Strip) : wStrip n r = wFront n r ++ (wPan r.pan ++ wShadow r) := by
  rw [← List.append_assoc]; rfl

theorem wSource_bytes (x : Source) : ∃ a b c, wSource x = [a, b, c] := by cases x <;> exact ⟨_, _, _, rfl⟩

theorem wDest_bytes (d : Dest) : ∃ a b, wDest d = [a, b] := by cases d <;> exact ⟨_, _, rfl⟩

theorem wFront_bytes (n : StripNo) (r : Strip) :
    ∃ a b c d e, wSource r.source = [a, b, c] ∧ wDest r.dest = [d, e] ∧
      wFront n r =
        [wBits [true, r.shadowFader.isSome, r.shadowMute.isSome, r.shadowPan.isSome, r.mute, r.shadowMute.getD false,
          r.inverted, r.linePunch], w1 n.val, a, b, c, d, e] ++ w2 r.fader ++ w2 r.trim ++ w2 (r.shadowFader.getD 0)
        ++ [w1 r.mode.code, w1 r.writeState.code, wPort r.holder, wPort r.toucher] := by
  obtain ⟨a, b, c, source⟩ := wSource_bytes r.source
  obtain ⟨d, e, dest⟩ := wDest_bytes r.dest
  refine ⟨a, b, c, d, e, source, dest, ?_⟩
  rw [wFront, source, dest]
  rfl

theorem wFront_length (n : StripNo) (r : Strip) : (wFront n r).length = 17 := by
  obtain ⟨a, b, c, d, e, -, -, front⟩ := wFront_bytes n r
  rw [front]; rfl

theorem wShadow_length (r : Strip) : (wShadow r).length = 13 := by
  unfold wShadow
  split
  · exact wPan_length _
  · rfl

theorem wShadow_entry {r : Strip} (size : ∀ l, r.shadowPan = some l → l.length ≤ 4) (k : Fin 4) :
    ((wShadow r).drop (1 + 3 * k.val)).take 3 = ((r.shadowPan.getD [])[k.val]?.map wEntry).getD [0, 0, 0] := by
  unfold wShadow
  cases shadow : r.shadowPan with
  | some l => exact wPan_entry (size l shadow) k
  | none => match k with
    | 0 | 1 | 2 | 3 => rfl

theorem wShadow_count (r : Strip) : (wShadow r)[0]? = some (BitVec.ofNat 8 (r.shadowPan.getD []).length) := by
  unfold wShadow
  cases r.shadowPan <;> rfl

/-- A slice of a list at or beyond the length of its first part. -/
theorem slice_append {α : Type} (a b : List α) (i k : Nat) : ((a ++ b).drop (a.length + i)).take k = (b.drop i).take k := by
  rw [List.drop_append, List.drop_eq_nil_of_le (by omega), List.nil_append, Nat.add_sub_cancel_left]

/-- A slice that ends within the first part. -/
theorem slice_append_left {α : Type} {a b : List α} {i k : Nat} (h : i + k ≤ a.length) :
    ((a ++ b).drop i).take k = (a.drop i).take k := by
  rw [List.drop_append_of_le_length (by omega), List.take_append_of_le_length (by rw [List.length_drop]; omega)]

/-- The eight flags of the first byte, bit 0 first. -/
theorem wBits_getLsbD (l : List Bool) (i : Nat) (h : i < 8) : (wBits l).getLsbD i = l.getD i false := by
  simp [wBits, h, BitVec.getLsbD_ofBoolListLE, List.getD_eq_getElem?_getD]

theorem strip_front_slice (n : StripNo) (r : Strip) {i k : Nat} (h : i + k ≤ 17) :
    ((wStrip n r).drop i).take k = ((wFront n r).drop i).take k := by
  rw [wStrip_parts, slice_append_left (by rw [wFront_length]; exact h)]

theorem strip_front_byte (n : StripNo) (r : Strip) {i : Nat} (h : i < 17) : (wStrip n r)[i]? = (wFront n r)[i]? := by
  rw [wStrip_parts, List.getElem?_append_left (by rw [wFront_length]; exact h)]

/-- Settles O29: the record is its front of 17 bytes, the pan field and the shadow's. -/
theorem stripRecordHoldsEachItemAtItsOffset : Obligations.StripRecordHoldsEachItemAtItsOffset := by
  intro n r size shadow_size
  obtain ⟨a, b, c, d, e, source, dest, front⟩ := wFront_bytes n r
  have pan_at : ∀ i k, i + k ≤ 13 → ((wStrip n r).drop (17 + i)).take k = ((wPan r.pan).drop i).take k := by
    intro i k h
    rw [wStrip_parts, ← wFront_length n r, slice_append, slice_append_left (by rw [wPan_length]; exact h)]
  have shadow_at : ∀ i k, ((wStrip n r).drop (30 + i)).take k = ((wShadow r).drop i).take k := by
    intro i k
    have front_pan : (wFront n r ++ wPan r.pan).length = 30 := by rw [List.length_append, wFront_length, wPan_length]
    rw [wStrip_parts, ← List.append_assoc, ← front_pan, slice_append]
  have pan_byte : (wStrip n r)[17]? = (wPan r.pan)[0]? := by
    rw [wStrip_parts, List.getElem?_append_right (by rw [wFront_length]), wFront_length,
      List.getElem?_append_left (by rw [wPan_length]; decide)]
  have shadow_byte : (wStrip n r)[30]? = (wShadow r)[0]? := by
    rw [wStrip_parts, List.getElem?_append_right (by rw [wFront_length]; decide), wFront_length,
      List.getElem?_append_right (by rw [wPan_length]), wPan_length]
  refine ⟨?_, fun flags first => ?_, ?_, ?_, ?_, ?_, ?_, ?_, ?_, ?_, ?_, ?_, ?_, fun k => ?_, ?_, fun k => ?_⟩
  · simp [wStrip_parts, wFront_length, wShadow_length]
  · rw [strip_front_byte n r (by decide), front] at first
    obtain rfl := Option.some.inj first
    refine ⟨?_, ?_, ?_, ?_, ?_, ?_, ?_, ?_⟩
    all_goals exact wBits_getLsbD _ _ (by decide)
  · rw [strip_front_byte n r (by decide), front]; rfl
  · rw [strip_front_slice n r (by decide), front]
    exact source.symm.trans (by cases r.source <;> rfl)
  · rw [strip_front_slice n r (by decide), front]
    exact dest.symm.trans (by cases r.dest <;> rfl)
  · rw [strip_front_slice n r (by decide), front]; rfl
  · rw [strip_front_slice n r (by decide), front]; rfl
  · rw [strip_front_slice n r (by decide), front]; rfl
  · rw [strip_front_byte n r (by decide), front]; cases r.mode <;> rfl
  · rw [strip_front_byte n r (by decide), front]; cases r.writeState <;> rfl
  · rw [strip_front_byte n r (by decide), front]; cases r.holder <;> rfl
  · rw [strip_front_byte n r (by decide), front]; cases r.toucher <;> rfl
  · rw [pan_byte, wPan_count]
  · rw [show 18 + 3 * k.val = 17 + (1 + 3 * k.val) by omega, pan_at _ _ (by omega), wPan_entry size]
    cases r.pan[k.val]? <;> rfl
  · rw [shadow_byte, wShadow_count]
  · rw [show 31 + 3 * k.val = 30 + (1 + 3 * k.val) by omega, shadow_at, wShadow_entry shadow_size]
    cases (r.shadowPan.getD [])[k.val]? <;> rfl

end Sys2Proof.Machine

/-!
PROOFS. Requests that are not taken, and frames: what R164 makes of the bytes collected, and the frame of a request.
-/
namespace Sys2Proof.Machine

/-! ### Requests that are not taken -/

theorem runRequest_of_sender {i : Instr} {p : PortId} (h : i.sender = some p) (s : State) :
    runRequest i s = exec i s := by
  rw [runRequest_eq, h]; rfl

/-- A command that a port sends is a request of that port. -/
theorem exec_is_request {i : Instr} {p : PortId} (h : i.sender = some p) (s : State) :
    ∃ f, exec i s = request p f s := by
  rw [← runRequest_of_sender h]
  cases i
  all_goals try cases h
  all_goals dsimp only [runRequest]
  all_goals exact ⟨_, rfl⟩

theorem takes_false_iff (q : PortState) : q.takes = false ↔ q.attached = false ∨ q.transaction = .ignored := by
  cases ha : q.attached <;> simp [PortState.takes, ha]

/-- Settles O14: every request leaves the fall of SEL alone on a port that takes nothing. -/
theorem requestsNotTakenAreIgnoredWhole : Obligations.RequestsNotTakenAreIgnoredWhole := by
  intro i p s sender untaken
  have ignored := (takes_false_iff _).mpr untaken
  obtain ⟨f, hf⟩ := exec_is_request sender s
  rw [hf, request_ignored ignored]
  exact congrArg _ (modPort_congr (transacted_ignored ignored))

/-! ### Bytes and fields -/

@[simp] theorem join2_bytes (w : BitVec 16) : join2 (w.extractLsb' 8 8) (w.extractLsb' 0 8) = w := by
  refine BitVec.eq_of_getLsbD_eq fun i hi => ?_
  rw [join2, BitVec.getLsbD_append]
  by_cases low : i < 8
  · simp [low]
  · have high : i - 8 < 8 := by omega
    have index : 8 + (i - 8) = i := by omega
    simp [low, high, index]

@[simp] theorem join4_bytes (w : BitVec 32) :
    join4 (w.extractLsb' 24 8) (w.extractLsb' 16 8) (w.extractLsb' 8 8) (w.extractLsb' 0 8) = w := by
  refine BitVec.eq_of_getLsbD_eq fun i hi => ?_
  rw [join4, BitVec.getLsbD_append, BitVec.getLsbD_append, BitVec.getLsbD_append]
  by_cases b0 : i < 8
  · simp [b0, show i < 16 by omega]
  · by_cases b1 : i < 16
    · simp [b0, b1, show i - 8 < 8 by omega, show 8 + (i - 8) = i by omega]
    · by_cases b2 : i < 24
      · simp [b1, show i - 16 < 8 by omega, show 16 + (i - 16) = i by omega]
      · simp [b1, show ¬i - 16 < 8 by omega, show i - 16 - 8 < 8 by omega, show 24 + (i - 16 - 8) = i by omega]

theorem join2_toNat (a b : Byte) : (join2 a b).toNat = 256 * a.toNat + b.toNat := by
  rw [join2, BitVec.toNat_append, Nat.shiftLeft_eq_mul_pow, Nat.mul_comm, ← Nat.two_pow_add_eq_or_of_lt b.isLt]

@[simp] theorem toValue13_toList (v : Value13) : toValue13 v.toList = some v := by
  rw [toValue13, dif_pos (by simp)]; rfl

theorem toValue13_some {l : List Byte} (h : l.length = 13) : ∃ v, toValue13 l = some v := by
  rw [toValue13, dif_pos h]; exact ⟨_, rfl⟩

theorem toValue13_none {l : List Byte} (h : l.length ≠ 13) : toValue13 l = none := by
  rw [toValue13, dif_neg h]

@[simp] theorem take_value (v : Value13) (l : List Byte) : (v.toList ++ l).take 13 = v.toList :=
  List.take_left' (by simp)

@[simp] theorem drop_value (v : Value13) (l : List Byte) : (v.toList ++ l).drop 13 = l :=
  List.drop_left' (by simp)

/-! ### The frame of a request -/

theorem readCues_bytes (cues : List CueField) : readCues cues.length (cues.flatMap CueField.bytes) = some cues := by
  induction cues with
  | nil => rfl
  | cons c rest ih =>
    simp only [List.flatMap_cons, List.length_cons, CueField.bytes, bytes4, List.cons_append, List.nil_append,
      readCues, take_value, drop_value, toValue13_toList, ih, join4_bytes]

theorem readPatches_bytes (entries : List PatchField) :
    readPatches entries.length (entries.flatMap PatchField.bytes) = some entries := by
  induction entries with
  | nil => rfl
  | cons e rest ih =>
    simp only [List.flatMap_cons, List.length_cons, PatchField.bytes, List.cons_append, List.nil_append,
      readPatches, ih, Option.map_some]

theorem length_cues (cues : List CueField) : (cues.flatMap CueField.bytes).length = 19 * cues.length := by
  induction cues with
  | nil => rfl
  | cons c rest ih => simp [CueField.bytes, bytes4, ih]; omega

theorem length_patches (entries : List PatchField) :
    (entries.flatMap PatchField.bytes).length = 4 * entries.length := by
  induction entries with
  | nil => rfl
  | cons e rest ih => simp [PatchField.bytes, ih]; omega

/-- The payload of a well formed request fits a frame (R164). -/
theorem payload_length {i : Instr} (h : i.wellFormed = true) : i.payload.length ≤ 1020 := by
  cases i with
  | cue p cues =>
    have fits : 4 + (1 + 19 * cues.length) ≤ 1024 := of_decide_eq_true h
    simp only [Instr.payload, List.length_cons, length_cues]
    omega
  | patchSet p first entries =>
    have fits : 4 + (2 + 4 * entries.length) ≤ 1024 := of_decide_eq_true h
    simp only [Instr.payload, List.length_cons, length_patches]
    omega
  | _ => simp [Instr.payload, bytes2, bytes4]

theorem knownCode_of_sender {i : Instr} {p : PortId} (h : i.sender = some p) : knownCode i.code = true := by
  cases i
  all_goals try cases h
  all_goals rfl

/-- The count byte of a list that fits a frame. -/
theorem count_toNat {n : Nat} (h : n < 256) : (BitVec.ofNat 8 n).toNat = n := by
  rw [BitVec.toNat_ofNat]; omega

/-- The payload of a request reads back under its code. -/
theorem readPayload_payload {i : Instr} {p : PortId} (sender : i.sender = some p) (h : i.wellFormed = true) :
    readPayload p i.code i.posted i.payload = some i := by
  cases i
  all_goals try cases sender
  case move posted surface field op index value =>
    change (toValue13 value.toList).map (Instr.move p posted surface field op index ·) = _
    rw [toValue13_toList]; rfl
  case setRoute surface source dest carried pan =>
    change (toValue13 pan.toList).map (Instr.setRoute p surface source dest carried ·) = _
    rw [toValue13_toList]; rfl
  case setStrip surface source polarity dest fader mute pan mode linePunch =>
    change (match toValue13 ((pan.toList ++ [mode, linePunch]).take 13), (pan.toList ++ [mode, linePunch]).drop 13 with
      | some pan, [mode, linePunch] => some (Instr.setStrip p surface source polarity dest
          (join2 (fader.extractLsb' 8 8) (fader.extractLsb' 0 8)) mute pan mode linePunch)
      | _, _ => none) = _
    rw [take_value, drop_value, toValue13_toList, join2_bytes]
  case setRamp w =>
    change some (Instr.setRamp p (join2 (w.extractLsb' 8 8) (w.extractLsb' 0 8))) = _
    rw [join2_bytes]
  case setBus bus sel width gain mute print =>
    change some (Instr.setBus p bus sel width (join2 (gain.extractLsb' 8 8) (gain.extractLsb' 0 8)) mute print) = _
    rw [join2_bytes]
  case clearClip w =>
    change some (Instr.clearClip p
      (join4 (w.extractLsb' 24 8) (w.extractLsb' 16 8) (w.extractLsb' 8 8) (w.extractLsb' 0 8))) = _
    rw [join4_bytes]
  case locate w =>
    change some (Instr.locate p
      (join4 (w.extractLsb' 24 8) (w.extractLsb' 16 8) (w.extractLsb' 8 8) (w.extractLsb' 0 8))) = _
    rw [join4_bytes]
  case loopSet v w on =>
    change some (Instr.loopSet p
      (join4 (v.extractLsb' 24 8) (v.extractLsb' 16 8) (v.extractLsb' 8 8) (v.extractLsb' 0 8))
      (join4 (w.extractLsb' 24 8) (w.extractLsb' 16 8) (w.extractLsb' 8 8) (w.extractLsb' 0 8)) on) = _
    rw [join4_bytes, join4_bytes]
  case openPass v w =>
    change some (Instr.openPass p (join2 (v.extractLsb' 8 8) (v.extractLsb' 0 8))
      (join2 (w.extractLsb' 8 8) (w.extractLsb' 0 8))) = _
    rw [join2_bytes, join2_bytes]
  case enable w =>
    change some (Instr.enable p (join2 (w.extractLsb' 8 8) (w.extractLsb' 0 8))) = _
    rw [join2_bytes]
  case clear w =>
    change some (Instr.clear p (join2 (w.extractLsb' 8 8) (w.extractLsb' 0 8))) = _
    rw [join2_bytes]
  case cue cues =>
    have size := payload_length h
    simp only [Instr.payload, List.length_cons, length_cues] at size
    change (readCues (BitVec.ofNat 8 cues.length).toNat (cues.flatMap CueField.bytes)).map (Instr.cue p ·) = _
    rw [count_toNat (by omega), readCues_bytes]; rfl
  case patchSet first entries =>
    have size := payload_length h
    simp only [Instr.payload, List.length_cons, length_patches] at size
    change (readPatches (BitVec.ofNat 8 entries.length).toNat (entries.flatMap PatchField.bytes)).map
      (Instr.patchSet p first ·) = _
    rw [count_toNat (by omega), readPatches_bytes]; rfl
  all_goals rfl

theorem posted_bit (b : Bool) : (if b then (1 : Byte) else 0).getLsbD 0 = b := by cases b <;> rfl

/-- A frame whose payload is complete is read by code and payload. -/
theorem readFrame_complete {p : PortId} {code flags : Byte} {payload extra : List Byte} (size : payload.length ≤ 1020)
    (known : knownCode code = true) {i : Instr} (read : readPayload p code (flags.getLsbD 0) payload = some i) :
    readFrame p ([code, flags] ++ bytes2 (BitVec.ofNat 16 payload.length) ++ payload ++ extra) = .request i := by
  have len : (join2 ((BitVec.ofNat 16 payload.length).extractLsb' 8 8)
      ((BitVec.ofNat 16 payload.length).extractLsb' 0 8)).toNat = payload.length := by
    rw [join2_bytes, BitVec.toNat_ofNat]; omega
  simp only [bytes2, List.cons_append, List.nil_append, readFrame, len, Config.maxFrameBytes]
  rw [if_neg (by omega), if_neg (by simp), if_neg (by simp [known]), List.take_left, read]

/-- Settles O17: the payload reads back under the code, and the header gives its length. -/
theorem encodedRequestReadsBack : Obligations.EncodedRequestReadsBack := by
  intro p i extra sender h
  refine readFrame_complete (payload_length h) (knownCode_of_sender sender) ?_
  rw [posted_bit]
  exact readPayload_payload sender h

/-! ### What R164 makes of a frame -/

theorem catalogueLength_isSome (c : Nat) (l k : List Byte) :
    (catalogueLength c l).isSome = (catalogueLength c k).isSome := by
  unfold catalogueLength
  split <;> rfl

/-- The codes of the catalogue are those with a payload length. -/
theorem knownCode_eq (code : Byte) (payload : List Byte) :
    knownCode code = (catalogueLength code.toNat payload).isSome := by
  have codes : ∀ b : Byte, knownCode b = (catalogueLength b.toNat []).isSome := by decide
  rw [codes, catalogueLength_isSome]

theorem toValue13_isSome (l : List Byte) : (toValue13 l).isSome = decide (l.length = 13) := by
  by_cases h : l.length = 13
  · obtain ⟨v, hv⟩ := toValue13_some h
    rw [hv, decide_eq_true h]; rfl
  · rw [toValue13_none h, decide_eq_false h]; rfl

/-- The cues of a payload read where each has its 19 bytes. -/
theorem readCues_isSome (n : Nat) (l : List Byte) : (readCues n l).isSome = decide (l.length = 19 * n) := by
  induction n generalizing l with
  | zero => cases l <;> simp [readCues]
  | succ n ih =>
    match l with
    | [] | [_] | [_, _] | [_, _, _] | [_, _, _, _] | [_, _, _, _, _] => simp [readCues] <;> omega
    | f3 :: f2 :: f1 :: f0 :: strip :: field :: rest =>
      have value := toValue13_isSome (rest.take 13)
      have more := ih (rest.drop 13)
      rw [List.length_take] at value
      rw [List.length_drop] at more
      unfold readCues
      cases hv : toValue13 (rest.take 13) <;> cases hm : readCues n (rest.drop 13) <;>
        simp only [hv, hm, Option.isSome_none, Option.isSome_some, List.length_cons] at value more ⊢ <;>
        simp only [eq_comm (a := true), eq_comm (a := false), decide_eq_true_eq, decide_eq_false_iff_not] at value more ⊢ <;>
        omega

theorem readPatches_isSome (n : Nat) (l : List Byte) : (readPatches n l).isSome = decide (l.length = 4 * n) := by
  induction n generalizing l with
  | zero => cases l <;> simp [readPatches]
  | succ n ih =>
    match l with
    | [] | [_] | [_, _] | [_, _, _] => simp [readPatches] <;> omega
    | kind :: first :: second :: flags :: rest =>
      simp only [readPatches, Option.isSome_map, ih, List.length_cons]
      exact decide_eq_decide.mpr (by omega)

/-- What is read of payload `l` under a code with payloads of length `n`: a request of port `p` where the length is
right, and nothing else. -/
def ReadsAs (p : PortId) (n : Nat) (l : List Byte) (o : Option Instr) : Prop :=
  (l.length ≠ n ∧ o = none) ∨ (l.length = n ∧ ∃ i, o = some i ∧ i.sender = some p)

theorem readsAs_none {p : PortId} {n : Nat} {l : List Byte} (h : l.length ≠ n) : ReadsAs p n l none := .inl ⟨h, rfl⟩

theorem readsAs_some {p : PortId} {n : Nat} {l : List Byte} {i : Instr} (sender : i.sender = some p) (h : l.length = n) :
    ReadsAs p n l (some i) := .inr ⟨h, i, rfl, sender⟩

theorem readsAs_map {p : PortId} {n : Nat} {l : List Byte} {α : Type} {o : Option α} {f : α → Instr} {q : Prop}
    [Decidable q] (read : o.isSome = decide q) (sender : ∀ a, (f a).sender = some p) (length : l.length = n ↔ q) :
    ReadsAs p n l (o.map f) := by
  cases o with
  | none => exact readsAs_none fun h => of_decide_eq_false read.symm (length.mp h)
  | some a => exact readsAs_some (sender a) (length.mpr (of_decide_eq_true read.symm))

/-- A SET-STRIP payload behind its first ten bytes: a pan field, the mode and the line punch. -/
theorem readsAs_setStrip {p : PortId} {n : Nat} {l m : List Byte} {f : Value13 → Byte → Byte → Instr}
    (sender : ∀ v a b, (f v a b).sender = some p) (length : m.length = n ↔ l.length = 15) :
    ReadsAs p n m (match toValue13 (l.take 13), l.drop 13 with
      | some pan, [mode, linePunch] => some (f pan mode linePunch)
      | _, _ => none) := by
  have value := toValue13_isSome (l.take 13)
  have size := List.length_drop (i := 13) (l := l)
  rw [List.length_take] at value
  generalize l.drop 13 = tail at size
  generalize toValue13 (l.take 13) = v at value
  rcases v with _ | v
  · have short : ¬min 13 l.length = 13 := of_decide_eq_false value.symm
    exact readsAs_none fun h => by have := length.mp h; omega
  · have long : min 13 l.length = 13 := of_decide_eq_true value.symm
    rcases tail with _ | ⟨a, _ | ⟨b, _ | ⟨c, tail⟩⟩⟩ <;> simp only [List.length_cons, List.length_nil] at size
    · exact readsAs_none fun h => by have := length.mp h; omega
    · exact readsAs_none fun h => by have := length.mp h; omega
    · exact readsAs_some (sender ..) (length.mpr (by omega))
    · exact readsAs_none fun h => by have := length.mp h; omega

/-- A payload under a code of the catalogue is a request where it has the code's length (R164 step 5). -/
theorem readPayload_reads (p : PortId) {code : Byte} (posted : Bool) {payload : List Byte} {n : Nat}
    (h : catalogueLength code.toNat payload = some n) : ReadsAs p n payload (readPayload p code posted payload) := by
  unfold catalogueLength at h
  split at h
  all_goals cases h
  all_goals rename_i hc; unfold readPayload; rw [hc]; clear hc
  case h_1 | h_15 | h_24 | h_28 | h_33 | h_35 | h_37 | h_41 | h_42 | h_46 =>
    rcases payload with _ | ⟨a, l⟩
    · exact readsAs_some rfl rfl
    · exact readsAs_none (by simp)
  case h_8 | h_12 | h_16 | h_20 | h_21 | h_22 | h_23 | h_26 | h_27 | h_32 | h_38 =>
    rcases payload with _ | ⟨a, _ | ⟨b, l⟩⟩
    · exact readsAs_none (by simp)
    · exact readsAs_some rfl rfl
    · exact readsAs_none (by simp)
  case h_6 | h_7 | h_9 | h_10 | h_13 | h_25 | h_40 | h_43 | h_44 =>
    rcases payload with _ | ⟨a, _ | ⟨b, _ | ⟨c, l⟩⟩⟩
    iterate 2 exact readsAs_none (by simp)
    · exact readsAs_some rfl rfl
    · exact readsAs_none (by simp)
  case h_17 | h_18 | h_19 | h_29 =>
    rcases payload with _ | ⟨a, _ | ⟨b, _ | ⟨c, _ | ⟨d, l⟩⟩⟩⟩
    iterate 3 exact readsAs_none (by simp)
    · exact readsAs_some rfl rfl
    · exact readsAs_none (by simp)
  case h_14 | h_30 | h_34 =>
    rcases payload with _ | ⟨a, _ | ⟨b, _ | ⟨c, _ | ⟨d, _ | ⟨e, l⟩⟩⟩⟩⟩
    iterate 4 exact readsAs_none (by simp)
    · exact readsAs_some rfl rfl
    · exact readsAs_none (by simp)
  case h_3 =>
    rcases payload with _ | ⟨a, _ | ⟨b, _ | ⟨c, _ | ⟨d, _ | ⟨e, _ | ⟨f, l⟩⟩⟩⟩⟩⟩
    iterate 5 exact readsAs_none (by simp)
    · exact readsAs_some rfl rfl
    · exact readsAs_none (by simp)
  case h_45 =>
    rcases payload with _ | ⟨a, _ | ⟨b, _ | ⟨c, _ | ⟨d, _ | ⟨e, _ | ⟨f, _ | ⟨g, l⟩⟩⟩⟩⟩⟩⟩
    iterate 6 exact readsAs_none (by simp)
    · exact readsAs_some rfl rfl
    · exact readsAs_none (by simp)
  case h_11 =>
    rcases payload with _ | ⟨a, _ | ⟨b, _ | ⟨c, _ | ⟨d, _ | ⟨e, _ | ⟨f, _ | ⟨g, _ | ⟨h, l⟩⟩⟩⟩⟩⟩⟩⟩
    iterate 7 exact readsAs_none (by simp)
    · exact readsAs_some rfl rfl
    · exact readsAs_none (by simp)
  case h_31 =>
    rcases payload with _ | ⟨a, _ | ⟨b, _ | ⟨c, _ | ⟨d, _ | ⟨e, _ | ⟨f, _ | ⟨g, _ | ⟨h, _ | ⟨i, _ | ⟨j, l⟩⟩⟩⟩⟩⟩⟩⟩⟩⟩
    iterate 9 exact readsAs_none (by simp)
    · exact readsAs_some rfl rfl
    · exact readsAs_none (by simp)
  case h_2 =>
    rcases payload with _ | ⟨a, _ | ⟨b, _ | ⟨c, _ | ⟨d, value⟩⟩⟩⟩
    iterate 4 exact readsAs_none (by simp)
    exact readsAs_map (toValue13_isSome value) (fun _ => rfl) (by simp)
  case h_4 =>
    rcases payload with _ | ⟨a, _ | ⟨b, _ | ⟨c, _ | ⟨d, _ | ⟨e, _ | ⟨f, _ | ⟨g, pan⟩⟩⟩⟩⟩⟩⟩
    iterate 7 exact readsAs_none (by simp)
    exact readsAs_map (toValue13_isSome pan) (fun _ => rfl) (by simp)
  case h_5 =>
    rcases payload with
      _ | ⟨a, _ | ⟨b, _ | ⟨c, _ | ⟨d, _ | ⟨e, _ | ⟨f, _ | ⟨g, _ | ⟨h, _ | ⟨i, _ | ⟨j, l⟩⟩⟩⟩⟩⟩⟩⟩⟩⟩
    iterate 10 exact readsAs_none (by simp)
    exact readsAs_setStrip (f := fun v m k => .setStrip p a ⟨b, c, d⟩ e ⟨f, g⟩ (join2 h i) j v m k) (fun _ _ _ => rfl)
      (by simp)
  case h_36 =>
    rcases payload with _ | ⟨count, rest⟩
    · exact readsAs_none (by simp)
    · exact readsAs_map (readCues_isSome _ rest) (fun _ => rfl) (by rw [List.headD_cons, List.length_cons]; omega)
  case h_39 =>
    rcases payload with _ | ⟨first, _ | ⟨count, rest⟩⟩
    iterate 2 exact readsAs_none (by simp)
    exact readsAs_map (readPatches_isSome _ rest) (fun _ => rfl)
      (by simp only [List.drop_succ_cons, List.drop_zero, List.headD_cons, List.length_cons]; omega)

/-! ### What R164 makes of a frame -/

/-- The outcome of a frame's five checks, beside the status with which it is refused. -/
inductive FrameChecked (p : PortId) : FrameRead → Option Status → Prop
  | request {i : Instr} (sender : i.sender = some p) : FrameChecked p (.request i) none
  | framing : FrameChecked p .framing (some .framing)
  | length : FrameChecked p .length (some .length)
  | unknown : FrameChecked p .unknown (some .unknown)

theorem readFrame_checked (p : PortId) (bytes : List Byte) : FrameChecked p (readFrame p bytes) (frameFailure bytes) := by
  match bytes with
  | [] | [_] | [_, _] | [_, _, _] => exact .framing
  | code :: flags :: hi :: lo :: rest =>
    simp only [readFrame, frameFailure, join2_toNat, Config.maxFrameBytes, gt_iff_lt]
    split
    · exact .length
    · split
      · exact .framing
      · next complete =>
        have size : (rest.take (256 * hi.toNat + lo.toNat)).length = 256 * hi.toNat + lo.toNat := by
          rw [List.length_take]; omega
        have known := knownCode_eq code (rest.take (256 * hi.toNat + lo.toNat))
        cases hn : catalogueLength code.toNat (rest.take (256 * hi.toNat + lo.toNat)) with
        | none =>
          rw [hn] at known
          simp only [known, Option.isSome_none, Bool.not_false, if_true]
          exact .unknown
        | some n =>
          rw [hn] at known
          simp only [known, Option.isSome_some, Bool.not_true, Bool.false_eq_true, if_false]
          rcases readPayload_reads p (flags.getLsbD 0) hn with ⟨wrong, read⟩ | ⟨right, i, read, sender⟩
          · rw [read, if_neg (size ▸ wrong)]
            exact .length
          · rw [read, if_pos (size ▸ right)]
            exact .request sender

theorem exec_frameRejected_arm (p : PortId) (bits : List Bool) (s : State) :
    exec (.frameRejected p bits) s = execFrameRejected p bits s := rfl

/-- A frame is carried out as R164 checks it. -/
theorem exec_frameRejected (p : PortId) (bits : List Bool) (s : State) :
    (∃ i, readFrame p (bytesOfBits bits) = .request i ∧ frameFailure (bytesOfBits bits) = none ∧ i.sender = some p ∧
      exec (.frameRejected p bits) s = exec i s) ∨
    ∃ st, frameFailure (bytesOfBits bits) = some st ∧
      exec (.frameRejected p bits) s = request p (answer p ((bytesOfBits bits).headD 0) st []) s := by
  rw [exec_frameRejected_arm, execFrameRejected]
  have checked := readFrame_checked p (bytesOfBits bits)
  generalize readFrame p (bytesOfBits bits) = read at checked
  generalize frameFailure (bytesOfBits bits) = failure at checked
  cases checked with
  | request sender => exact .inl ⟨_, rfl, rfl, sender, runRequest_of_sender sender s⟩
  | framing => exact .inr ⟨_, rfl, rfl⟩
  | length => exact .inr ⟨_, rfl, rfl⟩
  | unknown => exact .inr ⟨_, rfl, rfl⟩

/-- Settles O16: the checks of the model's reader are those of R164, and what passes them is a request of the port. -/
theorem frameIsRefusedOrTakenAsItsRequest : Obligations.FrameIsRefusedOrTakenAsItsRequest := by
  intro p bits st s
  rcases exec_frameRejected p bits s with ⟨i, read, passed, sender, hexec⟩ | ⟨failure, failed, hexec⟩
  · refine ⟨fun _ refused => ?_, fun untaken => ?_, fun _ => ⟨i, read, sender, hexec⟩⟩
    · rw [passed] at refused; cases refused
    · obtain ⟨f, hf⟩ := exec_is_request sender s
      rw [hexec, hf, request_ignored untaken]
      exact congrArg _ (modPort_congr (transacted_ignored untaken))
  · refine ⟨fun taken refused => ?_, fun untaken => ?_, fun good => ?_⟩
    · rw [failed] at refused
      obtain rfl := Option.some.inj refused
      rw [hexec]
      exact request_leaves taken rfl rfl
    · rw [hexec, request_ignored untaken]
      exact congrArg _ (modPort_congr (transacted_ignored untaken))
    · rw [failed] at good; cases good

end Sys2Proof.Machine

/-!
PROOFS. What operations of the writing block hand to the take queue and to the watches of other ports: said once for each,
and composed.
-/
namespace Sys2Proof.Machine

/-! ### Reasons -/

theorem bit_lt (r : Reason) : r.bit < 12 := by cases r <;> decide

theorem raised_bit (r : Reason) (q : PortState) (b : Nat) :
    (q.raised r).pendingSet.getLsbD b = (q.pendingSet.getLsbD b || (q.attached && decide (b = r.bit))) := by
  rw [raised_eq]
  cases ha : q.attached with
  | false => simp
  | true =>
    have bound := bit_lt r
    by_cases h : b = r.bit
    · subst h; simp [Reason.set, bound]
    · simp [Reason.set, BitVec.getLsbD_twoPow, h, Ne.symm h]

theorem raisedWhen_trans {b : Nat} {q : PortId} {x y : Prop} {s t u : State} (attached : (t.port q).attached = (s.port q).attached)
    (h : raisedWhen b q x s t) (k : raisedWhen b q y t u) : raisedWhen b q (x ∨ y) s u := by
  unfold raisedWhen at *
  rw [k, h, attached]
  tauto

theorem raisedWhen_congr {b : Nat} {q : PortId} {x y : Prop} {s t : State} (h : raisedWhen b q x s t) (e : x ↔ y) :
    raisedWhen b q y s t := by
  unfold raisedWhen at *
  rw [h, e]

theorem raisedWhen_never {b : Nat} {q : PortId} {x : Prop} {s t : State}
    (same : (t.port q).pendingSet = (s.port q).pendingSet) (never : ¬x) : raisedWhen b q x s t := by
  unfold raisedWhen
  rw [same]
  tauto

/-- Of a reason that operation `t` of `s` raises at `q` just where `why` holds. -/
theorem raisedWhen_raised {b : Nat} {q : PortId} {r : Reason} {why : Prop} [Decidable why] {s t : State}
    (port : (t.port q).pendingSet = (if why then (s.port q).raised r else s.port q).pendingSet) :
    raisedWhen b q (why ∧ b = r.bit) s t := by
  unfold raisedWhen
  rw [port]
  split
  · rw [raised_bit]; simp [*]
  · simp [*]

theorem pendingKept_refl {may : BitVec 12} {q : PortId} {s t : State}
    (same : (t.port q).pendingSet = (s.port q).pendingSet) : pendingKept may q s t := by
  rw [pendingKept, same]

theorem pendingKept_trans {may : BitVec 12} {q : PortId} {s t u : State} (h : pendingKept may q s t)
    (k : pendingKept may q t u) : pendingKept may q s u := Eq.trans k h

/-- The bits of the pending set outside `may` stand. -/
theorem pendingKept_iff {may : BitVec 12} {q : PortId} {s t : State} :
    pendingKept may q s t ↔
      ∀ b < 12, may.getLsbD b = false → (t.port q).pendingSet.getLsbD b = (s.port q).pendingSet.getLsbD b := by
  unfold pendingKept
  constructor
  · intro h b hb out
    have bit : ((t.port q).pendingSet &&& ~~~may).getLsbD b = ((s.port q).pendingSet &&& ~~~may).getLsbD b := by rw [h]
    rw [BitVec.getLsbD_and, BitVec.getLsbD_and, BitVec.getLsbD_not, out] at bit
    simpa only [hb, decide_true, Bool.not_false, Bool.and_true] using bit
  · intro h
    refine BitVec.eq_of_getLsbD_eq fun b hb => ?_
    rw [BitVec.getLsbD_and, BitVec.getLsbD_and, BitVec.getLsbD_not]
    cases out : may.getLsbD b with
    | true => simp
    | false => rw [h b hb out]

theorem pendingKept_mono {may more : BitVec 12} {q : PortId} {s t : State} (h : pendingKept may q s t)
    (wider : ∀ b < 12, more.getLsbD b = false → may.getLsbD b = false) : pendingKept more q s t :=
  pendingKept_iff.mpr fun b hb out => pendingKept_iff.mp h b hb (wider b hb out)

theorem pendingKept_raised {may : BitVec 12} {q : PortId} {r : Reason} {why : Prop} [Decidable why] {s t : State}
    (port : (t.port q).pendingSet = (if why then (s.port q).raised r else s.port q).pendingSet)
    (member : may.getLsbD r.bit = true) : pendingKept may q s t := by
  refine pendingKept_iff.mpr fun b _ out => ?_
  have other : b ≠ r.bit := fun e => by rw [e, member] at out; cases out
  rw [port]
  split
  · rw [raised_bit]; simp [other]
  · rfl

/-! ### Take records (R141, R142) -/

theorem afterRecords_nil (w : Writing) : w.afterRecords [] = w := by
  simp [Writing.afterRecords]

theorem afterRecords_append (w : Writing) (rs qs : List TakeRecord) :
    (w.afterRecords rs).afterRecords qs = w.afterRecords (rs ++ qs) := by
  have room : 1024 - (w.takes ++ rs.take (1024 - w.takes.length)).length = 1024 - w.takes.length - rs.length := by
    rw [List.length_append, List.length_take]; omega
  simp only [Writing.afterRecords, room, Writing.mk.injEq, List.append_assoc, List.append_cancel_left_eq]
  refine ⟨?_, trivial, ?_⟩
  · rw [List.take_append]
  · rw [List.length_append]
    split <;> split <;> split <;> omega

theorem length_afterRecords (w : Writing) (rs : List TakeRecord) :
    (w.afterRecords rs).takes.length = w.takes.length + min rs.length (1024 - w.takes.length) := by
  simp only [Writing.afterRecords, List.length_append, List.length_take]
  omega

theorem takeReasons_nil {s t : State} (same : ∀ q, (t.port q).pendingSet = (s.port q).pendingSet) :
    TakeReasons [] s t := fun q => by
  constructor
  · exact raisedWhen_never (same q) (by simp only [List.length_nil]; omega)
  · exact raisedWhen_never (same q) (by simp only [List.length_nil]; omega)

theorem queued_nil {s t : State} (writing : t.writing = s.writing)
    (same : ∀ q, (t.port q).pendingSet = (s.port q).pendingSet) : Queued [] s t :=
  ⟨by rw [writing, afterRecords_nil], takeReasons_nil same⟩

theorem queued_append {rs qs : List TakeRecord} {s t u : State} (h : Queued rs s t) (k : Queued qs t u)
    (attached : ∀ q, (t.port q).attached = (s.port q).attached) (mark : t.playback.highMark = s.playback.highMark) :
    Queued (rs ++ qs) s u := by
  obtain ⟨writing, reasons⟩ := h
  obtain ⟨writing', reasons'⟩ := k
  refine ⟨by rw [writing', writing, afterRecords_append], fun q => ?_⟩
  have length := length_afterRecords s.writing rs
  have port : t.writing.takePort = s.writing.takePort := by rw [writing]; rfl
  obtain ⟨high, lost⟩ := reasons q
  obtain ⟨high', lost'⟩ := reasons' q
  rw [← writing] at length
  constructor
  · refine raisedWhen_congr (raisedWhen_trans (attached q) high high') ?_
    rw [port, mark, length, List.length_append]
    by_cases role : s.writing.takePort = some q <;> simp only [role, true_and, false_and, or_self]
    omega
  · refine raisedWhen_congr (raisedWhen_trans (attached q) lost lost') ?_
    rw [port, length, List.length_append]
    by_cases role : s.writing.takePort = some q <;> simp only [role, true_and, false_and, or_self]
    omega

/-- A take record is appended where there is room, and HIGH or LOST raised at the take port (R141, R142). -/
theorem appendTake_eq (r : TakeRecord) (s : State) :
    appendTake r s =
      { s with writing := s.writing.afterRecords [r], ports := (appendTake r s).ports } := by
  rcases Nat.lt_or_ge s.writing.takes.length 1024 with room | full
  · have appended : s.writing.afterRecords [r] = { s.writing with takes := s.writing.takes ++ [r] } := by
      have one : 1 ≤ 1024 - s.writing.takes.length := by omega
      simp [Writing.afterRecords, one, List.take_of_length_le]
    rw [appended, appendTake_room room]
    split
    · rw [raiseAtRole_eq]
    · rfl
  · have dropped : s.writing.afterRecords [r] = { s.writing with lost := min 65535 (s.writing.lost + 1) } := by
      simp [Writing.afterRecords, show 1024 - s.writing.takes.length = 0 by omega]
    rw [dropped, appendTake_full full, raiseAtRole_eq]

/-- What a take record raises at port `q` where the queue has room. -/
theorem port_appendTake_room {s : State} (room : s.writing.takes.length < 1024) (r : TakeRecord) (q : PortId) :
    (appendTake r s).port q =
      if s.writing.takePort = some q ∧
          s.writing.takes.length < s.playback.highMark ∧ s.playback.highMark ≤ s.writing.takes.length + 1 then
        (s.port q).raised .high
      else s.port q := by
  rw [appendTake_room room]
  by_cases cross : s.writing.takes.length < s.playback.highMark ∧ s.playback.highMark ≤ s.writing.takes.length + 1
  · rw [if_pos cross, raiseAtRole_port]
    simp only [cross, and_true]
    rfl
  · rw [if_neg cross, if_neg fun h => cross h.2]
    rfl

theorem port_appendTake_full {s : State} (full : 1024 ≤ s.writing.takes.length) (r : TakeRecord) (q : PortId) :
    (appendTake r s).port q = if s.writing.takePort = some q then (s.port q).raised .lost else s.port q := by
  rw [appendTake_full full, raiseAtRole_port]
  rfl

theorem takeReasons_appendTake (r : TakeRecord) (s : State) : TakeReasons [r] s (appendTake r s) := fun q => by
  rcases Nat.lt_or_ge s.writing.takes.length 1024 with room | full
  · have port := congrArg PortState.pendingSet (port_appendTake_room room r q)
    constructor
    · refine raisedWhen_congr (raisedWhen_raised port) ?_
      simp only [Reason.bit, List.length_singleton, and_true]
      by_cases role : s.writing.takePort = some q <;> simp only [role, true_and, false_and]
      omega
    · refine raisedWhen_congr (raisedWhen_raised port) ⟨fun h => absurd h.2 (by decide), fun h => ?_⟩
      have lost := h.2
      rw [List.length_singleton] at lost
      omega
  · have port := congrArg PortState.pendingSet (port_appendTake_full full r q)
    constructor
    · refine raisedWhen_congr (raisedWhen_raised port) ⟨fun h => absurd h.2 (by decide), fun h => ?_⟩
      have high := h.2
      omega
    · refine raisedWhen_congr (raisedWhen_raised port) ⟨fun h => ⟨h.1, ?_⟩, fun h => ⟨h.1, rfl⟩⟩
      rw [List.length_singleton]
      omega

theorem queued_appendTake (r : TakeRecord) (s : State) : Queued [r] s (appendTake r s) :=
  ⟨by rw [appendTake_eq], takeReasons_appendTake r s⟩

/-! ### Watch reports (R84) -/

theorem any_strip (n : StripNo) (l : List Watch) : l.any (fun w => decide (w.strip = n)) = true ↔ ∃ w ∈ l, w.strip = n := by
  simp

/-- A list that names no hit strip is left as it is. -/
theorem map_unhit {hit : StripNo → Bool} {f : Watch → Watch} {l : List Watch} (h : ∀ w ∈ l, hit w.strip = false) :
    (l.map fun w => if hit w.strip then f w else w) = l := by
  conv_rhs => rw [← List.map_id l]
  exact List.map_congr_left fun w hw => by rw [h w hw]; rfl

theorem reportedOf_none {p : PortId} {s t : State} (watches : ∀ q, q ≠ p → (t.port q).watches = (s.port q).watches)
    (bits : ∀ q, q ≠ p → (t.port q).pendingSet.getLsbD 0 = (s.port q).pendingSet.getLsbD 0) :
    ReportedOf p (fun _ => false) s t := fun q other => by
  refine ⟨?_, ?_⟩
  · rw [watches q other]
    split
    · exact (map_unhit (hit := fun _ => false) fun _ _ => rfl).symm
    · rfl
  · unfold raisedWhen
    rw [bits q other]
    simp

/-- Reports of the strips `hit`, and then of the strips `hit'`. -/
theorem reportedOf_or {p : PortId} {hit hit' : StripNo → Bool} {s t u : State} (h : ReportedOf p hit s t)
    (k : ReportedOf p hit' t u) (attached : ∀ q, (t.port q).attached = (s.port q).attached) :
    ReportedOf p (fun n => hit n || hit' n) s u := fun q other => by
  obtain ⟨watches, watch⟩ := h q other
  obtain ⟨watches', watch'⟩ := k q other
  rw [attached q] at watches'
  cases on : (s.port q).attached with
  | false =>
    rw [on] at watches watches'
    refine ⟨by rw [watches', watches]; rfl, ?_⟩
    unfold raisedWhen at *
    rw [watch', watch, attached q, on]
    simp
  | true =>
    simp only [on, if_true] at watches watches' ⊢
    refine ⟨?_, raisedWhen_congr (raisedWhen_trans (attached q) watch watch') ?_⟩
    · rw [watches', watches, List.map_map]
      refine List.map_congr_left fun w _ => ?_
      simp only [Function.comp]
      by_cases first : hit w.strip = true <;> simp [first]
    · rw [watches]
      have strips : ∀ w : Watch,
          (if hit w.strip then ({ strip := w.strip, hit := true, mover := some p } : Watch) else w).strip = w.strip :=
        fun w => by split <;> rfl
      simp only [List.mem_map, exists_exists_and_eq_and, strips, Bool.or_eq_true]
      constructor
      · rintro (⟨w, hw, e⟩ | ⟨w, hw, e⟩)
        · exact ⟨w, hw, .inl e⟩
        · exact ⟨w, hw, .inr e⟩
      · rintro ⟨w, hw, e | e⟩
        · exact .inl ⟨w, hw, e⟩
        · exact .inr ⟨w, hw, e⟩

theorem port_report (p : PortId) (n : StripNo) (s : State) (q : PortId) :
    (report p n s).port q = if q = p then s.port q else (s.port q).reported p n := by
  rw [report, port_mapPorts]

theorem reported_watches (p : PortId) (n : StripNo) (q : PortState) :
    (q.reported p n).watches = if q.attached then
      q.watches.map fun w => if decide (w.strip = n) then { strip := w.strip, hit := true, mover := some p } else w
      else q.watches := by
  unfold PortState.reported
  cases on : q.attached with
  | false => simp
  | true =>
    by_cases named : q.watches.any (fun w => decide (w.strip = n)) = true
    · simp only [named, Bool.and_self, if_true, raised_eq, hitWatches, decide_eq_true_eq]
    · simp only [Bool.true_and, named, if_true]
      refine (map_unhit (hit := fun m => decide (m = n)) fun w hw => ?_).symm
      have unnamed := fun e => named ((any_strip n _).mpr ⟨w, hw, e⟩)
      simpa using unnamed

theorem reported_pendingSet (p : PortId) (n : StripNo) (q : PortState) [Decidable (∃ w ∈ q.watches, w.strip = n)] :
    (q.reported p n).pendingSet = (if ∃ w ∈ q.watches, w.strip = n then q.raised .watch else q).pendingSet := by
  have any := any_strip n q.watches
  unfold PortState.reported
  by_cases named : ∃ w ∈ q.watches, w.strip = n
  · rw [any.mpr named, Bool.and_true, if_pos named, raised_eq, raised_eq]
    split <;> simp [*]
  · rw [if_neg fun h => named (any.mp (Bool.and_eq_true_iff.mp h).2), if_neg named]

theorem reported_report (p : PortId) (n : StripNo) (s : State) : Reported p n s (report p n s) := fun q other => by
  classical
  have port := port_report p n s q
  rw [if_neg other] at port
  refine ⟨by rw [port, reported_watches], ?_⟩
  refine raisedWhen_congr (raisedWhen_raised (r := .watch) (why := ∃ w ∈ (s.port q).watches, w.strip = n) ?_) ?_
  · rw [port, reported_pendingSet]
  · simp [Reason.bit]

/-! ### What is handed to the take queue and the watches -/

/-- From `s` to `t` these records reach the take queue, the watches of ports other than `p` take the report of a change
of the strips `hit`, and of every port nothing else changes. -/
structure HandedOn (p : PortId) (hit : StripNo → Bool) (rs : List TakeRecord) (s t : State) : Prop where
  queued : Queued rs s t
  reported : ReportedOf p hit s t
  own : t.port p = { s.port p with pendingSet := (t.port p).pendingSet }
  others : ∀ q, q ≠ p → t.port q =
    { s.port q with watches := (t.port q).watches, pendingSet := (t.port q).pendingSet }
  kept_own : pendingKept 0x300#12 p s t
  kept_others : ∀ q, q ≠ p → pendingKept 0x301#12 q s t
  playback : t.playback = s.playback

theorem HandedOn.attached {p : PortId} {hit : StripNo → Bool} {rs : List TakeRecord} {s t : State}
    (h : HandedOn p hit rs s t) (q : PortId) : (t.port q).attached = (s.port q).attached := by
  by_cases e : q = p
  · rw [e, h.own]
  · rw [h.others q e]

theorem HandedOn.trans {p : PortId} {hit hit' : StripNo → Bool} {rs qs : List TakeRecord} {s t u : State}
    (h : HandedOn p hit rs s t) (k : HandedOn p hit' qs t u) :
    HandedOn p (fun n => hit n || hit' n) (rs ++ qs) s u where
  queued := queued_append h.queued k.queued h.attached (by rw [h.playback])
  reported := reportedOf_or h.reported k.reported h.attached
  own := by rw [k.own, h.own]
  others q e := by rw [k.others q e, h.others q e]
  kept_own := pendingKept_trans h.kept_own k.kept_own
  kept_others q e := pendingKept_trans (h.kept_others q e) (k.kept_others q e)
  playback := k.playback.trans h.playback

/-- What touches no port, no take record and no playback hands nothing on. -/
theorem handedOn_nothing {p : PortId} {s t : State} (ports : ∀ q, t.port q = s.port q) (writing : t.writing = s.writing)
    (playback : t.playback = s.playback) : HandedOn p (fun _ => false) [] s t where
  queued := queued_nil writing fun q => by rw [ports]
  reported := reportedOf_none (fun q _ => by rw [ports]) fun q _ => by rw [ports]
  own := by rw [ports]
  others q _ := by rw [ports]
  kept_own := pendingKept_refl (by rw [ports])
  kept_others q _ := pendingKept_refl (by rw [ports])
  playback := playback

theorem HandedOn.then {p : PortId} {hit : StripNo → Bool} {rs : List TakeRecord} {s t u : State}
    (h : HandedOn p hit rs s t) (ports : ∀ q, u.port q = t.port q) (writing : u.writing = t.writing)
    (playback : u.playback = t.playback) : HandedOn p hit rs s u := by
  simpa using h.trans (handedOn_nothing ports writing playback)

theorem HandedOn.after {p : PortId} {hit : StripNo → Bool} {rs : List TakeRecord} {s t u : State}
    (h : HandedOn p hit rs t u) (ports : ∀ q, t.port q = s.port q) (writing : t.writing = s.writing)
    (playback : t.playback = s.playback) : HandedOn p hit rs s u := by
  simpa using (handedOn_nothing (p := p) ports writing playback).trans h

theorem port_appendTake (r : TakeRecord) (s : State) (q : PortId) :
    (appendTake r s).port q = s.port q ∨ (appendTake r s).port q = (s.port q).raised .high ∨
      (appendTake r s).port q = (s.port q).raised .lost := by
  rcases Nat.lt_or_ge s.writing.takes.length 1024 with room | full
  · rw [port_appendTake_room room]
    split
    · exact .inr (.inl rfl)
    · exact .inl rfl
  · rw [port_appendTake_full full]
    split
    · exact .inr (.inr rfl)
    · exact .inl rfl

theorem handedOn_appendTake (p : PortId) (r : TakeRecord) (s : State) :
    HandedOn p (fun _ => false) [r] s (appendTake r s) := by
  have only : ∀ q, (appendTake r s).port q = { s.port q with pendingSet := ((appendTake r s).port q).pendingSet } := by
    intro q
    rcases port_appendTake r s q with h | h | h <;> rw [h]
    · rw [raised_eq]
    · rw [raised_eq]
  have bits : ∀ q b, b ≠ 8 → b ≠ 9 →
      ((appendTake r s).port q).pendingSet.getLsbD b = (s.port q).pendingSet.getLsbD b := by
    intro q b h8 h9
    rcases port_appendTake r s q with h | h | h <;> rw [h]
    · rw [raised_bit]; simp [Reason.bit, h8]
    · rw [raised_bit]; simp [Reason.bit, h9]
  refine ⟨queued_appendTake r s, reportedOf_none (fun q _ => by rw [only]) fun q _ => bits q 0 (by decide) (by decide),
    only p, fun q _ => by rw [only], pendingKept_iff.mpr fun b _ out => bits p b ?_ ?_,
    fun q _ => pendingKept_iff.mpr fun b _ out => bits q b ?_ ?_, appendTake_playback r s⟩
  all_goals rintro rfl; exact absurd out (by decide)

theorem handedOn_report (p : PortId) (n : StripNo) (s : State) :
    HandedOn p (fun m => decide (m = n)) [] s (report p n s) := by
  classical
  have own : (report p n s).port p = s.port p := by rw [port_report, if_pos rfl]
  have raises : ∀ q, q ≠ p → ((report p n s).port q).pendingSet =
      (if ∃ w ∈ (s.port q).watches, w.strip = n then (s.port q).raised .watch else s.port q).pendingSet := by
    intro q other
    rw [port_report, if_neg other, reported_pendingSet]
  have takes : ∀ q b, b ≠ 0 → ((report p n s).port q).pendingSet.getLsbD b = (s.port q).pendingSet.getLsbD b := by
    intro q b hb
    by_cases e : q = p
    · rw [e, own]
    · rw [raises q e]
      split
      · rw [raised_bit]; simp [Reason.bit, hb]
      · rfl
  refine ⟨⟨by rw [afterRecords_nil]; rfl, fun q => ?_⟩, reported_report p n s, by rw [own], fun q other => ?_,
    pendingKept_refl (by rw [own]), fun q _ => pendingKept_iff.mpr fun b _ out => takes q b ?_, rfl⟩
  · simp only [raisedWhen, takes q 8 (by decide), takes q 9 (by decide), List.length_nil]
    constructor
    · constructor
      · exact .inl
      · rintro (h | ⟨-, -, h⟩)
        · exact h
        · omega
    · constructor
      · exact .inl
      · rintro (h | ⟨-, -, h⟩)
        · exact h
        · omega
  · exact (OnlyAt.report p n s).ports q |>.trans (by rfl)
  · rintro rfl; exact absurd out (by decide)

end Sys2Proof.Machine

/-!
PROOFS. What the write state machine does to one strip: its record, its take record and its cells (R127, R132 to R137, R139).
-/
namespace Sys2Proof.Machine

/-! ### Ramps of one strip (R36, R37) -/

theorem rampedCell_same {s t : State} {n : StripNo} (h : t.used n = s.used n) (c : Channel) (x : Cell) :
    rampedCell s t n c x = x := if_pos (.inl h)

theorem rampedCell_retarget {s t : State} {n : StripNo} (h : t.used n ≠ s.used n) (c : Channel) (x : Cell) :
    rampedCell s t n c x = x.retarget s.engine.rampLength (t.target n c) := by
  unfold rampedCell Cell.retarget
  simp only [h, false_or]

/-- What a ramp depends on. -/
theorem rampedCell_congr {s s' t t' : State} {n : StripNo} {c : Channel} (used : s'.used n = s.used n)
    (length : s'.engine.rampLength = s.engine.rampLength) (used' : t'.used n = t.used n)
    (target : t'.target n c = t.target n c) (x : Cell) : rampedCell s' t' n c x = rampedCell s t n c x := by
  unfold rampedCell
  rw [used, length, used', target]

theorem ramped_of_same {s t : State} {n : StripNo} (cells : t.cells n = s.cells n) (used : t.used n = s.used n) :
    Ramped n s t := fun c => by rw [cells, rampedCell_same used]

theorem OnlyCells.used {s t : State} (h : OnlyCells s t) (n : StripNo) : t.used n = s.used n :=
  used_congr (h.strip n) (by rw [h.playback])

theorem OnlyCells.target {s t : State} (h : OnlyCells s t) (n : StripNo) (c : Channel) : t.target n c = s.target n c :=
  target_congr (h.strip n) (by rw [h.playback]) (by rw [h.busTable]) (by rw [h.busTable]) c

/-- The hand-off of a used value is the retarget of R36 and R37. -/
theorem cells_handRetarget {s t : State} {n : StripNo} (length : t.engine.rampLength = s.engine.rampLength) (c : Channel) :
    ((handRetarget s n t).cells n)[c] = rampedCell s t n c (t.cells n)[c] := by
  rcases handRetarget_cases s n t with ⟨used, h⟩ | ⟨used, h⟩ <;> rw [h]
  · rw [rampedCell_same used]
  · rw [cells_retargetStrip, if_pos rfl, rampedCell_retarget used, length]

theorem ramped_handRetarget {s t : State} {n : StripNo} (length : t.engine.rampLength = s.engine.rampLength)
    (cells : t.cells n = s.cells n) : Ramped n s (handRetarget s n t) := fun c => by
  have only := handRetarget_onlyCells s n t
  rw [cells_handRetarget length, cells, rampedCell_congr rfl rfl (only.used n) (only.target n c)]

theorem OnlyAt.rampLength {n : StripNo} {s t : State} (h : OnlyAt n s t) : t.engine.rampLength = s.engine.rampLength := by
  rw [h.engine]

/-! ### Used values and write states -/

theorem used_writeState {r : Strip} {w : WriteState} (same : w.punched = r.writeState.punched) (o : Bool) :
    { r with writeState := w }.used o = r.used o := by
  unfold Strip.used
  simp only [same]
  rfl

/-! ### One turn of a strip -/

/-- Strip `n` becomes `r`, these records reach the take queue, and its cells take a retarget where a used value changed. -/
structure TurnsTo (p : PortId) (n : StripNo) (r : Strip) (rs : List TakeRecord) (s t : State) : Prop where
  only : OnlyAt n s t
  strip : t.strip n = r
  handed : HandedOn p (fun _ => false) rs s t
  ramped : Ramped n s t

section Turn
variable (p : PortId) (n : StripNo)

theorem turnsTo_refl (s : State) : TurnsTo p n (s.strip n) [] s s :=
  ⟨.refl n s, rfl, handedOn_nothing (fun _ => rfl) rfl rfl, ramped_of_same rfl rfl⟩

theorem turnsTo_setWriteState {w : WriteState} {s : State} (same : w.punched = (s.strip n).writeState.punched) :
    TurnsTo p n { s.strip n with writeState := w } [] s (setWriteState n w s) := by
  have strip := strip_setWriteState n w s
  refine ⟨.setWriteState n w s, strip, handedOn_nothing (fun _ => rfl) rfl rfl, ramped_of_same rfl ?_⟩
  rw [State.used, strip, used_writeState same]
  rfl

/-- A hand-off of a retarget after a record is written and take records are queued. -/
theorem turnsTo_handRetarget {r : Strip} {rs : List TakeRecord} {s t : State} (only : OnlyAt n s t) (strip : t.strip n = r)
    (handed : HandedOn p (fun _ => false) rs s t) (cells : t.cells n = s.cells n) :
    TurnsTo p n r rs s (handRetarget s n t) := by
  have after := handRetarget_onlyCells s n t
  exact ⟨only.trans (.handRetarget s n t), (after.strip n).trans strip,
    handed.then after.port after.writing after.playback, ramped_handRetarget only.rampLength cells⟩

theorem turnsTo_punchIn (s : State) :
    TurnsTo p n (s.loaded n) [punchInRecord s.timeline.counter n (s.loaded n)] s (punchIn n s) :=
  turnsTo_handRetarget p n ((OnlyAt.modStrip n _ s).trans (.appendTake n _ _)) (by simp)
    ((handedOn_appendTake p _ _).after (fun _ => rfl) rfl rfl) (by simp)

/-- The record of a strip whose punch, made in `mode`, ends with write state `w` (R139). -/
def Strip.punchEnded (mode : Mode) (w : WriteState) (r : Strip) : Strip :=
  { r with trim := if mode = .trim then 16384 else r.trim, writeState := w }

theorem handedOn_endPunch (reason : PunchReason) (mode : Mode) (w : WriteState) (s : State) :
    HandedOn p (fun _ => false) [.punchOut s.timeline.counter n reason] s (endPunch reason mode n w s) :=
  (handedOn_appendTake p _ s).then (fun _ => rfl) rfl rfl

theorem turnsTo_punchOut (reason : PunchReason) (w : WriteState) (s : State) :
    TurnsTo p n ((s.strip n).punchEnded (s.strip n).mode w) [.punchOut s.timeline.counter n reason] s
      (punchOut reason n w s) :=
  turnsTo_handRetarget p n (.endPunch ..) (strip_endPunch ..) (handedOn_endPunch ..) (cells_endPunch ..)

end Turn

/-! ### Punching in (R136) -/

theorem loadedPan_eq (width : Option Nat) (live used : List PanEntry) :
    loadedPan width live used = (match width with
      | none => used
      | some w => match used.filter fun e => e.channel.val < w with
        | [] => live
        | e :: kept => e :: kept) := by
  cases width with
  | none => rfl
  | some w =>
    unfold loadedPan
    dsimp only
    generalize used.filter (fun e => decide (e.channel.val < w)) = kept
    cases kept <;> rfl

theorem loaded_eq (s : State) (n : StripNo) : s.loaded n = s.punchedIn n := by
  unfold State.loaded State.punchedIn
  simp only [loadedPan_eq] <;> rfl

/-! ### A trigger that turns -/

theorem trigger_iff {s : State} {n : StripNo} (mode : (s.strip n).mode.triggered) : s.trigger n = true ↔ s.pressing n := by
  have value : s.trigger n = ((s.strip n).toucher.isSome || ((s.strip n).linePunch && s.timeline.punch.filtered)) := by
    rcases mode with h | h | h <;> simp [State.trigger, h]
  rw [value]
  simp [Option.isSome_iff_ne_none]

theorem triggered_of_writes {m : Mode} (writes : m.writes = true) (ne : m ≠ .write) : m.triggered := by
  cases m <;> simp_all [Mode.writes, Mode.triggered]

theorem triggered_ne_write {m : Mode} (h : m.triggered) : m ≠ .write := by
  rcases h with h | h | h <;> simp [h]

section Trigger
variable {old s : State} {n : StripNo} (mode : (old.strip n).mode = (s.strip n).mode)
include mode

theorem triggerRises_iff : s.triggerRises old n ↔
    s.armed n = true ∧ (s.strip n).mode.triggered ∧ old.trigger n = false ∧ s.trigger n = true := by
  constructor
  · rintro ⟨armed, triggered, before, now⟩
    exact ⟨armed, triggered, by simpa using mt (trigger_iff (mode ▸ triggered)).mp before, (trigger_iff triggered).mpr now⟩
  · rintro ⟨armed, triggered, before, now⟩
    refine ⟨armed, triggered, fun h => ?_, (trigger_iff triggered).mp now⟩
    rw [(trigger_iff (mode ▸ triggered)).mpr h] at before
    cases before

theorem triggerFalls_iff : s.triggerFalls old n ↔
    s.armed n = true ∧ (s.strip n).mode.triggered ∧ old.trigger n = true ∧ s.trigger n = false := by
  constructor
  · rintro ⟨armed, triggered, before, now⟩
    exact ⟨armed, triggered, (trigger_iff (mode ▸ triggered)).mpr before, by simpa using mt (trigger_iff triggered).mp now⟩
  · rintro ⟨armed, triggered, before, now⟩
    refine ⟨armed, triggered, (trigger_iff (mode ▸ triggered)).mp before, fun h => ?_⟩
    rw [(trigger_iff triggered).mpr h] at now
    cases now

end Trigger

theorem turned_rise {old s : State} {n : StripNo} (rises : s.triggerRises old n) :
    s.turned old n =
      if (s.strip n).writeState = .ready ∧ s.timeline.counting = true then s.punchedIn n
      else { s.strip n with writeState := afterRise s.timeline.counting (s.strip n).writeState } := if_pos rises

theorem not_falls_of_rises {old s : State} {n : StripNo} (rises : s.triggerRises old n) : ¬s.triggerFalls old n :=
  fun falls => rises.2.2.1 falls.2.2.1

theorem turned_fall {old s : State} {n : StripNo} (falls : s.triggerFalls old n) :
    s.turned old n =
      { s.strip n with
        writeState := afterFall (s.strip n).mode (s.strip n).writeState,
        trim := if (s.strip n).mode = .trim ∧ (s.strip n).writeState = .writing then 16384 else (s.strip n).trim } := by
  rw [State.turned, if_neg fun rises => not_falls_of_rises rises falls, if_pos falls]

theorem turned_still {old s : State} {n : StripNo} (rises : ¬s.triggerRises old n) (falls : ¬s.triggerFalls old n) :
    s.turned old n = s.strip n := by
  rw [State.turned, if_neg rises, if_neg falls]

theorem turnRecords_still {old s : State} {n : StripNo} (rises : ¬s.triggerRises old n) (falls : ¬s.triggerFalls old n) :
    s.turnRecords old n = [] := by
  rw [State.turnRecords, if_neg fun h => rises h.1, if_neg fun h => falls h.1]

/-- A trigger that rises on a strip armed in TOUCH, LATCH or TRIM (R132). -/
theorem turnsTo_triggerRise {p : PortId} {n : StripNo} {old s : State} (rises : s.triggerRises old n) :
    TurnsTo p n (s.turned old n) (s.turnRecords old n) s (triggerRise n s) := by
  have triggered := rises.2.1
  have falls := not_falls_of_rises rises
  by_cases punches : (s.strip n).writeState = .ready ∧ s.timeline.counting = true
  · have record : s.turnRecords old n = [punchInRecord s.timeline.counter n (s.loaded n)] := by
      rw [State.turnRecords, if_pos ⟨rises, punches⟩, loaded_eq, punchInRecord]
      rw [if_neg (show ¬(s.punchedIn n).mode = .write from triggered_ne_write triggered)]
      rfl
    have walk : triggerRise n s = punchIn n s := by
      unfold triggerRise
      rw [punches.1]
      exact if_pos punches.2
    rw [turned_rise rises, if_pos punches, record, walk, ← loaded_eq]
    exact turnsTo_punchIn p n s
  · have record : s.turnRecords old n = [] := by
      rw [State.turnRecords, if_neg fun h => punches h.2, if_neg fun h => falls h.1]
    rw [turned_rise rises, if_neg punches, record]
    unfold triggerRise
    cases state : (s.strip n).writeState with
    | ready =>
      have still : s.timeline.counting = false := by simpa [state] using punches
      simp only [still, afterRise, Bool.false_eq_true, if_false]
      exact turnsTo_setWriteState p n (by rw [state]; rfl)
    | latched =>
      cases counting : s.timeline.counting with
      | true => exact turnsTo_setWriteState p n (by rw [state]; rfl)
      | false =>
        have same : { s.strip n with writeState := (s.strip n).writeState } = s.strip n := rfl
        rw [state] at same
        change TurnsTo p n { s.strip n with writeState := .latched } [] s s
        rw [same]
        exact turnsTo_refl p n s
    | off | wait | writing =>
      have same : { s.strip n with writeState := (s.strip n).writeState } = s.strip n := rfl
      rw [state] at same
      simp only [afterRise, same]
      exact turnsTo_refl p n s

/-- A trigger that falls on a strip armed in TOUCH, LATCH or TRIM (R133). -/
theorem turnsTo_triggerFall {p : PortId} {n : StripNo} {old s : State} (falls : s.triggerFalls old n) :
    TurnsTo p n (s.turned old n) (s.turnRecords old n) s (triggerFall n s) := by
  have triggered := falls.2.1
  have rises : ¬s.triggerRises old n := fun h => not_falls_of_rises h falls
  have record : s.turnRecords old n =
      if (s.strip n).writeState = .writing ∧ (s.strip n).mode ≠ .latch then [.punchOut s.timeline.counter n .release]
      else [] := by
    rw [State.turnRecords, if_neg fun h => rises h.1]
    by_cases out : (s.strip n).writeState = .writing ∧ (s.strip n).mode ≠ .latch
    · rw [if_pos ⟨falls, out⟩, if_pos out]
    · rw [if_neg fun h => out h.2, if_neg out]
  have out : (s.strip n).writeState = .writing → (s.strip n).mode ≠ .latch →
      TurnsTo p n (s.turned old n) (s.turnRecords old n) s (punchOut .release n .ready s) := fun state mode => by
    have ended : s.turned old n = (s.strip n).punchEnded (s.strip n).mode .ready := by
      rw [turned_fall falls, state]
      simp only [afterFall, mode, if_false, and_true]
      rfl
    rw [ended, record, if_pos ⟨state, mode⟩]
    exact turnsTo_punchOut p n .release .ready s
  cases state : (s.strip n).writeState with
  | writing =>
    rcases triggered with mode | mode | mode
    · have walk : triggerFall n s = punchOut .release n .ready s := by unfold triggerFall; rw [state, mode]
      rw [walk]
      exact out state (by simp [mode])
    · have walk : triggerFall n s = setWriteState n .latched s := by unfold triggerFall; rw [state, mode]
      have latched : s.turned old n = { s.strip n with writeState := .latched } := by
        rw [turned_fall falls, state, mode]
        simp [afterFall]
      rw [walk, latched, record, if_neg fun h => h.2 mode]
      exact turnsTo_setWriteState p n (by rw [state]; rfl)
    · have walk : triggerFall n s = punchOut .release n .ready s := by unfold triggerFall; rw [state, mode]
      rw [walk]
      exact out state (by simp [mode])
  | wait =>
    have walk : triggerFall n s = setWriteState n .ready s := by unfold triggerFall; rw [state]
    have ready : s.turned old n = { s.strip n with writeState := .ready } := by
      rw [turned_fall falls, state]
      simp [afterFall]
    rw [walk, ready, record, state, if_neg (by simp)]
    exact turnsTo_setWriteState p n (by rw [state]; rfl)
  | off | ready | latched =>
    have walk : triggerFall n s = s := by unfold triggerFall; rw [state]
    have same : s.turned old n = s.strip n := by
      rw [turned_fall falls, state]
      simp only [afterFall, reduceCtorEq, and_false, if_false]
      rw [← state]
    rw [walk, same, record, state, if_neg (by simp)]
    exact turnsTo_refl p n s

/-- A hand-off of the inputs of a trigger: what R132 and R133 make of the strip (R127). -/
theorem turnsTo_triggerChange {p : PortId} {n : StripNo} {old s : State} (mode : (old.strip n).mode = (s.strip n).mode)
    (steady : (s.strip n).mode = .write → old.trigger n = s.trigger n) :
    TurnsTo p n (s.turned old n) (s.turnRecords old n) s (triggerChange old n s) := by
  have rises := triggerRises_iff mode
  have falls := triggerFalls_iff mode
  unfold triggerChange
  by_cases moved : (s.armed n && old.trigger n != s.trigger n) = true
  · rw [if_pos moved]
    obtain ⟨armed, differs⟩ := Bool.and_eq_true_iff.mp moved
    have differs : old.trigger n ≠ s.trigger n := by simpa using differs
    have triggered := triggered_of_writes (armed_mode armed) fun write => differs (steady write)
    cases now : s.trigger n with
    | true =>
      have before : old.trigger n = false := by simpa [now] using differs
      exact turnsTo_triggerRise (rises.mpr ⟨armed, triggered, before, now⟩)
    | false =>
      have before : old.trigger n = true := by simpa [now] using differs
      exact turnsTo_triggerFall (falls.mpr ⟨armed, triggered, before, now⟩)
  · rw [if_neg moved]
    have not_rises : ¬s.triggerRises old n := fun h => by
      obtain ⟨armed, -, before, now⟩ := rises.mp h
      exact moved (by rw [armed, before, now]; rfl)
    have not_falls : ¬s.triggerFalls old n := fun h => by
      obtain ⟨armed, -, before, now⟩ := falls.mp h
      exact moved (by rw [armed, before, now]; rfl)
    rw [turned_still not_rises not_falls, turnRecords_still not_rises not_falls]
    exact turnsTo_refl p n s

end Sys2Proof.Machine

/-!
PROOFS. The sync monitor and the input lanes (R149 to R156): the turns of the audio interface, and where each raises SAFE.
-/
namespace Sys2Proof.Machine

/-! ### Turns of the audio interface and SAFE (R156) -/

theorem trigger1_iff (a : Audio) : a.trigger1 = true ↔ ∃ l : LaneNo, a.lanes[l].up = false := by
  simp only [Audio.trigger1, Vector.any_iff_exists, Bool.not_eq_true', Fin.getElem_fin]
  exact ⟨fun ⟨i, hi, h⟩ => ⟨⟨i, hi⟩, h⟩, fun ⟨l, h⟩ => ⟨l.val, l.isLt, h⟩⟩

/-- Every port with SAFE raised at it where `rises` says so, as a turn of the audio interface leaves them. -/
theorem port_withAudio (a : Audio) (s : State) (q : PortId) :
    (withAudio a s).port q = { s.port q with
      pendingSet := if (s.port q).attached = true ∧ triggerRose s.audio a = true then (s.port q).pendingSet ||| 0x020#12
        else (s.port q).pendingSet } := by
  unfold withAudio
  cases h : triggerRose s.audio a with
  | false => simp [State.port]
  | true =>
    simp only [if_true, raiseEverywhere, port_mapPorts, raised_eq, and_true]
    rfl

theorem withAudio_quiet {a : Audio} {s : State} (quiet : triggerRose s.audio a = false) :
    withAudio a s = { s with audio := a } := by simp [withAudio, quiet]

/-- A turn that leaves the lanes and does not go FREE raises no trigger. -/
theorem triggerRose_still {a b : Audio} (lanes : b.lanes = a.lanes) (locked : a.locked = true → b.locked = true) :
    triggerRose a b = false := by
  simp only [triggerRose, Audio.trigger0, Audio.trigger1, lanes]
  cases ha : a.locked with
  | false => simp
  | true => simp [locked ha]

theorem withAudio_still {a b : Audio} {s : State} (turn : a = b) (lanes : b.lanes = s.audio.lanes)
    (locked : s.audio.locked = true → b.locked = true) : withAudio a s = { s with audio := b } := by
  rw [turn]
  exact withAudio_quiet (triggerRose_still lanes locked)

/-! ### The sync monitor (R149 to R152) -/

theorem exec_samplePeriodReference_arm (s : State) : exec .samplePeriodReference s = execSamplePeriodReference s := rfl

theorem exec_wclkEdge_arm (d : Nat) (s : State) : exec (.wclkEdge d) s = execWclkEdge d s := rfl

theorem exec_wclkTimeout_arm (s : State) : exec .wclkTimeout s = execWclkTimeout s := rfl

theorem exec_missingEdge_arm (s : State) : exec .missingEdge s = execMissingEdge s := rfl

theorem exec_syncLock_arm (s : State) : exec .syncLock s = execSyncLock s := rfl

theorem exec_syncLoss_arm (s : State) : exec .syncLoss s = execSyncLoss s := rfl

theorem nominalPeriod_eq (rate : SampleRate) : nominalPeriod rate = if rate = .k48 then 64000 else 32000 := by
  cases rate <;> rfl

theorem insideWindow_iff (rate : SampleRate) (d : Nat) :
    insideWindow rate d = true ↔ 31 * (if rate = .k48 then 64000 else 32000) ≤ 32 * d ∧
      32 * d ≤ 33 * (if rate = .k48 then 64000 else 32000) := by
  simp only [insideWindow, nominalPeriod_eq, Bool.and_eq_true, decide_eq_true_eq]

section Edges
variable {a : Audio} {d : Nat}

theorem edge_inside (locked : a.locked = true) (inside : insideWindow a.rate d = true) :
    a.edge d = { a with missing := 0, engineTaken := false } := by
  simp [Audio.edge, Audio.follow, Audio.startPeriod, locked, inside]

theorem edge_outside (locked : a.locked = true) (outside : insideWindow a.rate d = false) : a.edge d = a := by
  simp [Audio.edge, Audio.follow, locked, outside]

theorem edge_first (free : a.locked = false) (idle : a.measuring = false) :
    a.edge d = { a with measuring := true } := by simp [Audio.edge, Audio.measure, free, idle]

theorem edge_bad (free : a.locked = false) (measuring : a.measuring = true) (outside : insideWindow a.rate d = false) :
    a.edge d = { a with lockCount := 0 } := by simp [Audio.edge, Audio.measure, free, measuring, outside]

theorem edge_good (free : a.locked = false) (measuring : a.measuring = true) (inside : insideWindow a.rate d = true)
    (few : a.lockCount + 1 < 256) : a.edge d = { a with lockCount := a.lockCount + 1 } := by
  have : ¬Config.lockPeriods ≤ a.lockCount + 1 := Nat.not_le.mpr few
  simp [Audio.edge, Audio.measure, free, measuring, inside, this]

theorem edge_locks (free : a.locked = false) (measuring : a.measuring = true) (inside : insideWindow a.rate d = true)
    (enough : 256 ≤ a.lockCount + 1) : a.edge d = a.lock.startPeriod := by
  have : Config.lockPeriods ≤ a.lockCount + 1 := enough
  simp [Audio.edge, Audio.measure, free, measuring, inside, this]

end Edges

/-- Each row of the monitor leaves the lanes and stays LOCKED, but for the loss, whose SAFE rises by trigger 0.
Settles O58. -/
theorem syncMonitorLocksFollowsAndLoses : Obligations.SyncMonitorLocksFollowsAndLoses := by
  rintro d good a s rfl hgood
  rw [← insideWindow_iff, Bool.eq_iff_iff.symm] at hgood
  subst hgood
  refine ⟨fun free => ?_, fun locked inside => ?_, fun locked outside => ?_, fun free idle => ?_,
    fun free measuring outside => ?_, fun free measuring inside few => ?_, fun free measuring inside enough => ?_,
    fun free => ?_, fun locked few => ?_, fun locked enough => ?_⟩
  · rw [exec_samplePeriodReference_arm, execSamplePeriodReference, if_neg (by simp [free])]
    exact congrArg _ (withAudio_still rfl rfl id)
  · exact congrArg _ (withAudio_still (edge_inside locked inside) rfl id)
  · exact congrArg _ (withAudio_still (edge_outside locked outside) rfl id)
  · exact congrArg _ (withAudio_still (edge_first free idle) rfl id)
  · exact congrArg _ (withAudio_still (edge_bad free measuring outside) rfl id)
  · exact congrArg _ (withAudio_still (edge_good free measuring inside few) rfl id)
  · have due : s.audio.lockDue = true := by
      simp only [Audio.lockDue, free, measuring, Bool.not_false, Bool.true_and, decide_eq_true_eq]
      exact enough
    rw [exec_syncLock_arm, execSyncLock, if_pos due]
    exact ⟨congrArg _ (withAudio_still (edge_locks free measuring inside enough) rfl fun _ => rfl),
      congrArg _ (withAudio_still rfl rfl fun _ => rfl)⟩
  · rw [exec_wclkTimeout_arm, execWclkTimeout, if_neg (by simp [free])]
    exact congrArg _ (withAudio_still rfl rfl id)
  · have kept : s.audio.missEdge = { s.audio with missing := s.audio.missing + 1, engineTaken := false } := by
      have : ¬Config.lossEdges ≤ s.audio.missing + 1 := Nat.not_le.mpr few
      simp [Audio.missEdge, Audio.startPeriod, this]
    rw [exec_missingEdge_arm, execMissingEdge, if_pos locked]
    exact congrArg _ (withAudio_still kept rfl id)
  · have lost : s.audio.missEdge = s.audio.lose := if_pos enough
    have due : s.audio.lossDue = true := by
      simp only [Audio.lossDue, locked, Bool.true_and, decide_eq_true_eq]
      exact enough
    have rises : triggerRose s.audio s.audio.lose = true := by
      simp [triggerRose, Audio.trigger0, locked, Audio.lose, Audio.startPeriod]
    refine ⟨withAudio s.audio.lose s, ?_, ?_, ?_⟩
    · rw [exec_missingEdge_arm, execMissingEdge, if_pos locked, lost]
    · rw [exec_syncLoss_arm, execSyncLoss, if_pos due]
    · have audio : (withAudio s.audio.lose s).audio = s.audio.lose := by rw [withAudio_eq]
      refine ⟨by rw [audio]; rfl, by rw [audio]; rfl, by rw [audio]; rfl, fun l => ?_, ?_, fun q => ?_⟩
      · rw [audio]
        simp [Audio.lose, Audio.startPeriod, Lane.down]
      · rw [audio]
        exact withAudio_eq ..
      · rw [port_withAudio, rises]
        simp

/-! ### Input lanes (R153 to R155) -/

theorem exec_laneFrame_arm (l : LaneNo) (good : Bool) (slots : Vector LaneSample 16) (s : State) :
    exec (.laneFrame l good slots) s = execLaneFrame l good slots s := rfl

theorem exec_laneUp_arm (l : LaneNo) (slots : Vector LaneSample 16) (s : State) :
    exec (.laneUp l slots) s = execLaneUp l slots s := rfl

theorem takenSlots_present (rate : SampleRate) (slots : Vector LaneSample 16) (k : SlotNo) :
    (takenSlots rate slots)[k] = if rate = .k48 ∨ k.val < 8 then slots[k].toInt else 0 := by
  simp only [takenSlots_get, slotPresent_iff]

section Frames
variable {l : Lane} {locked good : Bool} {slots : Vector Int 16}

theorem frame_up_good (up : l.up = true) : l.frame locked true slots = { l with slots } := by simp [Lane.frame, up]

theorem frame_up_bad (up : l.up = true) : l.frame locked false slots = Lane.down := by simp [Lane.frame, up]

theorem frame_down_free (down : l.up = false) : l.frame false good slots = l := by simp [Lane.frame, down]

theorem frame_down_bad (down : l.up = false) : l.frame true false slots = { l with markers := 0 } := by
  simp [Lane.frame, down]

theorem frame_down_good (down : l.up = false) (few : l.markers + 1 < 16) :
    l.frame true true slots = { l with markers := l.markers + 1 } := by
  have : ¬Config.upMarkers ≤ l.markers + 1 := Nat.not_le.mpr few
  simp [Lane.frame, down, this]

theorem frame_comes_up (down : l.up = false) (enough : 16 ≤ l.markers + 1) :
    l.frame true true slots = Lane.upWith slots := by
  have : Config.upMarkers ≤ l.markers + 1 := enough
  simp [Lane.frame, down, this]

/-- A frame takes a lane from UP to DOWN at a missing marker alone. -/
theorem frame_falls_iff (up : l.up = true) : (l.frame locked good slots).up = false ↔ good = false := by
  cases good with
  | true => rw [frame_up_good up]; simp [up]
  | false => rw [frame_up_bad up]; simp [Lane.down]

end Frames

/-- SAFE rises at a lane frame where a lane falls that was UP with all the others (R156). -/
theorem triggerRose_frame (a : Audio) (l : LaneNo) (good : Bool) (slots : Vector Int 16) :
    triggerRose a (a.modLane l (Lane.frame a.locked good slots)) = true ↔
      a.lanes[l].up = true ∧ good = false ∧ ∀ i : LaneNo, a.lanes[i].up = true := by
  have rose : triggerRose a (a.modLane l (Lane.frame a.locked good slots)) = true ↔
      (∀ i : LaneNo, a.lanes[i].up = true) ∧
        ∃ i : LaneNo, (a.modLane l (Lane.frame a.locked good slots)).lanes[i].up = false := by
    simp only [triggerRose, Audio.trigger0, show (a.modLane l (Lane.frame a.locked good slots)).locked = a.locked from rfl,
      Bool.not_not, Bool.and_not_self, Bool.false_or, Bool.and_eq_true, trigger1_iff, Bool.not_eq_true',
      ← Bool.not_eq_true, not_exists, not_not]
  rw [rose]
  constructor
  · rintro ⟨all, i, down⟩
    rw [lane_modLane] at down
    by_cases here : l = i
    · subst here
      rw [if_pos rfl] at down
      exact ⟨all l, (frame_falls_iff (all l)).mp down, all⟩
    · rw [if_neg here] at down
      exact absurd (all i) (by simpa using down)
  · rintro ⟨up, bad, all⟩
    refine ⟨all, l, ?_⟩
    rw [lane_modLane, if_pos rfl]
    exact (frame_falls_iff up).mpr bad

/-- Settles O59: the frame is `Lane.frame` at its own lane, case by case. -/
theorem lanesComeUpAfterSixteenMarkersAndFallAtOneMissing :
    Obligations.LanesComeUpAfterSixteenMarkersAndFallAtOneMissing := by
  intro l good slots s
  obtain ⟨f, hf⟩ : ∃ f, f = Lane.frame s.audio.locked good (takenSlots s.audio.rate slots) := ⟨_, rfl⟩
  have audio : (withAudio (s.audio.modLane l f) s).audio = s.audio.modLane l f := by rw [withAudio_eq]
  have here : (s.audio.modLane l f).lanes[l] = f s.audio.lanes[l] := by rw [lane_modLane, if_pos rfl]
  refine ⟨withAudio (s.audio.modLane l f) s, by rw [exec_laneFrame_arm, execLaneFrame, hf], fun i other => ?_,
    by rw [audio]; exact withAudio_eq .., ?_⟩
  · rw [audio, lane_modLane, if_neg (Ne.symm other)]
  rw [audio, here, hf]
  refine ⟨fun up marked => ?_, fun up missed => ?_, fun down free => ?_, fun down locked missed => ?_,
    fun down locked marked few => ?_, fun down locked marked enough => ?_, fun q => ?_⟩
  · rw [marked, frame_up_good up]
    exact ⟨up, rfl, fun k => takenSlots_present ..⟩
  · rw [missed, frame_up_bad up]
    exact ⟨rfl, rfl, fun k => by simp [Lane.down]⟩
  · rw [free, frame_down_free down]
  · rw [locked, missed, frame_down_bad down]
  · rw [locked, marked, frame_down_good down few]
  · have due : s.audio.upDue l = true := by
      simp only [Audio.upDue, locked, down, Bool.not_false, Bool.true_and, decide_eq_true_eq]
      exact enough
    rw [locked, marked, frame_comes_up down enough]
    refine ⟨rfl, rfl, fun k => takenSlots_present .., ?_⟩
    rw [exec_laneUp_arm, execLaneUp, if_pos due]
    have same : (s.audio.modLane l fun _ => Lane.upWith (takenSlots s.audio.rate slots)) =
        s.audio.modLane l (Lane.frame true true (takenSlots s.audio.rate slots)) := by
      unfold Audio.modLane upd
      rw [frame_comes_up down enough]
    rw [same]
  · rw [port_withAudio]
    simp only [triggerRose_frame]

end Sys2Proof.Machine

/-!
PROOFS. The engine's sample period and the output frames: the flags, the exact sums, the meters and the frames that it forms
(R42 to R48, R61, R64, R65, R158, R159).
-/
namespace Sys2Proof.Machine

/-! ### Clip flags (R61) -/

@[simp] theorem enginePeriod_busTable (s : State) :
    (enginePeriod s).busTable = setClips s.mix.saturated (takeLevels s.tickDue s.mix.handed s.busTable) := by
  rw [enginePeriod_eq]

@[simp] theorem enginePeriod_audio (s : State) :
    (enginePeriod s).audio =
      { s.audio with handed := s.mix.handed, handedBefore := s.audio.handed, engineTaken := true } := by
  rw [enginePeriod_eq]

/-- Stage 8 leaves the settings of the bus table. -/
theorem setClips_takeLevels_settings (sat : Saturated) (tick : Bool) (h : Handed) (t : BusTable) :
    (setClips sat (takeLevels tick h t)).premixWidth = t.premixWidth ∧
      (setClips sat (takeLevels tick h t)).print = t.print ∧
      (setClips sat (takeLevels tick h t)).masterWidth = t.masterWidth ∧
      (setClips sat (takeLevels tick h t)).holdSetting = t.holdSetting := by
  simp [setClips, takeLevels]

/-- A bus table with the settings of `t`: it differs from `t` in flags and levels alone. -/
theorem busTable_settings {t u : BusTable} (widths : u.premixWidth = t.premixWidth) (print : u.print = t.print)
    (master : u.masterWidth = t.masterWidth) (hold : u.holdSetting = t.holdSetting) :
    u = { t with
      buses := u.buses, masterClip := u.masterClip, stemMeters := u.stemMeters, masterMeters := u.masterMeters,
      tickCounter := u.tickCounter } := by
  cases u
  cases t
  simp only at widths print master hold
  simp only [widths, print, master, hold]

theorem bus_enginePeriod (s : State) (b : BusNo) :
    (enginePeriod s).bus b = { s.bus b with clip := (s.bus b).clip || s.mix.saturated.buses[b] } := by
  simp [State.bus, setClips, takeLevels]

theorem mix_saturated_bus (s : State) (b : BusNo) :
    s.mix.saturated.buses[b] = busSaturates s.mix.engine.accumulators[b] s.mix.engine.gainCells[b].current := by
  have form : s.mix.saturated.buses =
    Vector.ofFn fun b => busSaturates s.mix.engine.accumulators[b] s.mix.engine.gainCells[b].current := rfl
  rw [form]
  simp

theorem mix_saturated_master (s : State) :
    s.mix.saturated.master = decide (∃ c : Channel, overloads (printSum s.busTable.print s.mix.handed.stem c) = true) := by
  have form : s.mix.saturated.master =
    (Vector.ofFn fun c => printSum s.busTable.print s.mix.handed.stem c).any overloads := rfl
  rw [form]
  generalize s.mix.handed.stem = stems
  rw [Bool.eq_iff_iff, decide_eq_true_eq, Vector.any_iff_exists]
  exact ⟨fun ⟨i, hi, h⟩ => ⟨⟨i, hi⟩, by simpa using h⟩, fun ⟨c, h⟩ => ⟨c.val, c.isLt, by simpa using h⟩⟩

/-- A bus saturates where some output within its width lies outside the sample range before its clamp: beyond the width
an accumulator is 0, and 0 scaled is 0. -/
theorem busSaturates_iff {acc : Vector Int 12} {width : Nat} (beyond : ∀ c : Channel, width ≤ c.val → acc[c] = 0)
    (gain : Nat) :
    busSaturates acc gain = true ↔
      ∃ c : Channel, c.val < width ∧ (rounded acc[c] gain < -8388608 ∨ 8388607 < rounded acc[c] gain) := by
  have outside : ∀ c : Channel, overloads (scaled acc[c] gain) = true ↔
      c.val < width ∧ (rounded acc[c] gain < -8388608 ∨ 8388607 < rounded acc[c] gain) := by
    intro c
    rw [overloads_iff, scaled_eq]
    constructor
    · intro h
      refine ⟨Nat.lt_of_not_le fun out => ?_, h⟩
      rw [← scaled_eq, beyond c out, scaled_zero] at h
      omega
    · exact fun h => h.2
  simp only [← outside, busSaturates, Vector.any_iff_exists]
  exact ⟨fun ⟨i, hi, h⟩ => ⟨⟨i, hi⟩, h⟩, fun ⟨c, h⟩ => ⟨c.val, c.isLt, h⟩⟩

theorem mix_accumulators_beyond (s : State) (b : BusNo) (c : Channel) (out : s.busTable.busWidth b ≤ c.val) :
    (s.mix.engine.accumulators[b])[c] = 0 := by
  rcases bus_cases b with ⟨k, rfl⟩ | ⟨t, rfl⟩
  · rw [mix_accumulators_premix]
    exact busAccumulators_beyond out ..
  · rw [mix_accumulators_stem]
    exact busAccumulators_beyond out ..

/-- A bus is saturated where an output within its width is clamped. -/
theorem mix_saturated_bus_eq (s : State) (b : BusNo) :
    s.mix.saturated.buses[b] =
      decide (∃ c : Channel, c.val < s.busTable.busWidth b ∧
        (rounded ((s.mix.engine.accumulators[b])[c]) (s.mix.engine.gainCells[b]).current < -8388608 ∨
          8388607 < rounded ((s.mix.engine.accumulators[b])[c]) (s.mix.engine.gainCells[b]).current)) := by
  have saturates := busSaturates_iff (acc := s.mix.engine.accumulators[b]) (mix_accumulators_beyond s b)
    (s.mix.engine.gainCells[b]).current
  rw [mix_saturated_bus, Bool.eq_iff_iff, decide_eq_true_eq, saturates]

/-- CLIP rises where a flag that was clear is set. -/
theorem clipRises_iff (s : State) :
    clipRises (takeLevels s.tickDue s.mix.handed s.busTable) s.mix.saturated = true ↔
      (∃ b, (s.bus b).clip = false ∧ ((enginePeriod s).bus b).clip = true) ∨
        (s.busTable.masterClip = false ∧ (enginePeriod s).busTable.masterClip = true) := by
  have bus : ∀ b : BusNo, (s.mix.saturated.buses[b] && !(s.bus b).clip) = true ↔
      (s.bus b).clip = false ∧ ((enginePeriod s).bus b).clip = true := by
    intro b
    rw [bus_enginePeriod]
    cases (s.bus b).clip <;> simp
  have master : (s.mix.saturated.master && !s.busTable.masterClip) = true ↔
      s.busTable.masterClip = false ∧ (enginePeriod s).busTable.masterClip = true := by
    rw [enginePeriod_busTable]
    simp only [setClips, takeLevels]
    cases s.busTable.masterClip <;> simp
  rw [← master, ← exists_congr bus, clipRises, Bool.or_eq_true, List.any_eq_true]
  simp [State.bus, takeLevels]

theorem port_takeSaturation (sat : Saturated) (s : State) (q : PortId) :
    (takeSaturation sat s).port q =
      if clipRises s.busTable sat then (s.port q).raised .clip else s.port q := by
  have port : ∀ t, ({ s with busTable := t } : State).port q = s.port q := fun _ => rfl
  unfold takeSaturation
  dsimp only
  split
  · rw [raiseEverywhere, port_mapPorts, port]
  · exact port _

/-- The engine's sample period reaches a port by CLIP alone. -/
theorem port_enginePeriod (s : State) (q : PortId) :
    (enginePeriod s).port q =
      if clipRises (takeLevels s.tickDue s.mix.handed s.busTable) s.mix.saturated then (s.port q).raised .clip
      else s.port q := by
  have port : ∀ e t a, ({ s with engine := e, busTable := t, audio := a } : State).port q = s.port q := fun _ _ _ => rfl
  unfold enginePeriod
  dsimp only
  rw [port_takeSaturation, port]

theorem mix_rampLength (s : State) : s.mix.engine.rampLength = s.engine.rampLength := rfl

theorem mix_raw (s : State) :
    s.mix.handed.raw = Vector.ofFn fun l => Vector.ofFn fun k => s.audio.rawSlot l k := rfl

/-- Settles O34. -/
theorem samplePeriodStepsCellsAndSetsClipFlags : Obligations.SamplePeriodStepsCellsAndSetsClipFlags := by
  intro s
  refine ⟨enginePeriod s, exec_engineSamplePeriod s, by rw [enginePeriod_eq], by rw [enginePeriod_eq],
    by rw [enginePeriod_eq], by rw [enginePeriod_eq], by rw [enginePeriod_eq], ?_, cells_enginePeriod s, fun b => ?_, ?_,
    fun b => ⟨?_, ?_⟩, ?_, fun p => ⟨?_, ?_⟩, ?_, fun l k => ?_⟩
  · rw [enginePeriod_engine, mix_rampLength]
  · rw [enginePeriod_engine, mix_gainCells]
    simp
  · rw [enginePeriod_busTable]
    obtain ⟨widths, print, master, hold⟩ := setClips_takeLevels_settings s.mix.saturated s.tickDue s.mix.handed s.busTable
    exact busTable_settings widths print master hold
  · rw [bus_enginePeriod]
  · rw [bus_enginePeriod, mix_saturated_bus_eq, enginePeriod_engine]
  · rw [enginePeriod_busTable, enginePeriod_handed]
    simp only [setClips, takeLevels, mix_saturated_master, overloads_iff, printSum_eq]
  · rw [port_enginePeriod, raised_eq]
    split <;> rfl
  · rw [port_enginePeriod]
    simp only [clipRises_iff, raised_eq]
    split
    · next rises => simp only [rises, and_true]; rfl
    · next still => rw [if_neg fun h => still h.2]
  · rw [enginePeriod_audio]
  · rw [enginePeriod_handed, mix_raw]
    simp only [Fin.getElem_fin, Vector.getElem_ofFn, rawSlot_eq]

/-! ### Exact sums (R42 to R45) -/

theorem toPremix_iff (b : PremixNo) (d : Dest) : toPremix b d = true ↔ d = .premix b := by
  cases d <;> simp [toPremix]

theorem toStem_iff (t : StemNo) (d : Dest) : toStem t d = true ↔ d = .stem t := by cases d <;> simp [toStem]

/-- A strip that feeds a premix reads no premix (R16), so its sample needs none of the outputs of the period. -/
theorem gather_of_premix {a : Audio} {r : Strip} {b : PremixNo} (allowed : routeAllowed r.source r.dest = true)
    (feeds : r.dest = .premix b) (x y : Vector (Vector Int 12) 16) : gather a x r = gather a y r := by
  cases hs : r.source with
  | none => simp [gather, hs]
  | input l k => simp [gather, hs]
  | premix d c => simp [routeAllowed, hs, feeds] at allowed

/-- An accumulator within the width is the exact sum over the strips of its destination. -/
theorem busAccumulators_sum {s : State} {b : BusNo} {c : Channel} {d : Dest} {feeds : Dest → Bool}
    {samples : Vector Int 160} (inside : c.val < s.busTable.busWidth b) (only : ∀ e, feeds e = true ↔ e = d)
    (reads : ∀ n, (s.strip n).dest = d → samples[n] = sampleOf s (enginePeriod s) n) :
    (busAccumulators s (advanceCells s.engine) samples b feeds)[c] = busSum s (enginePeriod s) d c := by
  have cell : ∀ n, ((advanceCells s.engine).stripCells[n])[c] = ((enginePeriod s).cells n)[c] := by
    intro n
    rw [cells_enginePeriod]
    simp [advanceCells, State.cells]
  have formed : (busAccumulators s (advanceCells s.engine) samples b feeds)[c] =
      accumulate s.strips (advanceCells s.engine).stripCells samples feeds c := by
    simp [busAccumulators, inside]
  rw [formed, accumulate_eq, busSum]
  refine Finset.sum_congr rfl fun n _ => ?_
  by_cases feeds_d : (s.strip n).dest = d
  · rw [if_pos ((only (s.strips[n]).dest).mpr feeds_d), if_pos feeds_d, cell, reads n feeds_d]
  · rw [if_neg fun h => feeds_d ((only (s.strips[n]).dest).mp h), if_neg feeds_d]

theorem gathered_get (s : State) (premix : Vector (Vector Int 12) 16) (n : StripNo) :
    (s.gathered premix)[n] = gather s.audio premix (s.strip n) := by
  simp [State.gathered, State.strip]

theorem busWidth_premixBus (t : BusTable) (k : PremixNo) : t.busWidth (premixBus k) = t.premixWidth[k] := by
  simp [BusTable.busWidth, premixBus]

/-- The output of a bus channel: its accumulator scaled, rounded and clamped (R43, R45). -/
theorem busOutputs_get (acc : Vector Int 12) (gain : Nat) (c : Channel) :
    (busOutputs acc gain)[c] = clamp24 (rounded acc[c] gain) := by
  simp only [busOutputs, Fin.getElem_fin, Vector.getElem_map]
  rw [sat24_eq_clamp24, scaled_eq, rounded]

theorem premixOut_eq (s : State) (b : PremixNo) (c : Channel) :
    (s.mix.handed.premix[b])[c] =
      clamp24 (rounded ((s.mix.engine.accumulators[premixBus b])[c]) (s.mix.engine.gainCells[premixBus b]).current) := by
  rw [mix_accumulators_premix, ← busOutputs_get]
  simp [mix_premix, State.premixAccumulators]

theorem stemOut_eq (s : State) (k : StemNo) (c : Channel) :
    (s.mix.handed.stem[k])[c] =
      clamp24 (rounded ((s.mix.engine.accumulators[stemBus k])[c]) (s.mix.engine.gainCells[stemBus k]).current) := by
  rw [mix_accumulators_stem, ← busOutputs_get]
  simp [mix_stem, State.stemAccumulators]

theorem clamp24_rounded_zero (gain : Nat) : clamp24 (rounded 0 gain) = 0 := by
  rw [rounded, ← scaled_eq, scaled_zero]
  rfl

/-- Settles O35: the premix sums gather what no premix output enters, the stem sums what the period's outputs give. -/
theorem busOutputsAreTheScaledExactSums : Obligations.BusOutputsAreTheScaledExactSums := by
  intro s routes slots
  refine ⟨enginePeriod s, exec_engineSamplePeriod s, fun b c => ⟨fun inside => ?_, fun out => ?_⟩,
    fun k c => ⟨fun inside => ?_, fun out => ?_⟩⟩
  · have sum : (s.mix.engine.accumulators[premixBus b])[c] = busSum s (enginePeriod s) (.premix b) c := by
      rw [mix_accumulators_premix]
      refine busAccumulators_sum (by rwa [busWidth_premixBus]) (toPremix_iff b) fun n feeds => ?_
      rw [gathered_get, sampleOf_enginePeriod slots]
      exact gather_of_premix (routes n) feeds ..
    rw [enginePeriod_engine, enginePeriod_handed, premixOut_eq, sum]
    exact ⟨rfl, rfl⟩
  · rw [enginePeriod_handed, premixOut_eq, mix_accumulators_beyond s _ c (by rwa [busWidth_premixBus]),
      clamp24_rounded_zero]
  · have sum : (s.mix.engine.accumulators[stemBus k])[c] = busSum s (enginePeriod s) (.stem k) c := by
      rw [mix_accumulators_stem]
      refine busAccumulators_sum (by rwa [busWidth_stemBus]) (toStem_iff k) fun n _ => ?_
      rw [gathered_get, sampleOf_enginePeriod slots]
    rw [enginePeriod_engine, enginePeriod_handed, stemOut_eq, sum]
    exact ⟨rfl, rfl⟩
  · rw [enginePeriod_handed, stemOut_beyond out]

/-! ### Meters and the cells that settle (R38, R64, R65) -/

theorem tickPeriods_eq (rate : SampleRate) : tickPeriods rate = if rate = .k48 then 480 else 960 := by
  cases rate <;> rfl

theorem meter_take_eq (hold : Nat) (tick : Bool) (x : Int) (m : Meter) :
    m.take hold tick x =
      if m.value < x.natAbs then { value := x.natAbs, hold }
      else if tick then
        if 0 < m.hold then { value := m.value, hold := m.hold - 1 } else { value := m.value * 7 / 8, hold := 0 }
      else m := by
  unfold Meter.take
  cases tick with
  | false => rfl
  | true =>
    by_cases peak : m.value < x.natAbs
    · simp only [if_pos peak]
    · by_cases held : 0 < m.hold
      · simp only [if_neg peak, if_pos held]
      · have none_left : m.hold = 0 := by omega
        simp only [if_neg peak, none_left]

theorem stemMeter_enginePeriod (s : State) (i : StemNo) (c : Channel) :
    (enginePeriod s).busTable.stemMeters[12 * i.val + c.val] =
      (s.busTable.stemMeters[12 * i.val + c.val]).take s.busTable.holdSetting s.tickDue (s.mix.handed.stem[i])[c] := by
  have row : (12 * i.val + c.val) / 12 = i.val := by omega
  have column : (12 * i.val + c.val) % 12 = c.val := by omega
  rw [enginePeriod_busTable]
  simp [setClips, takeLevels, row, column]

theorem masterMeter_enginePeriod (s : State) (c : Channel) :
    (enginePeriod s).busTable.masterMeters[c] =
      (s.busTable.masterMeters[c]).take s.busTable.holdSetting s.tickDue s.mix.handed.master[c] := by
  rw [enginePeriod_busTable]
  simp [setClips, takeLevels]

theorem exec_meterTick_arm (s : State) : exec .meterTick s = execMeterTick s := rfl

theorem exec_cellSettle_arm (k : CellNo) (s : State) : exec (.cellSettle k) s = execCellSettle k s := rfl

/-- Settles O38. -/
theorem metersTakePeaksHoldAndFall : Obligations.MetersTakePeaksHoldAndFall := by
  intro k s
  refine ⟨enginePeriod s, exec_engineSamplePeriod s, ?_, ?_, fun i c => ?_, fun c => ?_, fun due => ?_, fun last => ?_⟩
  · rw [State.tickDue, tickPeriods_eq]
  · rw [enginePeriod_busTable]
    rfl
  · rw [stemMeter_enginePeriod, meter_take_eq, enginePeriod_handed]
  · rw [masterMeter_enginePeriod, meter_take_eq, enginePeriod_handed]
  · rw [exec_meterTick_arm, execMeterTick, if_pos due]
  · have settles : (s.engine.cell k).settlesNext = true := by simpa [Cell.settlesNext] using last
    rw [exec_cellSettle_arm, execCellSettle, if_pos settles, cell_enginePeriod, advance_length,
      advance_step (by omega), advance_last last]
    exact ⟨rfl, rfl, last⟩

/-! ### Output frames (R158, R159) -/

theorem slotAbsent_iff (rate : SampleRate) (k : SlotNo) :
    slotPresent rate k.val = false ↔ rate = .k96 ∧ 8 ≤ k.val := by
  rw [← Bool.not_eq_true, slotPresent_iff]
  cases rate <;> simp

theorem trigger0_iff (a : Audio) : a.trigger0 = true ↔ a.locked = false := by simp [Audio.trigger0]

/-- A slot is silent by a trigger that its entry is flagged for. -/
theorem slotValue_safe {a : Audio} {e : PatchEntry} (h : Handed)
    (safe : (e.safe0 = true ∧ a.locked = false) ∨ (e.safe1 = true ∧ ∃ i : LaneNo, a.lanes[i].up = false)) :
    a.slotValue h e = 0 := by
  rw [← trigger0_iff, ← trigger1_iff] at safe
  simp [Audio.slotValue, safe]

theorem slotValue_open {a : Audio} {e : PatchEntry} (h : Handed) (open0 : ¬(e.safe0 = true ∧ a.locked = false))
    (open1 : ¬(e.safe1 = true ∧ ∃ i : LaneNo, a.lanes[i].up = false)) :
    a.slotValue h e = a.selectedValue h e.selection := by
  rw [← trigger0_iff] at open0
  rw [← trigger1_iff] at open1
  rw [Audio.slotValue, if_neg (by rw [Bool.or_eq_true, Bool.and_eq_true, Bool.and_eq_true]; exact not_or.mpr ⟨open0, open1⟩)]

theorem formFrames_get (a : Audio) (l : LaneNo) (k : SlotNo) :
    (a.formFrames[l])[k] =
      if slotPresent a.rate k.val then a.slotValue a.previous (a.patch[16 * l.val + k.val]'(by omega)) else 0 := by
  simp [Audio.formFrames]

/-- Settles O39. -/
theorem outputFrameCarriesThePatchedValues : Obligations.OutputFrameCarriesThePatchedValues := by
  intro s
  refine ⟨{ s with audio := { s.audio with outFrames := s.audio.formFrames } }, rfl, rfl, ?_⟩
  rintro l k h e rfl rfl
  refine ⟨fun silent => ?_, fun present open0 open1 => ?_⟩
  · change (s.audio.formFrames[l])[k] = 0
    rw [formFrames_get]
    split
    · next present =>
      refine slotValue_safe _ (silent.resolve_left fun absent => ?_)
      rw [(slotAbsent_iff ..).mpr absent] at present
      cases present
    · rfl
  · change (s.audio.formFrames[l])[k] = _
    rw [← slotAbsent_iff, Bool.not_eq_false] at present
    rw [formFrames_get, if_pos present, slotValue_open _ open0 open1, Audio.previous]
    cases (s.audio.patch[16 * l.val + k.val]'(by omega)).selection with
    | silent | master _ | stem _ _ | premix _ _ => rfl
    | input i j => simp only [Audio.selectedValue, Bool.and_eq_true, slotPresent_iff]

end Sys2Proof.Machine

/-!
PROOFS. The widths of buses: SET-BUS and SET-MASTER (R54 to R59, R66), and what a request that answers in a changed state
leaves.
-/
namespace Sys2Proof.Machine

/-! ### Checks in order -/

@[simp] theorem firstFailure_failIf_true (st : Status) (l : List (Option Status)) :
    firstFailure (failIf true st :: l) = some st := rfl

@[simp] theorem firstFailure_failIf_false (st : Status) (l : List (Option Status)) :
    firstFailure (failIf false st :: l) = firstFailure l := rfl

@[simp] theorem firstFailure_nil : firstFailure [] = none := rfl

theorem otherPort_true {p : PortId} {o : Option PortId} : otherPort p o = true ↔ ∃ q, o = some q ∧ q ≠ p := by
  cases o <;> simp [otherPort]

/-! ### A request that answers in a changed state -/

/-- A request that answers in state `v`, which the operation left the ports of, leaves `v` with the reply on the ports
that stood before. -/
theorem request_leaves_answered {s v : State} {p : PortId} {f : State → State} {code : Byte} {st : Status} {l : List Byte}
    (h : (s.port p).takes = true) (hv : v.ports = (s.modPort p PortState.transacted).ports)
    (hf : f (s.modPort p PortState.transacted) = answer p code st l v) :
    request p f s = .next (({ v with ports := s.ports } : State).leaves p (reply code st l)) := by
  have back : v = ({ v with ports := s.ports } : State).modPort p PortState.transacted := by
    have same : ({ v with ports := s.ports } : State).modPort p PortState.transacted =
      { v with ports := (s.modPort p PortState.transacted).ports } := rfl
    rw [same, ← hv]
  refine request_leaves (u := { v with ports := s.ports }) h rfl ?_
  rw [hf, ← back]

/-! ### Retargets under new widths (R36, R49) -/

theorem cells_retargetWhere (concerns : Dest → Bool) (s : State) (n : StripNo) (c : Channel) :
    ((retargetWhere concerns s).cells n)[c] =
      if concerns (s.strip n).dest then ((s.cells n)[c]).retarget s.engine.rampLength (s.target n c)
      else (s.cells n)[c] := by
  obtain ⟨u, others, strip, cells, -, turned⟩ := eachStrip_turn
    (f := fun n t => if concerns (t.strip n).dest then retargetStrip n t else t) (fun n t => .sweepRetarget concerns n t) n s
  have read : (retargetWhere concerns s).cells n =
      (if concerns (s.strip n).dest then retargetStrip n u else u).cells n := strip ▸ turned
  by_cases feeds : concerns (s.strip n).dest = true
  · rw [if_pos feeds] at read
    rw [read, if_pos feeds, cells_retargetStrip, if_pos rfl, cells, others.target strip, others.rampLength]
  · rw [if_neg feeds] at read
    rw [read, if_neg feeds, cells]

theorem target_retargetWhere (concerns : Dest → Bool) (s : State) (n : StripNo) (c : Channel) :
    (retargetWhere concerns s).target n c = s.target n c := (retargetWhere_onlyCells concerns s).target n c

/-- Of a bus table written over `s`: no target changes where neither does the width. -/
theorem target_withBusTable {s : State} {t : BusTable} {n : StripNo}
    (same : t.destWidth (s.strip n).dest = s.busTable.destWidth (s.strip n).dest) (c : Channel) :
    ({ s with busTable := t } : State).target n c = s.target n c :=
  congrArg (fun w => targetOf (s.used n) w c) same

theorem livePanBeyond_iff {s : State} {concerns : Dest → Bool} {w : Nat} :
    livePanBeyond s concerns w = true ↔
      ∃ n, concerns (s.strip n).dest = true ∧ ∃ e ∈ (s.strip n).pan, w ≤ e.channel.val := by
  simp only [livePanBeyond, Vector.any_iff_exists, Bool.and_eq_true, List.any_eq_true, decide_eq_true_eq]
  exact ⟨fun ⟨i, hi, h⟩ => ⟨⟨i, hi⟩, h⟩, fun ⟨n, h⟩ => ⟨n.val, n.isLt, h⟩⟩

theorem widthOk_iff (w : Nat) : widthOk w = true ↔ 1 ≤ w ∧ w ≤ 12 := by simp [widthOk]

/-! ### SET-MASTER (R59, R66) -/

theorem feedsStem_iff (d : Dest) : feedsStem d = true ↔ ∃ k, d = .stem k := by cases d <;> simp [feedsStem]

theorem exec_setMaster_arm (p : PortId) (width : Byte) (s : State) :
    exec (.setMaster p width) s = execSetMaster p width s := rfl

theorem setMasterFailure_modPort (w : Nat) (s : State) (p : PortId) (f : PortState → PortState) :
    setMasterFailure w (s.modPort p f) = setMasterFailure w s := rfl

theorem exec_setMaster_refused {s : State} {p : PortId} {width : Byte} {st : Status} (h : (s.port p).takes = true)
    (failed : setMasterFailure width.toNat s = some st) :
    exec (.setMaster p width) s = .next (s.leaves p (reply 0x11 st [])) := by
  rw [exec_setMaster_arm, execSetMaster]
  refine request_leaves h rfl ?_
  rw [setMasterFailure_modPort, failed]

theorem setMasterFailure_range {w : Nat} (out : ¬(1 ≤ w ∧ w ≤ 12)) (s : State) : setMasterFailure w s = some .range := by
  rw [← widthOk_iff, Bool.not_eq_true] at out
  simp [setMasterFailure, out]

theorem setMasterFailure_inUse {w : Nat} {s : State} (inside : widthOk w = true) (narrower : w < s.busTable.masterWidth)
    (used : livePanBeyond s feedsStem w = true) : setMasterFailure w s = some .inUse := by
  simp [setMasterFailure, inside, narrower, used]

theorem setMasterFailure_none {w : Nat} {s : State} (inside : widthOk w = true)
    (free : w < s.busTable.masterWidth → livePanBeyond s feedsStem w = false) : setMasterFailure w s = none := by
  by_cases narrower : w < s.busTable.masterWidth <;> simp [setMasterFailure, inside, narrower, free]

/-- The bus table after SET-MASTER, whose meters beyond a narrower width are 0. -/
theorem applyMaster_busTable (w : Nat) (s : State) : (applyMaster w s).busTable = mastered w s.busTable := by
  by_cases same : w = s.busTable.masterWidth
  · rw [applyMaster, if_pos same, mastered, if_neg (by omega)]
    subst same
    rfl
  · rw [applyMaster_mastered same, (retargetWhere_onlyCells ..).busTable]

theorem mastered_stemMeter (w : Nat) (t : BusTable) (i : StemNo) (c : Channel) :
    (mastered w t).stemMeters[12 * i.val + c.val] =
      if w < t.masterWidth ∧ w ≤ c.val then { value := 0, hold := 0 } else t.stemMeters[12 * i.val + c.val] := by
  have column : (12 * i.val + c.val) % 12 = c.val := by omega
  unfold mastered
  by_cases narrower : w < t.masterWidth
  · simp only [narrower, true_and, if_true, resetMetersBeyond, Vector.getElem_ofFn, column]
    rfl
  · simp only [narrower, false_and, if_false]

theorem mastered_masterMeter (w : Nat) (t : BusTable) (c : Channel) :
    (mastered w t).masterMeters[c] =
      if w < t.masterWidth ∧ w ≤ c.val then { value := 0, hold := 0 } else t.masterMeters[c] := by
  unfold mastered
  by_cases narrower : w < t.masterWidth
  · simp only [narrower, true_and, if_true, resetMetersBeyond, Fin.getElem_fin, Vector.getElem_ofFn]
    rfl
  · simp only [narrower, false_and, if_false]

/-- The cells after SET-MASTER: those of stem strips are retargeted where the width changes. -/
theorem cells_applyMaster (w : Nat) (s : State) (n : StripNo) (c : Channel) :
    ((applyMaster w s).cells n)[c] =
      if w = s.busTable.masterWidth ∨ (∀ k, (s.strip n).dest ≠ .stem k) ∨
        ((s.cells n)[c]).target = (applyMaster w s).target n c then (s.cells n)[c]
      else
        { current := ((s.cells n)[c]).current, start := ((s.cells n)[c]).current,
          target := (applyMaster w s).target n c, length := s.engine.rampLength, step := 0 } := by
  by_cases same : w = s.busTable.masterWidth
  · rw [if_pos (.inl same), applyMaster, if_pos same]
  · rw [applyMaster_mastered same, target_retargetWhere, cells_retargetWhere]
    change (if feedsStem (s.strip n).dest = true then
      ((s.cells n)[c]).retarget s.engine.rampLength (({ s with busTable := mastered w s.busTable } : State).target n c)
      else (s.cells n)[c]) = _
    by_cases feeds : ∃ k, (s.strip n).dest = .stem k
    · have some_stem : ¬∀ k, (s.strip n).dest ≠ .stem k := fun h => feeds.elim h
      simp only [(feedsStem_iff _).mpr feeds, if_true, same, some_stem, false_or, Cell.retarget]
    · rw [if_neg fun h => feeds ((feedsStem_iff _).mp h), if_pos (.inr (.inl fun k hk => feeds ⟨k, hk⟩))]

/-- Settles O41: `applyMaster` writes the width and the meters, and retargets the strips of the stems. -/
theorem setMasterWritesTheWidthAndZeroesMeters : Obligations.SetMasterWritesTheWidthAndZeroesMeters := by
  intro p width s h
  refine ⟨fun out => exec_setMaster_refused h (setMasterFailure_range out s),
    fun low high narrower ⟨n, k, stem, e, he, beyond⟩ => exec_setMaster_refused h
      (setMasterFailure_inUse ((widthOk_iff _).mpr ⟨low, high⟩) narrower
        (livePanBeyond_iff.mpr ⟨n, (feedsStem_iff _).mpr ⟨k, stem⟩, e, he, beyond⟩)), fun low high free => ?_⟩
  have passed : setMasterFailure width.toNat s = none :=
    setMasterFailure_none ((widthOk_iff _).mpr ⟨low, high⟩) fun narrower => by
      rw [← Bool.not_eq_true, livePanBeyond_iff]
      rintro ⟨n, feeds, e, he, beyond⟩
      obtain ⟨k, stem⟩ := (feedsStem_iff _).mp feeds
      have := free narrower n k stem e he
      omega
  obtain ⟨s', hs⟩ : ∃ s', s' = s.modPort p PortState.transacted := ⟨_, rfl⟩
  have eq := applyMaster_eq width.toNat s'
  have table := applyMaster_busTable width.toNat s'
  have cells := cells_applyMaster width.toNat s'
  obtain ⟨v, hv⟩ : ∃ v, v = applyMaster width.toNat s' := ⟨_, rfl⟩
  rw [← hv] at eq table cells
  have width_read : v.busTable.masterWidth = width.toNat := by rw [table, mastered_eq]
  refine ⟨({ v with ports := s.ports } : State).leaves p (reply 0x11 .ok [width]), ?_, width_read, fun i c => ?_,
    fun c => ?_, fun n c => ?_, ?_, otherPortsKept_leaves rfl _ _, ownPortKept_leaves rfl .., pendingSet_leaves rfl ..,
    replySlot_leaves ..⟩
  · rw [exec_setMaster_arm, execSetMaster]
    refine request_leaves_answered h (by rw [eq, hs]) ?_
    rw [setMasterFailure_modPort, passed, ← hs, ← hv]
    dsimp only
    rw [width_read, w1, BitVec.ofNat_toNat, BitVec.setWidth_eq]
  · refine Eq.trans (?_ : _ = v.busTable.stemMeters[12 * i.val + c.val]) ?_
    · rfl
    · rw [show v.busTable = mastered width.toNat s.busTable by rw [table, hs]; rfl]
      exact mastered_stemMeter ..
  · refine Eq.trans (?_ : _ = v.busTable.masterMeters[c]) ?_
    · rfl
    · rw [show v.busTable = mastered width.toNat s.busTable by rw [table, hs]; rfl]
      exact mastered_masterMeter ..
  · have := cells n c
    rw [hs] at this
    exact this
  · rw [hs, ← width_read] at eq
    conv_lhs => rw [eq]
    rfl

/-! ### SET-BUS (R54 to R57) -/

theorem exec_setBus_arm (p : PortId) (bus sel width : Byte) (gain : BitVec 16) (mute print : Byte) (s : State) :
    exec (.setBus p bus sel width gain mute print) s = execSetBus p bus sel width gain mute print s := rfl

theorem setBusFailure_modPort (p : PortId) (b : BusNo) (sel width mute print : Byte) (s : State)
    (f : PortState → PortState) :
    setBusFailure p b sel width mute print (s.modPort p f) = setBusFailure p b sel width mute print s := rfl

theorem readIndex_busNo (b : BusNo) : readIndex 24 (BitVec.ofNat 8 b.val) = some b :=
  readIndex_some (by simp; omega)

theorem exec_setBus_refused {s : State} {p : PortId} {b : BusNo} {sel width mute print : Byte} {st : Status}
    (h : (s.port p).takes = true) (failed : setBusFailure p b sel width mute print s = some st) (gain : BitVec 16) :
    exec (.setBus p (BitVec.ofNat 8 b.val) sel width gain mute print) s = .next (s.leaves p (reply 0x10 st [])) := by
  rw [exec_setBus_arm, execSetBus]
  refine request_leaves h rfl ?_
  rw [readIndex_busNo]
  dsimp only
  rw [setBusFailure_modPort, failed]

section Checks
variable {p : PortId} {b : BusNo} {sel width mute print : Byte} {s : State}

/-- The bytes of a SET-BUS that name no value (R54 step 3, R178). -/
def setBusBad (sel width mute print : Byte) : Bool :=
  (sel.getLsbD 0 && !widthOk width.toNat) || badFlag (sel.getLsbD 2) mute || badFlag (sel.getLsbD 3) print

/-- The fields that a bus of its kind does not have (R54 step 4). -/
def setBusMisfit (b : BusNo) (sel : Byte) : Bool :=
  (sel.getLsbD 0 && !decide (b.val < 16)) || (sel.getLsbD 3 && decide (b.val < 16))

/-- A width that a live pan goes beyond (R54 step 5). -/
def setBusNarrows (b : BusNo) (sel width : Byte) (s : State) : Bool :=
  sel.getLsbD 0 && decide (width.toNat < s.busTable.busWidth b) && livePanBeyond s (feedsBus b) width.toNat

theorem setBusFailure_eq :
    setBusFailure p b sel width mute print s =
      firstFailure
        [failIf (otherPort p (s.bus b).holder) .held, failIf (setBusBad sel width mute print) .range,
          failIf (setBusMisfit b sel) .shape, failIf (setBusNarrows b sel width s) .inUse] := rfl

theorem badFlag_iff (chosen : Bool) (x : Byte) : badFlag chosen x = true ↔ chosen = true ∧ 1 < x.toNat := by
  rw [badFlag, Bool.and_eq_true]
  refine and_congr_right fun _ => ⟨fun h => ?_, fun h => by rw [readFlag_none h]; rfl⟩
  by_contra small
  have two : x.toNat = 0 ∨ x.toNat = 1 := by omega
  rcases two with zero | one
  · simp [readFlag, zero] at h
  · simp [readFlag, one] at h

theorem setBusBad_iff :
    setBusBad sel width mute print = true ↔
      (sel.getLsbD 0 = true ∧ ¬(1 ≤ width.toNat ∧ width.toNat ≤ 12)) ∨ (sel.getLsbD 2 = true ∧ 1 < mute.toNat) ∨
        (sel.getLsbD 3 = true ∧ 1 < print.toNat) := by
  rw [setBusBad, Bool.or_eq_true, Bool.or_eq_true, badFlag_iff, badFlag_iff, Bool.and_eq_true, Bool.not_eq_true',
    ← Bool.not_eq_true, widthOk_iff, or_assoc]

theorem setBusMisfit_iff :
    setBusMisfit b sel = true ↔ (sel.getLsbD 0 = true ∧ 16 ≤ b.val) ∨ (sel.getLsbD 3 = true ∧ b.val < 16) := by
  simp [setBusMisfit]

theorem feedsBus_premix {b : BusNo} (premix : b.val < 16) (d : Dest) :
    feedsBus b d = true ↔ ∃ k : PremixNo, k.val = b.val ∧ d = .premix k := by
  cases d with
  | none => simp [feedsBus]
  | premix k => simp [feedsBus]
  | stem k =>
    simp only [feedsBus, beq_iff_eq, reduceCtorEq, and_false, exists_false, iff_false]
    omega

theorem setBusNarrows_iff (premix : sel.getLsbD 0 = true → b.val < 16) :
    setBusNarrows b sel width s = true ↔
      sel.getLsbD 0 = true ∧ width.toNat < s.busTable.busWidth b ∧
        ∃ (n : StripNo) (d : PremixNo), d.val = b.val ∧ (s.strip n).dest = .premix d ∧
          ∃ e ∈ (s.strip n).pan, width.toNat ≤ e.channel.val := by
  rw [setBusNarrows, Bool.and_eq_true, Bool.and_eq_true, decide_eq_true_eq, livePanBeyond_iff, and_assoc]
  refine and_congr_right fun chosen => and_congr_right fun _ => exists_congr fun n => ?_
  rw [feedsBus_premix (premix chosen)]
  exact ⟨fun ⟨⟨d, hd, dest⟩, e⟩ => ⟨d, hd, dest, e⟩, fun ⟨d, hd, dest, e⟩ => ⟨⟨d, hd, dest⟩, e⟩⟩

end Checks

/-! The bus table written -/

theorem busWidth_stem (t : BusTable) {b : BusNo} (stem : 16 ≤ b.val) : t.busWidth b = t.masterWidth := by
  simp [BusTable.busWidth, Nat.not_lt.mpr stem]

theorem busWidth_writeBus (b a : BusNo) (c : BusChange) (t : BusTable) :
    (writeBus b c t).busWidth a =
      if a = b ∧ b.val < 16 then c.width.getD (t.busWidth b) else t.busWidth a := by
  rcases Nat.lt_or_ge a.val 16 with premix | stem
  · obtain ⟨k, hk⟩ : ∃ k : PremixNo, k.val = a.val := ⟨⟨a.val, premix⟩, rfl⟩
    rw [busWidth_premix _ hk, writeBus_premixWidth, busWidth_premix _ hk]
    by_cases same : a = b
    · subst same
      rw [if_pos hk, if_pos ⟨rfl, premix⟩, busWidth_premix _ hk]
    · rw [if_neg fun h => same (Fin.ext (hk.symm.trans h)), if_neg fun h => same h.1]
  · rw [busWidth_stem _ stem, busWidth_stem _ stem, writeBus_eq, if_neg]
    · rfl
    · rintro ⟨rfl, premix⟩
      omega

theorem print_setPrint (b : BusNo) (on : Bool) (t : BusTable) (a : BusNo) :
    (setPrint b on t).busPrint a = if a = b ∧ 16 ≤ b.val then on else t.busPrint a := by
  unfold setPrint BusTable.busPrint
  rcases Nat.lt_or_ge b.val 16 with premix | stem
  · simp [premix, Nat.not_le.mpr premix]
  · simp only [Nat.not_lt.mpr stem, if_false, stem, and_true]
    by_cases same : a = b
    · subst same
      simp [Nat.not_lt.mpr stem]
    · rw [if_neg same]
      rcases Nat.lt_or_ge a.val 16 with premix | stem'
      · simp [premix]
      · have apart : b.val - 16 ≠ a.val - 16 := fun h => same (Fin.ext (by omega))
        simp only [Nat.not_lt.mpr stem', if_false]
        exact Vector.getElem_set_ne _ _ apart

theorem busPrint_writeBus (b a : BusNo) (c : BusChange) (t : BusTable) :
    (writeBus b c t).busPrint a = if a = b ∧ 16 ≤ b.val then c.print.getD (t.busPrint b) else t.busPrint a := by
  have still : t.busPrint a = if a = b ∧ 16 ≤ b.val then t.busPrint b else t.busPrint a := by
    split
    · next h => rw [h.1]
    · rfl
  unfold writeBus
  cases c.width with
  | none =>
    cases c.print with
    | none => exact still
    | some on => exact print_setPrint ..
  | some w =>
    dsimp only
    rw [setPremixWidth_eq]
    cases c.print with
    | none => exact still
    | some on => exact print_setPrint ..

/-! The cells and the bus after it -/

section Applied
variable (b : BusNo) (c : BusChange) (s : State)

theorem applyBus_busTable : (applyBus b c s).busTable = writeBus b c s.busTable := by rw [applyBus_eq]

theorem bus_applyBus (a : BusNo) :
    (applyBus b c s).bus a =
      if b = a then { s.bus a with gain := c.gain.getD (s.bus a).gain, mute := c.mute.getD (s.bus a).mute }
      else s.bus a := by
  rw [State.bus, applyBus_busTable, writeBus_bus]
  rfl

/-- What is handed to the gain cell: the bus table written, the strips retargeted where the width changed. -/
def widened : State :=
  if (writeBus b c s.busTable).busWidth b = s.busTable.busWidth b then { s with busTable := writeBus b c s.busTable }
  else retargetWhere (feedsBus b) { s with busTable := writeBus b c s.busTable }

theorem applyBus_widened : applyBus b c s = retargetGain b (widened b c s) := rfl

theorem widened_onlyCells : OnlyCells { s with busTable := writeBus b c s.busTable } (widened b c s) := by
  unfold widened
  split
  · exact .refl _
  · exact retargetWhere_onlyCells ..

theorem gainCells_applyBus (a : BusNo) :
    (applyBus b c s).engine.gainCells[a] =
      if b = a then (s.engine.gainCells[a]).retarget s.engine.rampLength ((applyBus b c s).bus a).gainTarget
      else s.engine.gainCells[a] := by
  have only := widened_onlyCells b c s
  have bus : (applyBus b c s).bus a = (widened b c s).bus a := by rw [applyBus_widened, retargetGain_bus]
  rw [bus, applyBus_widened, gainCells_retargetGain, only.engine]

theorem cells_applyBus (premix : c.width.isSome → b.val < 16) (n : StripNo) (k : Channel) :
    ((applyBus b c s).cells n)[k] =
      if (applyBus b c s).busTable.busWidth b = s.busTable.busWidth b ∨
          (∀ d : PremixNo, d.val = b.val → (s.strip n).dest ≠ .premix d) ∨
          ((s.cells n)[k]).target = (applyBus b c s).target n k then (s.cells n)[k]
      else
        { current := ((s.cells n)[k]).current, start := ((s.cells n)[k]).current,
          target := (applyBus b c s).target n k, length := s.engine.rampLength, step := 0 } := by
  have cells : (applyBus b c s).cells n = (widened b c s).cells n := rfl
  rw [cells, applyBus_busTable]
  by_cases same : (writeBus b c s.busTable).busWidth b = s.busTable.busWidth b
  · rw [if_pos (.inl same), widened, if_pos same]
    rfl
  · have chosen : c.width.isSome = true ∧ b.val < 16 := by
      rw [busWidth_writeBus] at same
      cases hw : c.width with
      | none => simp [hw] at same
      | some w => exact ⟨rfl, premix (by rw [hw]; rfl)⟩
    have target : (applyBus b c s).target n k = ({ s with busTable := writeBus b c s.busTable } : State).target n k := by
      have kept : (retargetGain b (widened b c s)).target n k = (widened b c s).target n k := rfl
      rw [applyBus_widened, kept, (widened_onlyCells b c s).target]
    rw [target, widened, if_neg same, cells_retargetWhere]
    change (if feedsBus b (s.strip n).dest = true then
      ((s.cells n)[k]).retarget s.engine.rampLength
        (({ s with busTable := writeBus b c s.busTable } : State).target n k) else (s.cells n)[k]) = _
    by_cases feeds : ∃ d : PremixNo, d.val = b.val ∧ (s.strip n).dest = .premix d
    · have some_feed : ¬∀ d : PremixNo, d.val = b.val → (s.strip n).dest ≠ .premix d := fun h =>
        feeds.elim fun d hd => h d hd.1 hd.2
      simp only [(feedsBus_premix chosen.2 _).mpr feeds, if_true, same, some_feed, false_or, Cell.retarget]
    · rw [if_neg fun h => feeds ((feedsBus_premix chosen.2 _).mp h),
        if_pos (.inr (.inl fun d hd dest => feeds ⟨d, hd, dest⟩))]

end Applied

/-- An accepted SET-BUS. -/
theorem exec_setBus {s : State} {p : PortId} {b : BusNo} {sel width mute print : Byte} (h : (s.port p).takes = true)
    (passed : setBusFailure p b sel width mute print s = none) (gain : BitVec 16) {v : State}
    (hv : v = applyBus b (busChange sel width gain mute print) (s.modPort p PortState.transacted)) :
    exec (.setBus p (BitVec.ofNat 8 b.val) sel width gain mute print) s =
      .next (({ v with ports := s.ports } : State).leaves p (reply 0x10 .ok (wBus v.busTable b))) := by
  rw [exec_setBus_arm, execSetBus]
  refine request_leaves_answered h (by rw [hv, applyBus_eq]) ?_
  rw [readIndex_busNo]
  dsimp only
  rw [setBusFailure_modPort, passed, ← hv]

/-- What a selected two-valued byte writes. -/
theorem selectedFlag_getD {chosen : Bool} {x : Byte} {on : Bool} (names : chosen = true → x = wFlag on) (old : Bool) :
    (if chosen then readFlag x else none).getD old = if chosen then on else old := by
  cases chosen with
  | false => rfl
  | true => simp [names rfl]

theorem selected_getD {α : Type} (chosen : Bool) (new old : α) :
    (selected chosen new).getD old = if chosen then new else old := by cases chosen <;> rfl

/-- Settles O40: the four checks in their order, and then `applyBus`. -/
theorem setBusWritesTheSelectedFields : Obligations.SetBusWritesTheSelectedFields := by
  intro p b bus sel width muteByte printByte gain mute print s h
  refine ⟨fun out => ?_, fun held => exec_setBus_refused h ?_ gain, fun free => ?_⟩
  · rw [exec_setBus_arm, execSetBus]
    refine request_leaves h rfl ?_
    rw [readIndex_none (by omega)]
  · rw [setBusFailure_eq, otherPort_true.mpr held, firstFailure_failIf_true]
  have open_ : otherPort p (s.bus b).holder = false := otherPort_false.mpr free
  refine ⟨fun bad => exec_setBus_refused h ?_ gain, fun wide muted printed => ?_⟩
  · rw [setBusFailure_eq, open_, setBusBad_iff.mpr bad, firstFailure_failIf_false, firstFailure_failIf_true]
  have good : setBusBad sel width muteByte printByte = false := by
    have flag : ∀ on : Bool, ¬1 < (wFlag on).toNat := by decide
    rw [← Bool.not_eq_true, setBusBad_iff]
    rintro (⟨chosen, out⟩ | ⟨chosen, out⟩ | ⟨chosen, out⟩)
    · exact out (wide chosen)
    · exact flag _ (muted chosen ▸ out)
    · exact flag _ (printed chosen ▸ out)
  refine ⟨fun misfit => exec_setBus_refused h ?_ gain, fun fits => ?_⟩
  · rw [setBusFailure_eq, open_, good, setBusMisfit_iff.mpr misfit, firstFailure_failIf_false,
      firstFailure_failIf_false, firstFailure_failIf_true]
  have premix : sel.getLsbD 0 = true → b.val < 16 := fun chosen => Nat.lt_of_not_le fun stem => fits (.inl ⟨chosen, stem⟩)
  have stem : sel.getLsbD 3 = true → 16 ≤ b.val := fun chosen => Nat.le_of_not_lt fun lt => fits (.inr ⟨chosen, lt⟩)
  rw [← setBusMisfit_iff, Bool.not_eq_true] at fits
  refine ⟨fun chosen narrower used => exec_setBus_refused h ?_ gain, fun unused => ?_⟩
  · rw [setBusFailure_eq, open_, good, fits, (setBusNarrows_iff premix).mpr ⟨chosen, narrower, used⟩,
      firstFailure_failIf_false, firstFailure_failIf_false, firstFailure_failIf_false, firstFailure_failIf_true]
  have passed : setBusFailure p b sel width muteByte printByte s = none := by
    have spared : setBusNarrows b sel width s = false := by
      rw [← Bool.not_eq_true, setBusNarrows_iff premix]
      rintro ⟨chosen, narrower, n, d, hd, dest, e, he, beyond⟩
      have := unused chosen narrower n d hd dest e he
      omega
    rw [setBusFailure_eq, open_, good, fits, spared]
    rfl
  obtain ⟨c, hc⟩ : ∃ c, c = busChange sel width gain muteByte printByte := ⟨_, rfl⟩
  obtain ⟨s', hs⟩ : ∃ s', s' = s.modPort p PortState.transacted := ⟨_, rfl⟩
  have kinds : c.width.isSome → b.val < 16 := by
    rw [hc, busChange_width]
    intro some_width
    refine premix ?_
    by_contra off
    rw [if_neg off] at some_width
    cases some_width
  have eq := applyBus_eq b c s'
  have table := applyBus_busTable b c s'
  have bus := bus_applyBus b c s'
  have gains := gainCells_applyBus b c s'
  have cells := cells_applyBus b c s' kinds
  obtain ⟨v, hv⟩ : ∃ v, v = applyBus b c s' := ⟨_, rfl⟩
  rw [← hv] at eq table bus gains cells
  have gain_read : c.gain.getD (s.bus b).gain = if sel.getLsbD 1 then gain.toNat else (s.bus b).gain := by
    rw [hc]; exact selected_getD ..
  have mute_read : c.mute.getD (s.bus b).mute = if sel.getLsbD 2 then mute else (s.bus b).mute := by
    rw [hc]; exact selectedFlag_getD muted _
  have width_read : v.busTable.busWidth b = if sel.getLsbD 0 then width.toNat else s.busTable.busWidth b := by
    rw [table, busWidth_writeBus, hs, hc, modPort_busTable, busChange_width]
    cases chosen : sel.getLsbD 0 with
    | false => simp
    | true => simp [premix chosen]
  have print_read : v.busTable.busPrint b = if sel.getLsbD 3 then print else s.busTable.busPrint b := by
    have written : c.print.getD (s.busTable.busPrint b) = if sel.getLsbD 3 then print else s.busTable.busPrint b := by
      rw [hc]; exact selectedFlag_getD printed _
    rw [table, busPrint_writeBus, hs, modPort_busTable, written]
    cases chosen : sel.getLsbD 3 with
    | false => simp
    | true => simp [stem chosen]
  have others : ∀ a, a ≠ b → v.bus a = s.bus a ∧ v.busTable.busPrint a = s.busTable.busPrint a ∧
      v.busTable.busWidth a = s.busTable.busWidth a ∧ v.engine.gainCells[a] = s.engine.gainCells[a] := by
    intro a other
    refine ⟨?_, ?_, ?_, ?_⟩
    · rw [bus, if_neg (Ne.symm other), hs, modPort_bus]
    · rw [table, busPrint_writeBus, if_neg fun e => other e.1, hs, modPort_busTable]
    · rw [table, busWidth_writeBus, if_neg fun e => other e.1, hs, modPort_busTable]
    · rw [gains, if_neg (Ne.symm other), hs, modPort_engine]
  refine ⟨({ v with ports := s.ports } : State).leaves p (reply 0x10 .ok (wBus v.busTable b)),
    exec_setBus h passed gain (by rw [hv, hc, hs]), ?_, width_read, print_read, others, ?_, ?_, ?_, ?_,
    otherPortsKept_leaves rfl _ _, ownPortKept_leaves rfl .., pendingSet_leaves rfl .., replySlot_leaves ..⟩
  · rw [← gain_read, ← mute_read]
    refine (bus b).trans ?_
    rw [if_pos rfl, hs, modPort_bus]
  · refine (gains b).trans ?_
    rw [if_pos rfl, hs]
    rfl
  · intro n k
    have read := cells n k
    rw [hs] at read
    exact read
  · rw [← table, hs] at eq
    conv_lhs => rw [eq]
    rfl
  · have read : v.busTable = { s.busTable with
        buses := v.busTable.buses, premixWidth := v.busTable.premixWidth, print := v.busTable.print } := by
      rw [table, writeBus_eq, hs]
      rfl
    exact read

end Sys2Proof.Machine

/-!
PROOFS. Requests that read or write a block without a walk: READ-CELLS, SET-RAMP (R40, R50), PATCH-SET, PATCH-READ and
LANE-READ (R160 to R162).
-/
namespace Sys2Proof.Machine

/-! ### Reads that answer a payload or a status -/

/-- The transaction of a request leaves the windows, so a surface number reaches the strip that it reached before. -/
theorem reach_transacted {s : State} {p : PortId} (h : (s.port p).takes = true) (k : Nat) :
    reach ((s.modPort p PortState.transacted).port p) k = reach (s.port p) k := by
  rw [port_transacted h]
  rfl

theorem reachForChange_transacted {s : State} {p : PortId} (h : (s.port p).takes = true) (k : Nat) :
    reachForChange ((s.modPort p PortState.transacted).port p) k = reachForChange (s.port p) k := by
  rw [port_transacted h]
  rfl

/-- A read that answers `l` leaves the reply alone. -/
theorem request_answerRead_ok {s : State} {p : PortId} {code : Byte} {l : List Byte}
    {f : State → Except Status (List Byte)} (h : (s.port p).takes = true)
    (hf : f (s.modPort p PortState.transacted) = .ok l) :
    request p (fun s => answerRead p code (f s) s) s = .next (s.leaves p (reply code .ok l)) :=
  request_leaves h rfl (by rw [hf, answerRead])

theorem request_answerRead_error {s : State} {p : PortId} {code : Byte} {st : Status}
    {f : State → Except Status (List Byte)} (h : (s.port p).takes = true)
    (hf : f (s.modPort p PortState.transacted) = .error st) :
    request p (fun s => answerRead p code (f s) s) s = .next (s.leaves p (reply code st [])) :=
  request_leaves h rfl (by rw [hf, answerRead])

/-! ### READ-CELLS and SET-RAMP (R40, R50) -/

theorem exec_readCells_arm (p : PortId) (kind number : Byte) (s : State) :
    exec (.readCells p kind number) s = execReadCells p kind number s := rfl

theorem exec_setRamp_arm (p : PortId) (length : BitVec 16) (s : State) :
    exec (.setRamp p length) s = execSetRamp p length s := rfl

theorem readObjectKind_none {kind : Byte} (h : 2 ≤ kind.toNat) : readObjectKind kind = none := by
  rw [readObjectKind]
  split
  · omega
  · omega
  · rfl

@[simp] theorem readObjectKind_strip : readObjectKind 0 = some .strip := rfl

@[simp] theorem readObjectKind_bus : readObjectKind 1 = some .bus := rfl

theorem rampFrom_eq (v : Nat) : rampFrom v = if v = 0 then 1 else if 1024 < v then 1024 else v := by
  have bound : Config.maxRamp = 1024 := rfl
  rw [rampFrom, bound]
  split
  · omega
  · split <;> omega

/-- Settles O30. -/
theorem readCellsAndSetRampAnswerTheRampLength : Obligations.ReadCellsAndSetRampAnswerTheRampLength := by
  intro p kind number length s h
  refine ⟨fun n reaches => ?_, fun b named => ?_, fun out => ?_, fun st fails => ?_, fun unknown => ?_, _, rfl, ?_⟩
  · rw [exec_readCells_arm, execReadCells]
    refine request_answerRead_ok h ?_
    rw [readCellsReply, readObjectKind_strip]
    dsimp only
    rw [reach_transacted h, reaches]
    simp [wCells]
    rfl
  · rw [exec_readCells_arm, execReadCells]
    refine request_answerRead_ok h ?_
    rw [readCellsReply, readObjectKind_bus]
    dsimp only
    rw [readIndex_some named]
    simp [wCells]
    rfl
  · rw [exec_readCells_arm, execReadCells]
    refine request_answerRead_error h ?_
    rw [readCellsReply, readObjectKind_bus]
    dsimp only
    rw [readIndex_none out]
  · rw [exec_readCells_arm, execReadCells]
    refine request_answerRead_error h ?_
    rw [readCellsReply, readObjectKind_strip]
    dsimp only
    rw [reach_transacted h, fails]
  · rw [exec_readCells_arm, execReadCells]
    refine request_answerRead_error h ?_
    rw [readCellsReply, readObjectKind_none unknown]
  · rw [exec_setRamp_arm, execSetRamp, ← rampFrom_eq]
    exact request_leaves h rfl rfl

/-! ### The output patch (R157, R160, R161) -/

theorem exec_patchSet_arm (p : PortId) (first : Byte) (fields : List PatchField) (s : State) :
    exec (.patchSet p first fields) s = execPatchSet p first fields s := rfl

theorem exec_patchRead_arm (p : PortId) (first count : Byte) (s : State) :
    exec (.patchRead p first count) s = execPatchRead p first count s := rfl

theorem exec_laneRead_arm (p : PortId) (s : State) : exec (.laneRead p) s = execLaneRead p s := rfl

theorem fitsFrame_patch (n : Nat) : fitsFrame (patchPayload n) = true ↔ n ≤ 254 := by
  have bound : fitsFrame (patchPayload n) = decide (4 + (2 + 4 * n) ≤ 1024) := rfl
  rw [bound, decide_eq_true_eq]
  omega

theorem readPatchEntries_some {fields : List PatchField} {entries : List PatchEntry}
    (h : fields.map readPatch = entries.map some) : readPatchEntries fields = some entries := by
  induction fields generalizing entries with
  | nil =>
    cases entries with
    | nil => rfl
    | cons e rest => cases h
  | cons f rest ih =>
    cases entries with
    | nil => cases h
    | cons e others =>
      simp only [List.map_cons, List.cons.injEq] at h
      rw [readPatchEntries, h.1, ih h.2]

theorem readPatchEntries_none {fields : List PatchField} (h : ∃ e ∈ fields, readPatch e = none) :
    readPatchEntries fields = none := by
  induction fields with
  | nil => simp at h
  | cons f rest ih =>
    cases hf : readPatch f with
    | none => rw [readPatchEntries, hf]
    | some a =>
      have later : ∃ e ∈ rest, readPatch e = none := by
        obtain ⟨e, he, bad⟩ := h
        rcases List.mem_cons.mp he with rfl | he
        · rw [hf] at bad; cases bad
        · exact ⟨e, he, bad⟩
      rw [readPatchEntries, hf, ih later]

/-- A run of entries is written from its first number on, as far as it reaches. -/
theorem writePatch_get (first : Nat) (entries : List PatchEntry) (v : Vector PatchEntry 128) (i : Fin 128) :
    (writePatch first entries v)[i] =
      if first ≤ i.val then (entries[i.val - first]?).getD v[i] else v[i] := by
  induction entries generalizing first v with
  | nil => simp [writePatch]
  | cons e rest ih =>
    rw [writePatch, ih]
    rcases Nat.lt_trichotomy i.val first with before | here | after
    · have apart : first ≠ i.val := by omega
      simp [Nat.not_le.mpr before, show ¬first + 1 ≤ i.val by omega, apart]
    · subst here
      simp
    · obtain ⟨k, hk⟩ : ∃ k, i.val - first = k + 1 := ⟨i.val - first - 1, by omega⟩
      have next : i.val - (first + 1) = k := by omega
      have apart : first ≠ i.val := by omega
      simp [show first + 1 ≤ i.val from after, show first ≤ i.val by omega, hk, next, apart]

theorem patchChecked_none {first : Byte} {fields : List PatchField}
    (h : ¬(1 ≤ fields.length ∧ fields.length ≤ 16 ∧ first.toNat + fields.length ≤ 128) ∨
      (∃ e ∈ fields, readPatch e = none)) : patchChecked first fields = none := by
  rw [patchChecked]
  split
  · next inside => exact readPatchEntries_none (h.resolve_left (not_not.mpr inside))
  · rfl

/-- The entries of a run that stays in the patch. -/
theorem wPatches_run {first count : Byte} (inside : first.toNat + count.toNat ≤ 128) (patch : Vector PatchEntry 128) :
    wPatches patch first.toNat count.toNat =
      count :: ((List.finRange 128).filter fun i =>
          first.toNat ≤ i.val && i.val < first.toNat + count.toNat).flatMap fun i =>
        BitVec.ofNat 8 i.val :: wPatch patch[i] := by
  have run : List.range' first.toNat count.toNat =
      ((List.finRange 128).filter fun i => first.toNat ≤ i.val && i.val < first.toNat + count.toNat).map Fin.val := by
    have hmap : ((List.finRange 128).filter fun i =>
          first.toNat ≤ i.val && i.val < first.toNat + count.toNat).map Fin.val =
        (List.range 128).filter fun i => first.toNat ≤ i && i < first.toNat + count.toNat := by
      rw [← List.map_coe_finRange_eq_range, List.filter_map]
      rfl
    rw [hmap, ← List.filter_filter, ← List.Ico.zero_bot, List.Ico.filter_lt, List.Ico.filter_le]
    simp only [List.Ico, min_eq_right inside, Nat.zero_max, Nat.add_sub_cancel_left]
  rw [wPatches, run, List.flatMap_map]
  simp [w1]

theorem wLanes_length (a : Audio) : (wLanes a).length = 22 := by
  have rows : (a.lanes.toList.flatMap fun l => [wFlag l.up, w1 l.markers]).length = 16 := by
    simp [List.length_flatMap]
  simp only [wLanes, List.length_append, rows]
  rfl

theorem wFlag_eq (b : Bool) : wFlag b = if b then 1 else 0 := by cases b <;> rfl

/-- The items of LANE-READ. -/
theorem wLanes_eq (a : Audio) :
    wLanes a =
      [if a.rate = .k48 then 48 else 96, if a.locked then 1 else 0, BitVec.ofNat 8 a.lockCount,
          BitVec.ofNat 8 a.missing] ++
        a.lanes.toList.flatMap (fun l => [if l.up then 1 else 0, BitVec.ofNat 8 l.markers]) ++
        [if a.locked then 0 else 1, if ∃ l : LaneNo, a.lanes[l].up = false then 1 else 0] := by
  have safe0 : wFlag a.trigger0 = if a.locked then 0 else 1 := by
    rw [Audio.trigger0]
    cases a.locked <;> rfl
  have safe1 : wFlag a.trigger1 = if ∃ l : LaneNo, a.lanes[l].up = false then 1 else 0 := by
    simp only [wFlag_eq, trigger1_iff]
  rw [wLanes, w1_kiloHertz, safe0, safe1]
  simp only [wFlag_eq, w1]

/-- Settles O57. -/
theorem patchAndLaneRequestsAnswerTheirRuns : Obligations.PatchAndLaneRequestsAnswerTheirRuns := by
  intro p first count fields entries s h
  refine ⟨fun one sixteen inside reads => ?_, fun frame bad => ?_, fun long => ?_, fun one sixteen inside => ?_,
    fun out => ?_, ?_, wLanes_length _⟩
  · have checked : patchChecked first fields = some entries := by
      rw [patchChecked, if_pos ⟨one, sixteen, inside⟩, readPatchEntries_some reads]
    obtain ⟨patch, hpatch⟩ : ∃ patch, patch = writePatch first.toNat entries s.audio.patch := ⟨_, rfl⟩
    obtain ⟨r, hr⟩ : ∃ r, r = reply 0x50 .ok (wPatches patch first.toNat entries.length) := ⟨_, rfl⟩
    obtain ⟨u, hu⟩ : ∃ u : State, u = { s with audio := { s.audio with patch := patch } } := ⟨_, rfl⟩
    have slot : ((u.leaves p r).port p).replySlot = r := replySlot_leaves ..
    have audio : (u.leaves p r).audio.patch = patch := by rw [hu]; rfl
    refine ⟨u.leaves p r, ?_, fun i => ?_, ?_, by rw [slot, audio, hr]⟩
    · rw [exec_patchSet_arm, execPatchSet, hr]
      refine request_leaves h (by rw [hu]) ?_
      rw [if_pos ((fitsFrame_patch _).mpr (by omega)), checked, hu, hpatch]
      rfl
    · rw [audio, hpatch]
      exact writePatch_get ..
    · rw [slot, audio, hu]
  · rw [exec_patchSet_arm, execPatchSet]
    refine request_leaves h rfl ?_
    rw [if_pos ((fitsFrame_patch _).mpr frame), patchChecked_none bad]
  · rw [exec_patchSet_arm, execPatchSet]
    refine request_leaves h rfl ?_
    rw [if_neg (by rw [fitsFrame_patch]; omega)]
  · rw [exec_patchRead_arm, execPatchRead, ← wPatches_run inside]
    refine request_answerRead_ok h ?_
    simp only [patchReadReply, (countOk_iff count).mpr ⟨one, sixteen⟩, inside, decide_true, Bool.and_self, if_true]
    rfl
  · rw [exec_patchRead_arm, execPatchRead]
    refine request_answerRead_error h ?_
    have bad : ¬((countOk count && decide (first.toNat + count.toNat ≤ 128)) = true) := by
      simpa [countOk_iff, and_assoc] using out
    rw [patchReadReply, if_neg bad]
  · rw [exec_laneRead_arm, execLaneRead, ← wLanes_eq]
    exact request_leaves h rfl rfl

end Sys2Proof.Machine

/-!
PROOFS. Claims, releases of buses and strips, watches and signals (R74 to R77, R82 to R87).
-/
namespace Sys2Proof.Machine

/-! ### Watches and signals (R83, R85 to R87) -/

theorem exec_watchAdd_arm (p : PortId) (surface : Byte) (s : State) :
    exec (.watchAdd p surface) s = execWatchAdd p surface s := rfl

theorem exec_watchRemove_arm (p : PortId) (surface : Byte) (s : State) :
    exec (.watchRemove p surface) s = execWatchRemove p surface s := rfl

theorem exec_watchRead_arm (p : PortId) (s : State) : exec (.watchRead p) s = execWatchRead p s := rfl

theorem exec_signal_arm (p : PortId) (target flag : Byte) (s : State) :
    exec (.signal p target flag) s = execSignal p target flag s := rfl

theorem exec_clearSignal_arm (p : PortId) (set : Byte) (s : State) :
    exec (.clearSignal p set) s = execClearSignal p set s := rfl

/-- Changes of two ports are made in either order. -/
theorem modPort_comm {p q : PortId} (h : q ≠ p) (f g : PortState → PortState) (s : State) :
    (s.modPort p f).modPort q g = (s.modPort q g).modPort p f := by
  have ports : upd (upd s.ports p f) q g = upd (upd s.ports q g) p f := by
    refine Vector.ext fun i hi => ?_
    simp only [upd_getElem]
    by_cases hp : p.val = i
    · have hq : q.val ≠ i := fun e => h (Fin.ext (e.trans hp.symm))
      simp [hp, hq]
    · simp [hp]
  simp only [State.modPort, ports]

/-- A request that updates another port and answers, leaves the update with the reply. -/
theorem request_modOther_leaves {s : State} {p q : PortId} {f : State → State} {g : PortState → PortState} {code : Byte}
    {st : Status} {l : List Byte} (h : (s.port p).takes = true) (other : q ≠ p)
    (hf : f (s.modPort p PortState.transacted) =
      answer p code st l ((s.modPort p PortState.transacted).modPort q g)) :
    request p f s = .next ((s.modPort q g).leaves p (reply code st l)) := by
  have takes : ((s.modPort q g).port p).takes = true := by rw [port_modPort_ne _ _ (Ne.symm other)]; exact h
  rw [request_taken h, hf, modPort_comm other, answer_transacted takes]

theorem watches_transacted {s : State} {p : PortId} (h : (s.port p).takes = true) :
    ((s.modPort p PortState.transacted).port p).watches = (s.port p).watches := by rw [port_transacted h]

theorem addWatch_duplicate {n : StripNo} {l : List Watch} (h : ∃ w ∈ l, w.strip = n) : addWatch n l = .error .duplicate := by
  have named : (l.any fun w => decide (w.strip = n)) = true := by simpa using h
  rw [addWatch, if_pos named]

theorem addWatch_full {n : StripNo} {l : List Watch} (fresh : ∀ w ∈ l, w.strip ≠ n) (full : 4 ≤ l.length) :
    addWatch n l = .error .full := by
  have unnamed : ¬(l.any fun w => decide (w.strip = n)) = true := by simpa using fresh
  have size : Config.watchSize ≤ l.length := full
  rw [addWatch, if_neg unnamed, if_pos size]

theorem addWatch_room {n : StripNo} {l : List Watch} (fresh : ∀ w ∈ l, w.strip ≠ n) (room : l.length < 4) :
    addWatch n l = .ok (l ++ [{ strip := n, hit := false, mover := none }]) := by
  have unnamed : ¬(l.any fun w => decide (w.strip = n)) = true := by simpa using fresh
  have size : ¬Config.watchSize ≤ l.length := Nat.not_le.mpr room
  rw [addWatch, if_neg unnamed, if_neg size]

/-- A port whose watch list is replaced by `f` of it. -/
def PortState.rewatched (f : List Watch → List Watch) (q : PortState) : PortState := { q with watches := f q.watches }

/-- A request that replaces the requester's watch list and answers. -/
theorem request_rewatched {s : State} {p : PortId} {f : State → State} {g : List Watch → List Watch} {code : Byte}
    {st : Status} {l : List Byte} (h : (s.port p).takes = true)
    (hf : f (s.modPort p PortState.transacted) =
      answer p code st l (setWatches p (g (s.port p).watches) (s.modPort p PortState.transacted))) :
    request p f s = .next ((s.modPort p (PortState.rewatched g)).leaves p (reply code st l)) := by
  refine request_modPort_leaves h (g := PortState.rewatched g) (fun _ _ _ _ => rfl) (hf.trans ?_)
  rw [setWatches]
  refine congrArg _ (modPort_congr ?_)
  rw [PortState.rewatched, watches_transacted h]

theorem exec_watchAdd_failed {s : State} {p : PortId} {surface : Byte} {st : Status} (h : (s.port p).takes = true)
    (fails : reach (s.port p) surface.toNat = .error st ∨
      ∃ n, reach (s.port p) surface.toNat = .ok n ∧ addWatch n (s.port p).watches = .error st) :
    exec (.watchAdd p surface) s = .next (s.leaves p (reply 0x25 st [BitVec.ofNat 8 (s.port p).watches.length])) := by
  rw [exec_watchAdd_arm, execWatchAdd]
  refine request_leaves h rfl ?_
  dsimp only
  rw [reach_transacted h]
  rcases fails with failed | ⟨n, reached, refused⟩
  · rw [failed]
    dsimp only
    rw [wWatchCount, watches_transacted h, w1]
  · rw [reached]
    dsimp only
    rw [watches_transacted h, refused]
    dsimp only
    rw [wWatchCount, watches_transacted h, w1]

theorem exec_watchAdd {s : State} {p : PortId} {surface : Byte} {n : StripNo} (h : (s.port p).takes = true)
    (reached : reach (s.port p) surface.toNat = .ok n) (fresh : ∀ w ∈ (s.port p).watches, w.strip ≠ n)
    (room : (s.port p).watches.length < 4) :
    exec (.watchAdd p surface) s =
      .next ((s.modPort p (PortState.rewatched fun l => l ++ [{ strip := n, hit := false, mover := none }])).leaves p
        (reply 0x25 .ok [BitVec.ofNat 8 ((s.port p).watches.length + 1)])) := by
  rw [exec_watchAdd_arm, execWatchAdd]
  refine request_rewatched h ?_
  dsimp only
  rw [reach_transacted h, reached]
  dsimp only
  rw [watches_transacted h, addWatch_room fresh room]
  dsimp only
  rw [wWatchCount, setWatches, port_modPort_self, List.length_append, w1]
  rfl

theorem exec_watchRemove_failed {s : State} {p : PortId} {surface : Byte} {st : Status} (h : (s.port p).takes = true)
    (failed : reach (s.port p) surface.toNat = .error st) :
    exec (.watchRemove p surface) s =
      .next (s.leaves p (reply 0x26 st [BitVec.ofNat 8 (s.port p).watches.length])) := by
  rw [exec_watchRemove_arm, execWatchRemove]
  refine request_leaves h rfl ?_
  dsimp only
  rw [reach_transacted h, failed]
  dsimp only
  rw [wWatchCount, watches_transacted h, w1]

theorem exec_watchRemove {s : State} {p : PortId} {surface : Byte} {n : StripNo} (h : (s.port p).takes = true)
    (reached : reach (s.port p) surface.toNat = .ok n) :
    exec (.watchRemove p surface) s =
      .next ((s.modPort p (PortState.rewatched fun l => l.filter fun w => w.strip ≠ n)).leaves p
        (reply 0x26 .ok [BitVec.ofNat 8 ((s.port p).watches.countP fun w => w.strip ≠ n)])) := by
  rw [exec_watchRemove_arm, execWatchRemove]
  refine request_rewatched h ?_
  dsimp only
  rw [reach_transacted h, reached]
  dsimp only
  rw [watches_transacted h, wWatchCount, setWatches, port_modPort_self, List.countP_eq_length_filter, w1]

theorem exec_watchRead {s : State} {p : PortId} (h : (s.port p).takes = true) :
    exec (.watchRead p) s =
      .next ((s.modPort p (PortState.rewatched fun l =>
          l.map fun w => { strip := w.strip, hit := false, mover := none })).leaves p
        (reply 0x27 .ok (BitVec.ofNat 8 (s.port p).watches.length :: (s.port p).watches.flatMap wWatch))) := by
  rw [exec_watchRead_arm, execWatchRead]
  refine request_rewatched h ?_
  dsimp only
  rw [watches_transacted h, w1]

theorem wWatch_eq (w : Watch) :
    wWatch w = [BitVec.ofNat 8 w.strip.val, if w.hit then 1 else 0,
      match w.mover with
      | some h => BitVec.ofNat 8 h.val
      | none => 0xFF] := by
  rw [wWatch, wFlag_eq]
  cases w.mover <;> rfl

theorem readIndex_portId (q : PortId) : readIndex 4 (BitVec.ofNat 8 q.val) = some q := readIndex_some (by simp; omega)

theorem signalChecked_unread {p : PortId} {target flag : Byte} (h : 3 < target.toNat ∨ 3 < flag.toNat) (s : State) :
    signalChecked p target flag s = .error .range := by
  rw [signalChecked]
  rcases h with high | high
  · rw [readIndex_none (by omega : 4 ≤ target.toNat)]
  · rw [readIndex_none (by omega : 4 ≤ flag.toNat)]
    cases readIndex 4 target <;> rfl

theorem signalChecked_eq (p q : PortId) (f : Fin 4) (s : State) :
    signalChecked p (BitVec.ofNat 8 q.val) (BitVec.ofNat 8 f.val) s =
      if q = p then .error .self else if !(s.port q).attached then .error .absent else .ok (q, f) := by
  rw [signalChecked, readIndex_portId, readIndex_some (i := f) (by simp; omega)]

theorem exec_signal_failed {s : State} {p : PortId} {target flag : Byte} {st : Status} (h : (s.port p).takes = true)
    (failed : signalChecked p target flag (s.modPort p PortState.transacted) = .error st) :
    exec (.signal p target flag) s = .next (s.leaves p (reply 0x28 st [])) := by
  rw [exec_signal_arm, execSignal]
  refine request_leaves h rfl ?_
  rw [failed]

/-- A port that a SIGNAL has reached (R86). -/
def PortState.signalled (f : Fin 4) (q : PortState) : PortState :=
  { q with signals := q.signals.set f true, pendingSet := q.pendingSet ||| 0x002#12 }

theorem exec_signal {s : State} {p q : PortId} (h : (s.port p).takes = true) (other : q ≠ p)
    (attached : (s.port q).attached = true) (f : Fin 4) :
    exec (.signal p (BitVec.ofNat 8 q.val) (BitVec.ofNat 8 f.val)) s =
      .next ((s.modPort q (PortState.signalled f)).leaves p (reply 0x28 .ok [])) := by
  rw [exec_signal_arm, execSignal]
  refine request_modOther_leaves h other ?_
  rw [signalChecked_eq, if_neg other, port_modPort_ne _ _ other, attached]
  simp only [Bool.not_true, Bool.false_eq_true, if_false]
  rw [raiseAt, modPort_modPort]
  refine congrArg _ (modPort_congr ?_)
  rw [port_modPort_ne _ _ other, raised_eq]
  dsimp only
  rw [if_pos attached]
  rfl

/-- The requester's flags but for those selected. -/
def clearedSignals (set : Byte) (v : Vector Bool 4) : Vector Bool 4 := Vector.ofFn fun i => v[i] && !set.getLsbD i.val

theorem exec_clearSignal {s : State} {p : PortId} (h : (s.port p).takes = true) (set : Byte) :
    exec (.clearSignal p set) s =
      .next ((s.modPort p fun q => { q with signals := clearedSignals set (s.port p).signals }).leaves p
        (reply 0x29 .ok [(BitVec.ofBoolListLE (clearedSignals set (s.port p).signals).toList).setWidth 8])) := by
  rw [exec_clearSignal_arm, execClearSignal]
  refine request_modPort_leaves h (fun _ _ _ _ => rfl) ?_
  dsimp only
  rw [port_transacted h]
  rfl

/-- Settles O46. -/
theorem watchAndSignalRequestsKeepTheirLists : Obligations.WatchAndSignalRequestsKeepTheirLists := by
  intro p q f surface set target flag n s h
  refine ⟨fun st fails => ⟨exec_watchAdd_failed h (.inl fails), exec_watchRemove_failed h fails⟩,
    fun out => exec_signal_failed h (signalChecked_unread out _), fun reached => ⟨fun named => ?_, fun fresh => ⟨fun full => ?_,
    exec_watchAdd h reached fresh⟩, exec_watchRemove h reached⟩, ?_, exec_signal_failed h ?_, fun other absent =>
    exec_signal_failed h ?_, fun other attached => exec_signal h other attached f, _, exec_clearSignal h set,
    fun i => ?_, rfl, fun q other => ?_, _, rfl, ?_⟩
  · exact exec_watchAdd_failed h (.inr ⟨n, reached, addWatch_duplicate named⟩)
  · exact exec_watchAdd_failed h (.inr ⟨n, reached, addWatch_full fresh full⟩)
  · rw [exec_watchRead h]
    simp only [funext wWatch_eq]
    rfl
  · rw [signalChecked_eq, if_pos rfl]
  · rw [signalChecked_eq, if_neg other, port_modPort_ne _ _ other, absent]
    rfl
  · rw [leaves_port_self, port_modPort_self]
    simp [PortState.left, clearedSignals]
  · rw [State.leaves, port_modPort_ne _ _ other, port_modPort_ne _ _ other]
  · rw [leaves_port_self, port_modPort_self]
    rfl

/-! ### Runs of objects (R75) -/

/-- The first position of a run that does not translate. -/
theorem reachRun_error {q : PortState} {kind : ObjectKind} {l : List Nat} {i n : Nat} {st : Status} (m : Nat)
    (at_i : l[i]? = some n) (fails : reachObject q kind true n = .error st)
    (before : ∀ j < i, ∀ k, l[j]? = some k → ∃ o, reachObject q kind true k = .ok o) :
    reachRun q kind m l = .error (st, m + i) := by
  induction l generalizing i m with
  | nil => simp at at_i
  | cons k rest ih =>
    cases i with
    | zero =>
      simp only [List.getElem?_cons_zero, Option.some.injEq] at at_i
      rw [reachRun, at_i, fails]
      rfl
    | succ i =>
      obtain ⟨o, ho⟩ := before 0 (by omega) k rfl
      rw [reachRun, ho]
      dsimp only
      rw [ih (m + 1) at_i fun j hj k' hk => before (j + 1) (by omega) k' hk]
      dsimp only
      rw [Nat.add_right_comm, Nat.add_assoc]

/-- A run that translates whole. -/
theorem reachRun_ok {q : PortState} {kind : ObjectKind} {l : List Nat} (m : Nat)
    (all : ∀ n ∈ l, ∃ o, reachObject q kind true n = .ok o) :
    ∃ os, reachRun q kind m l = .ok os ∧ List.Forall₂ (fun n o => reachObject q kind true n = .ok o) l os := by
  induction l generalizing m with
  | nil => exact ⟨[], rfl, .nil⟩
  | cons n rest ih =>
    obtain ⟨o, ho⟩ := all n (by simp)
    obtain ⟨os, run, each⟩ := ih (m + 1) fun k hk => all k (List.mem_cons_of_mem n hk)
    exact ⟨o :: os, by rw [reachRun, ho]; dsimp only; rw [run], .cons ho each⟩

/-- The first object of a run whose field names another port. -/
theorem firstConflict_some {p q : PortId} {field : Object → Option PortId} {os : List Object} {i : Nat} {o : Object}
    (m : Nat) (at_i : os[i]? = some o) (named : field o = some q) (other : q ≠ p)
    (before : ∀ j < i, ∀ o', os[j]? = some o' → field o' = none ∨ field o' = some p) :
    firstConflict p field m os = some (m + i, o, q) := by
  induction os generalizing i m with
  | nil => simp at at_i
  | cons a rest ih =>
    cases i with
    | zero =>
      simp only [List.getElem?_cons_zero, Option.some.injEq] at at_i
      rw [firstConflict, at_i, named]
      dsimp only
      rw [if_neg other, Nat.add_zero]
    | succ i =>
      have later := ih (m + 1) at_i fun j hj o' ho => before (j + 1) (by omega) o' ho
      rw [Nat.add_assoc, Nat.add_comm 1] at later
      rw [firstConflict]
      rcases before 0 (by omega) a rfl with free | mine
      · rw [free]
        exact later
      · rw [mine]
        dsimp only
        rw [if_pos rfl]
        exact later

theorem firstConflict_of_free {p : PortId} {field : Object → Option PortId} {os : List Object} (m : Nat)
    (free : ∀ o ∈ os, field o = none ∨ field o = some p) : firstConflict p field m os = none := by
  induction os generalizing m with
  | nil => rfl
  | cons a rest ih =>
    have later := ih (m + 1) fun o ho => free o (List.mem_cons_of_mem a ho)
    rw [firstConflict]
    rcases free a (by simp) with none_held | mine
    · rw [none_held]
      exact later
    · rw [mine]
      dsimp only
      rw [if_pos rfl]
      exact later

/-- Holding every object of a list, object by object: its strips. -/
theorem strip_holdAll (h : Option PortId) (os : List Object) (s : State) (m : StripNo) :
    (holdAll h os s).strip m = { s.strip m with holder := if .strip m ∈ os then h else (s.strip m).holder } := by
  induction os generalizing s with
  | nil => simp [holdAll]
  | cons o rest ih =>
    have step : holdAll h (o :: rest) s = holdAll h rest (setHolder h o s) := rfl
    rw [step, ih]
    cases o with
    | bus b => simp [setHolder]
    | strip n =>
      simp only [setHolder, strip_modStrip, List.mem_cons, Object.strip.injEq]
      by_cases here : n = m
      · subst here; simp
      · simp [here, Ne.symm here]

/-- Holding every object of a list: its buses. -/
theorem bus_holdAll (h : Option PortId) (os : List Object) (s : State) (a : BusNo) :
    (holdAll h os s).bus a = { s.bus a with holder := if .bus a ∈ os then h else (s.bus a).holder } := by
  induction os generalizing s with
  | nil => simp [holdAll]
  | cons o rest ih =>
    have step : holdAll h (o :: rest) s = holdAll h rest (setHolder h o s) := rfl
    rw [step, ih]
    cases o with
    | strip n => simp [setHolder]
    | bus b =>
      simp only [setHolder, bus_modBus, List.mem_cons, Object.bus.injEq]
      by_cases here : b = a
      · subst here; simp
      · simp [here, Ne.symm here]

/-- Holding strips writes strips alone. -/
theorem holdAll_strips_eq {h : Option PortId} {os : List Object} (kind : ∀ o ∈ os, ∃ n, o = .strip n) (s : State) :
    holdAll h os s = { s with strips := (holdAll h os s).strips } := by
  induction os generalizing s with
  | nil => rfl
  | cons o rest ih =>
    obtain ⟨n, rfl⟩ := kind o (by simp)
    exact ih (fun o ho => kind o (List.mem_cons_of_mem _ ho)) (setHolder h (.strip n) s)

/-- Holding buses writes buses alone. -/
theorem holdAll_buses_eq {h : Option PortId} {os : List Object} (kind : ∀ o ∈ os, ∃ b, o = .bus b) (s : State) :
    holdAll h os s = { s with busTable := { s.busTable with buses := (holdAll h os s).busTable.buses } } := by
  induction os generalizing s with
  | nil => rfl
  | cons o rest ih =>
    obtain ⟨b, rfl⟩ := kind o (by simp)
    exact ih (fun o ho => kind o (List.mem_cons_of_mem _ ho)) (setHolder h (.bus b) s)

/-! ### CLAIM (R75, R76) -/

theorem exec_claim_arm (p : PortId) (kind first count : Byte) (s : State) :
    exec (.claim p kind first count) s = execClaim p kind first count s := rfl

theorem exec_claim_failed {s : State} {p : PortId} {kind first count : Byte} {st : Status} {items : List Byte}
    (h : (s.port p).takes = true)
    (failed : claimChecked p kind first count (s.modPort p PortState.transacted) = .error (st, items)) :
    exec (.claim p kind first count) s = .next (s.leaves p (reply 0x20 st items)) := by
  rw [exec_claim_arm, execClaim]
  refine request_leaves h rfl ?_
  rw [failed]

section Runs
variable {p : PortId} {first count : Byte} {s : State}

theorem runNumbers_get {j : Nat} (h : j < count.toNat) : (runNumbers first count)[j]? = some (first.toNat + j) := by
  simp [runNumbers, h]

theorem mem_runNumbers {k : Nat} : k ∈ runNumbers first count ↔ ∃ j < count.toNat, k = first.toNat + j := by
  simp only [runNumbers, List.mem_range'_1]
  exact ⟨fun ⟨low, high⟩ => ⟨k - first.toNat, by omega, by omega⟩, fun ⟨j, hj, e⟩ => by omega⟩

theorem runNumbers_length : (runNumbers first count).length = count.toNat := by simp [runNumbers]

/-- The checks of a CLAIM whose run is well formed (R75). -/
theorem claimChecked_run {k : ObjectKind} {kind : Byte} (named : readObjectKind kind = some k)
    (run : runFailure (some k) first count = false) :
    claimChecked p kind first count s =
      match reachRun (s.port p) k 0 (runNumbers first count) with
      | .error (st, i) => .error (st, [w1 i])
      | .ok os => match firstConflict p s.holderOf 0 os with
        | some (i, o, q) => .error (.held, [w1 i, w1 o.number, w1 q.val])
        | none => match firstConflict p s.toucherOf 0 os with
          | some (i, o, q) => .error (.touched, [w1 i, w1 o.number, w1 q.val])
          | none => .ok os := by
  rw [claimChecked, named, run]
  rfl

theorem claimChecked_range {kind : Byte} (run : runFailure (readObjectKind kind) first count = true) :
    claimChecked p kind first count s = .error (.range, [0xFF]) := by
  rw [claimChecked, if_pos run]

theorem claimChecked_unreached {k : ObjectKind} {kind : Byte} {i : Nat} {st : Status}
    (named : readObjectKind kind = some k) (run : runFailure (some k) first count = false)
    (reached : reachRun (s.port p) k 0 (runNumbers first count) = .error (st, i)) :
    claimChecked p kind first count s = .error (st, [w1 i]) := by rw [claimChecked_run named run, reached]

theorem claimChecked_held {k : ObjectKind} {kind : Byte} {i : Nat} {o : Object} {q : PortId} {os : List Object}
    (named : readObjectKind kind = some k) (run : runFailure (some k) first count = false)
    (reached : reachRun (s.port p) k 0 (runNumbers first count) = .ok os)
    (held : firstConflict p s.holderOf 0 os = some (i, o, q)) :
    claimChecked p kind first count s = .error (.held, [w1 i, w1 o.number, w1 q.val]) := by
  rw [claimChecked_run named run, reached]
  dsimp only
  rw [held]

theorem claimChecked_touched {k : ObjectKind} {kind : Byte} {i : Nat} {o : Object} {q : PortId} {os : List Object}
    (named : readObjectKind kind = some k) (run : runFailure (some k) first count = false)
    (reached : reachRun (s.port p) k 0 (runNumbers first count) = .ok os)
    (unheld : firstConflict p s.holderOf 0 os = none) (touched : firstConflict p s.toucherOf 0 os = some (i, o, q)) :
    claimChecked p kind first count s = .error (.touched, [w1 i, w1 o.number, w1 q.val]) := by
  rw [claimChecked_run named run, reached]
  dsimp only
  rw [unheld]
  dsimp only
  rw [touched]

theorem claimChecked_ok {k : ObjectKind} {kind : Byte} {os : List Object}
    (named : readObjectKind kind = some k) (run : runFailure (some k) first count = false)
    (reached : reachRun (s.port p) k 0 (runNumbers first count) = .ok os)
    (unheld : firstConflict p s.holderOf 0 os = none) (untouched : firstConflict p s.toucherOf 0 os = none) :
    claimChecked p kind first count s = .ok os := by
  rw [claimChecked_run named run, reached]
  dsimp only
  rw [unheld]
  dsimp only
  rw [untouched]

end Runs

/-- The strips that a run of surface numbers reaches, one object for each position. -/
theorem reachObject_strip {q : PortState} {n : Nat} {o : Object} :
    reachObject q .strip true n = .ok o ↔ ∃ m, o = .strip m ∧ reachForChange q n = .ok m := by
  rw [reachObject]
  simp only [if_true]
  cases reachForChange q n with
  | error st => simp
  | ok k => simp [eq_comm]

theorem reachObject_bus {q : PortState} {change : Bool} {n : Nat} {o : Object} :
    reachObject q .bus change n = .ok o ↔ ∃ b : BusNo, o = .bus b ∧ b.val = n := by
  rw [reachObject]
  split
  · next lt =>
    simp only [Except.ok.injEq]
    exact ⟨fun e => ⟨⟨n, lt⟩, e.symm, rfl⟩, fun ⟨b, ho, hb⟩ => by subst hb; exact ho.symm⟩
  · next ge =>
    simp only [reduceCtorEq, false_iff, not_exists, not_and]
    rintro b - hb
    omega

theorem reachObject_transacted {s : State} {p : PortId} (h : (s.port p).takes = true) (kind : ObjectKind) (change : Bool)
    (n : Nat) :
    reachObject ((s.modPort p PortState.transacted).port p) kind change n = reachObject (s.port p) kind change n := by
  rw [port_transacted h]
  rfl

theorem reachRun_transacted {s : State} {p : PortId} (h : (s.port p).takes = true) (kind : ObjectKind) (m : Nat)
    (l : List Nat) : reachRun ((s.modPort p PortState.transacted).port p) kind m l = reachRun (s.port p) kind m l := by
  induction l generalizing m with
  | nil => rfl
  | cons n rest ih => simp only [reachRun, reachObject_transacted h, ih]

theorem holderOf_modPort (s : State) (p : PortId) (f : PortState → PortState) :
    (s.modPort p f).holderOf = s.holderOf := by
  funext o
  cases o <;> rfl

theorem toucherOf_modPort (s : State) (p : PortId) (f : PortState → PortState) :
    (s.modPort p f).toucherOf = s.toucherOf := by
  funext o
  cases o <;> rfl

/-- The transaction of a CLAIM changes nothing that its checks read. -/
theorem claimChecked_transacted {s : State} {p : PortId} (h : (s.port p).takes = true) (kind first count : Byte) :
    claimChecked p kind first count (s.modPort p PortState.transacted) = claimChecked p kind first count s := by
  simp only [claimChecked, reachRun_transacted h, holderOf_modPort, toucherOf_modPort]

/-- A CLAIM that is refused. -/
theorem exec_claim_refused {s : State} {p : PortId} {kind first count : Byte} {st : Status} {items : List Byte}
    (h : (s.port p).takes = true) (failed : claimChecked p kind first count s = .error (st, items)) :
    exec (.claim p kind first count) s = .next (s.leaves p (reply 0x20 st items)) :=
  exec_claim_failed h ((claimChecked_transacted h ..).trans failed)

/-- Related lists are related at every position. -/
theorem forall₂_at {α β : Type} {R : α → β → Prop} {l : List α} {l' : List β} (h : List.Forall₂ R l l') (i : Nat) :
    (l[i]? = none ∧ l'[i]? = none) ∨ ∃ a b, l[i]? = some a ∧ l'[i]? = some b ∧ R a b := by
  induction h generalizing i with
  | nil => exact .inl ⟨rfl, rfl⟩
  | @cons a b l l' hab _ ih =>
    cases i with
    | zero => exact .inr ⟨a, b, rfl, rfl, hab⟩
    | succ i => exact ih i

/-- The objects of a run that translates whole, position by position. -/
theorem reachRun_objects {q : PortState} {kind : ObjectKind} {first count : Byte}
    (all : ∀ j < count.toNat, ∃ o, reachObject q kind true (first.toNat + j) = .ok o) :
    ∃ os, reachRun q kind 0 (runNumbers first count) = .ok os ∧ os.length = count.toNat ∧
      ∀ j o, os[j]? = some o ↔ j < count.toNat ∧ reachObject q kind true (first.toNat + j) = .ok o := by
  obtain ⟨os, run, each⟩ := reachRun_ok (q := q) (kind := kind) (l := runNumbers first count) 0 fun n hn => by
    obtain ⟨j, hj, rfl⟩ := mem_runNumbers.mp hn
    exact all j hj
  have size : os.length = count.toNat := each.length_eq ▸ runNumbers_length
  refine ⟨os, run, size, fun j o => ?_⟩
  rcases forall₂_at each j with ⟨out, gone⟩ | ⟨n, o', at_n, at_o, reached⟩
  · have beyond : ¬j < count.toNat := fun inside => by rw [runNumbers_get inside] at out; cases out
    simp [gone, beyond]
  · have inside : j < count.toNat := by
      rw [← runNumbers_length (first := first)]
      exact (List.getElem?_eq_some_iff.mp at_n).1
    rw [runNumbers_get inside] at at_n
    cases at_n
    rw [at_o, reached]
    simp [inside]

theorem runFailure_strip {first count : Byte} (ok : 1 ≤ count.toNat ∧ count.toNat ≤ 16) :
    runFailure (some .strip) first count = false := by simp [runFailure, (countOk_iff count).mpr ok]

theorem runFailure_bus {first count : Byte} (ok : 1 ≤ count.toNat ∧ count.toNat ≤ 16)
    (inside : first.toNat + count.toNat ≤ 24) : runFailure (some .bus) first count = false := by
  simp [runFailure, (countOk_iff count).mpr ok, inside]

theorem runFailure_count {first count : Byte} (bad : ¬(1 ≤ count.toNat ∧ count.toNat ≤ 16)) (k : ObjectKind) :
    runFailure (some k) first count = true := by
  rw [← countOk_iff, Bool.not_eq_true] at bad
  cases k <;> simp [runFailure, bad]

theorem runFailure_beyond {first count : Byte} (beyond : 24 < first.toNat + count.toNat) :
    runFailure (some .bus) first count = true := by simp [runFailure, beyond]

/-- An accepted CLAIM. -/
theorem exec_claim {s : State} {p : PortId} {kind first count : Byte} {os : List Object} {v : State}
    (h : (s.port p).takes = true) (checked : claimChecked p kind first count s = .ok os)
    (hv : v = holdAll (some p) os (s.modPort p PortState.transacted))
    (ports : v.ports = (s.modPort p PortState.transacted).ports) (size : os.length = count.toNat) :
    exec (.claim p kind first count) s =
      .next (({ v with ports := s.ports } : State).leaves p (reply 0x20 .ok [count])) := by
  rw [exec_claim_arm, execClaim]
  refine request_leaves_answered h ports ?_
  rw [claimChecked_transacted h, checked, hv]
  dsimp only
  rw [size, w1, BitVec.ofNat_toNat, BitVec.setWidth_eq]

/-- Settles O43: the run translated, then judged by holder and toucher in run order, then held whole. -/
theorem claimHoldsTheWholeRunOrNothing : Obligations.ClaimHoldsTheWholeRunOrNothing := by
  intro p q kind first count i n st s h
  refine ⟨fun unknown => exec_claim_refused h (claimChecked_range ?_), fun bad =>
    ⟨exec_claim_refused h (claimChecked_range (runFailure_count bad .strip)),
      exec_claim_refused h (claimChecked_range (runFailure_count bad .bus))⟩, fun one sixteen => ⟨?unreached, ?strips, ?beyond,
      ?buses⟩⟩
  · rw [readObjectKind_none unknown]
    rfl
  case unreached =>
    intro inside fails before
    refine exec_claim_refused h (claimChecked_unreached readObjectKind_strip (runFailure_strip ⟨one, sixteen⟩) ?_)
    have step := reachRun_error (q := s.port p) (kind := .strip) (st := st) 0 (runNumbers_get (first := first) inside)
      (by rw [reachObject]; simp [fails]) fun j hj k hk => by
        rw [runNumbers_get (by omega)] at hk
        cases hk
        obtain ⟨m, reached⟩ := before ⟨j, by omega⟩ hj
        exact ⟨.strip m, reachObject_strip.mpr ⟨m, rfl, reached⟩⟩
    rwa [Nat.zero_add] at step
  case strips =>
    intro all
    obtain ⟨os, run, size, at_⟩ := reachRun_objects (q := s.port p) (kind := .strip) (first := first) (count := count)
      fun j hj => by
        obtain ⟨m, reached⟩ := all ⟨j, by omega⟩ hj
        exact ⟨.strip m, reachObject_strip.mpr ⟨m, rfl, reached⟩⟩
    have strip_at : ∀ j m, os[j]? = some (.strip m) ↔
        j < count.toNat ∧ reachForChange (s.port p) (first.toNat + j) = .ok m := fun j m => by
      rw [at_, reachObject_strip]
      simp
    have kinds : ∀ {j o}, os[j]? = some o → ∃ m, o = .strip m ∧ j < count.toNat ∧
        reachForChange (s.port p) (first.toNat + j) = .ok m := fun {j o} ho => by
      obtain ⟨inside, reached⟩ := (at_ j o).mp ho
      obtain ⟨m, rfl, strip⟩ := reachObject_strip.mp reached
      exact ⟨m, rfl, inside, strip⟩
    have good := runFailure_strip (first := first) ⟨one, sixteen⟩
    refine ⟨fun inside reached held other before => ?_, fun unheld => ⟨fun inside reached touched other before => ?_,
      fun open_ => ?_⟩⟩
    · have conflict := firstConflict_some (p := p) (field := s.holderOf) 0 ((strip_at i n).mpr ⟨inside, reached⟩) held other
        fun j hj o ho => by
          obtain ⟨m, rfl, _, reached⟩ := kinds ho
          exact before ⟨j, by omega⟩ hj m reached
      rw [Nat.zero_add] at conflict
      exact exec_claim_refused h (claimChecked_held readObjectKind_strip good run conflict)
    · have free := firstConflict_of_free (p := p) (field := s.holderOf) (os := os) 0 fun o ho => by
        obtain ⟨j, hj⟩ := List.mem_iff_getElem?.mp ho
        obtain ⟨m, rfl, inside, reached⟩ := kinds hj
        exact unheld ⟨j, by omega⟩ inside m reached
      have conflict := firstConflict_some (p := p) (field := s.toucherOf) 0 ((strip_at i n).mpr ⟨inside, reached⟩) touched
        other fun j hj o ho => by
          obtain ⟨m, rfl, _, reached⟩ := kinds ho
          exact (before ⟨j, by omega⟩ hj m reached).2
      rw [Nat.zero_add] at conflict
      exact exec_claim_refused h (claimChecked_touched readObjectKind_strip good run free conflict)
    · have opens : ∀ o ∈ os, ∃ m, o = .strip m ∧ (s.strip m).openTo p := fun o ho => by
        obtain ⟨j, hj⟩ := List.mem_iff_getElem?.mp ho
        obtain ⟨m, rfl, inside, reached⟩ := kinds hj
        exact ⟨m, rfl, open_ ⟨j, by omega⟩ inside m reached⟩
      have unheld' := firstConflict_of_free (p := p) (field := s.holderOf) (os := os) 0 fun o ho => by
        obtain ⟨m, rfl, holder, _⟩ := opens o ho
        exact holder
      have untouched := firstConflict_of_free (p := p) (field := s.toucherOf) (os := os) 0 fun o ho => by
        obtain ⟨m, rfl, _, toucher⟩ := opens o ho
        exact toucher
      have only := holdAll_strips_eq (h := some p) (os := os)
        (fun o ho => let ⟨m, hm, _⟩ := opens o ho; ⟨m, hm⟩) (s.modPort p PortState.transacted)
      have strip := strip_holdAll (some p) os (s.modPort p PortState.transacted)
      obtain ⟨v, hv⟩ : ∃ v, v = holdAll (some p) os (s.modPort p PortState.transacted) := ⟨_, rfl⟩
      rw [← hv] at only strip
      refine ⟨_, exec_claim h (claimChecked_ok readObjectKind_strip good run unheld' untouched) hv (by rw [only]) size,
        fun m => ?_, ?_, otherPortsKept_leaves rfl _ _, ownPortKept_leaves rfl .., pendingSet_leaves rfl ..,
        replySlot_leaves ..⟩
      · have mem : .strip m ∈ os ↔
            ∃ j : Fin 16, j.val < count.toNat ∧ reachForChange (s.port p) (first.toNat + j.val) = .ok m := by
          rw [List.mem_iff_getElem?]
          refine ⟨fun ⟨j, hj⟩ => ?_, fun ⟨j, hj⟩ => ⟨j.val, (strip_at _ m).mpr hj⟩⟩
          obtain ⟨inside, reached⟩ := (strip_at j m).mp hj
          exact ⟨⟨j, by omega⟩, inside, reached⟩
        refine (strip m).trans ?_
        simp only [mem, modPort_strip]
      · conv_lhs => rw [only]
        rfl
  case beyond => exact fun beyond => exec_claim_refused h (claimChecked_range (runFailure_beyond beyond))
  case buses =>
    intro inside_table
    obtain ⟨os, run, size, at_⟩ := reachRun_objects (q := s.port p) (kind := .bus) (first := first) (count := count)
      fun j hj => ⟨.bus ⟨first.toNat + j, by omega⟩, reachObject_bus.mpr ⟨_, rfl, rfl⟩⟩
    have bus_at : ∀ j (b : BusNo), os[j]? = some (.bus b) ↔ j < count.toNat ∧ b.val = first.toNat + j := fun j b => by
      rw [at_, reachObject_bus]
      simp
    have kinds : ∀ {j o}, os[j]? = some o → ∃ b : BusNo, o = .bus b ∧ j < count.toNat ∧ b.val = first.toNat + j :=
      fun {j o} ho => by
        obtain ⟨inside, reached⟩ := (at_ j o).mp ho
        obtain ⟨b, rfl, hb⟩ := reachObject_bus.mp reached
        exact ⟨b, rfl, inside, hb⟩
    have good := runFailure_bus ⟨one, sixteen⟩ inside_table
    refine ⟨fun b inside here held other before => ?_, fun free => ?_⟩
    · have conflict := firstConflict_some (p := p) (field := s.holderOf) 0 ((bus_at i b).mpr ⟨inside, here⟩) held other
        fun j hj o ho => by
          obtain ⟨a, rfl, _, place⟩ := kinds ho
          exact before a (by omega) (Fin.lt_def.mpr (by omega))
      rw [Nat.zero_add] at conflict
      exact exec_claim_refused h (claimChecked_held readObjectKind_bus good run conflict)
    · have opens : ∀ o ∈ os, ∃ b, o = .bus b ∧ ((s.bus b).holder = none ∨ (s.bus b).holder = some p) := fun o ho => by
        obtain ⟨j, hj⟩ := List.mem_iff_getElem?.mp ho
        obtain ⟨b, rfl, inside, place⟩ := kinds hj
        exact ⟨b, rfl, free b (by omega) (by omega)⟩
      have unheld := firstConflict_of_free (p := p) (field := s.holderOf) (os := os) 0 fun o ho => by
        obtain ⟨b, rfl, holder⟩ := opens o ho
        exact holder
      have untouched := firstConflict_of_free (p := p) (field := s.toucherOf) (os := os) 0 fun o ho => by
        obtain ⟨b, rfl, _⟩ := opens o ho
        exact .inl rfl
      have only := holdAll_buses_eq (h := some p) (os := os)
        (fun o ho => let ⟨b, hb, _⟩ := opens o ho; ⟨b, hb⟩) (s.modPort p PortState.transacted)
      have bus := bus_holdAll (some p) os (s.modPort p PortState.transacted)
      obtain ⟨v, hv⟩ : ∃ v, v = holdAll (some p) os (s.modPort p PortState.transacted) := ⟨_, rfl⟩
      rw [← hv] at only bus
      refine ⟨_, exec_claim h (claimChecked_ok readObjectKind_bus good run unheld untouched) hv (by rw [only]) size,
        fun b => ?_, ?_, otherPortsKept_leaves rfl _ _, ownPortKept_leaves rfl .., pendingSet_leaves rfl ..,
        replySlot_leaves ..⟩
      · have mem : .bus b ∈ os ↔ first.toNat ≤ b.val ∧ b.val < first.toNat + count.toNat := by
          rw [List.mem_iff_getElem?]
          simp only [bus_at]
          exact ⟨fun ⟨j, hj, e⟩ => by omega, fun ⟨low, high⟩ => ⟨b.val - first.toNat, by omega, by omega⟩⟩
        refine (bus b).trans ?_
        simp only [mem, modPort_bus]
      · conv_lhs => rw [only]
        rfl

end Sys2Proof.Machine

/-!
PROOFS. The acceptance of changes (R11 to R14): who may change a strip, what R13 opens, and what a MOVE makes of its value.
-/
namespace Sys2Proof.Machine

/-! ### Holder, toucher and mode (R12, R13) -/

theorem liveOpen_iff (s : State) (n : StripNo) : liveOpen s.playback.passOpen (s.strip n) = true ↔ s.writesLive n := by
  simp only [liveOpen, State.writesLive, Bool.or_eq_true, Bool.and_eq_true, beq_iff_eq, Bool.not_eq_true', punched_iff,
    or_assoc]

theorem trimOpen_iff (s : State) (n : StripNo) : trimOpen s.playback.passOpen (s.strip n) = true ↔ s.writesTrim n := by
  simp only [trimOpen, State.writesTrim, Bool.and_eq_true, beq_iff_eq, and_assoc]

theorem handFailure_held {p : PortId} {r : Strip} (held : ∃ q, r.holder = some q ∧ q ≠ p) :
    handFailure p r = some .held := by rw [handFailure, otherPort_true.mpr held, firstFailure_failIf_true]

theorem handFailure_touched {p : PortId} {r : Strip} (free : r.holder = none ∨ r.holder = some p)
    (touched : ∃ q, r.toucher = some q ∧ q ≠ p) : handFailure p r = some .touched := by
  rw [handFailure, otherPort_false.mpr free, otherPort_true.mpr touched, firstFailure_failIf_false,
    firstFailure_failIf_true]

theorem handFailure_open {p : PortId} {r : Strip} (h : r.openTo p) : handFailure p r = none := handFailure_none.mpr h

/-- The statuses of steps 2 and 3, for every change alike (R12). -/
theorem handFailure_some {p : PortId} {r : Strip} {st : Status}
    (h : (st = .held ∧ ∃ q, r.holder = some q ∧ q ≠ p) ∨
      (st = .touched ∧ (r.holder = none ∨ r.holder = some p) ∧ ∃ q, r.toucher = some q ∧ q ≠ p)) :
    handFailure p r = some st := by
  rcases h with ⟨rfl, held⟩ | ⟨rfl, free, touched⟩
  · exact handFailure_held held
  · exact handFailure_touched free touched

@[simp] theorem firstFailure_some (st : Status) (l : List (Option Status)) : firstFailure (some st :: l) = some st := rfl

@[simp] theorem firstFailure_none_cons (l : List (Option Status)) : firstFailure (none :: l) = firstFailure l := rfl

/-! ### Bytes that name values (R178) -/

theorem byte_eq {b : Byte} {k : Nat} (h : b.toNat = k) : b = BitVec.ofNat 8 k := by rw [← h, BitVec.ofNat_toNat]; rfl

theorem readFlag_zero {b : Byte} (h : b.toNat = 0) : readFlag b = some false := by rw [byte_eq h]; rfl

theorem readFlag_one {b : Byte} (h : b.toNat = 1) : readFlag b = some true := by rw [byte_eq h]; rfl

theorem readMoveField_none {b : Byte} (h : 3 < b.toNat) : readMoveField b = none := by
  rw [readMoveField]
  split
  · omega
  · omega
  · omega
  · omega
  · rfl

theorem readMoveOp_none {b : Byte} (h : 1 < b.toNat) : readMoveOp b = none := by
  rw [readMoveOp]
  split
  · omega
  · omega
  · rfl

theorem readMoveField_fader {b : Byte} (h : b.toNat = 0) : readMoveField b = some .fader := by rw [byte_eq h]; rfl

theorem readMoveField_mute {b : Byte} (h : b.toNat = 1) : readMoveField b = some .mute := by rw [byte_eq h]; rfl

theorem readMoveField_pan {b : Byte} (h : b.toNat = 2) : readMoveField b = some .pan := by rw [byte_eq h]; rfl

theorem readMoveField_panEntry {b : Byte} (h : b.toNat = 3) : readMoveField b = some .panEntry := by rw [byte_eq h]; rfl

theorem readMoveOp_replace {b : Byte} (h : b.toNat = 0) : readMoveOp b = some .replace := by rw [byte_eq h]; rfl

theorem readMoveOp_add {b : Byte} (h : b.toNat = 1) : readMoveOp b = some .add := by rw [byte_eq h]; rfl

/-! ### Pan lists (R6, R14) -/

theorem panAllowed_iff (t : BusTable) (d : Dest) (l : List PanEntry) :
    (panShaped l && t.panFits d l) = true ↔ panAllowed (t.destWidth d) l := by
  have fits : t.panFits d l = true ↔ ∀ w, t.destWidth d = some w → ∀ e ∈ l, e.channel.val < w := by
    unfold BusTable.panFits
    cases t.destWidth d <;> simp
  rw [Bool.and_eq_true, panShaped_iff, fits, panAllowed, and_assoc, and_assoc]

theorem checkedPan_ok {t : BusTable} {d : Dest} {l : List PanEntry} (h : panAllowed (t.destWidth d) l) :
    checkedPan t d l = .ok (.pan l) := by rw [checkedPan, if_pos ((panAllowed_iff t d l).mpr h)]

theorem checkedPan_shape {t : BusTable} {d : Dest} {l : List PanEntry} (h : ¬panAllowed (t.destWidth d) l) :
    checkedPan t d l = .error .shape := by rw [checkedPan, if_neg fun k => h ((panAllowed_iff t d l).mp k)]

theorem readEntry_none_iff (c : Byte) (w : BitVec 16) : readEntry c w = none ↔ 11 < c.toNat := by
  rw [readEntry, Option.map_eq_none_iff, readIndex]
  split
  · next lt => simp; omega
  · next ge => simp; omega

theorem readEntries_none_iff (l : List (Byte × BitVec 16)) : readEntries l = none ↔ ∃ e ∈ l, 11 < e.1.toNat := by
  induction l with
  | nil => simp [readEntries]
  | cons e rest ih =>
    obtain ⟨c, w⟩ := e
    simp only [List.mem_cons, exists_eq_or_imp, ← ih, ← readEntry_none_iff c w]
    rw [readEntries]
    cases readEntry c w with
    | none => simp
    | some a => cases readEntries rest <;> simp

/-- The entries that a pan field has room for. -/
def panRoom (v : Value13) : List (Byte × BitVec 16) :=
  [(v[1], join2 v[2] v[3]), (v[4], join2 v[5] v[6]), (v[7], join2 v[8] v[9]), (v[10], join2 v[11] v[12])]

theorem panRoom_channel (v : Value13) (i : Fin 4) :
    ((panRoom v)[i.val]'(by simp [panRoom])).1 = v[1 + 3 * i.val]'(by omega) := by
  fin_cases i <;> rfl

/-- A pan field is out of range by a channel of an entry that its count covers. -/
theorem readPan_none_iff (v : Value13) : (readPan v).entries = none ↔ panOutOfRange v := by
  have read : (readPan v).entries = readEntries ((panRoom v).take v[0].toNat) := rfl
  have size : (panRoom v).length = 4 := rfl
  rw [read, readEntries_none_iff, panOutOfRange]
  simp only [List.mem_take_iff_getElem, size]
  constructor
  · rintro ⟨e, ⟨i, hi, rfl⟩, high⟩
    refine ⟨⟨i, by omega⟩, by simp only; omega, ?_⟩
    rwa [← panRoom_channel v ⟨i, by omega⟩]
  · rintro ⟨i, hi, high⟩
    refine ⟨_, ⟨i.val, by omega, rfl⟩, ?_⟩
    rwa [panRoom_channel v i]

/-! ### What a MOVE makes of its value (R14, R16 to R19) -/

/-- A field is a field of MOVE, or RANGE refuses it. -/
theorem moveField_cases (field : Byte) :
    field.toNat = 0 ∨ field.toNat = 1 ∨ field.toNat = 2 ∨ field.toNat = 3 ∨ 3 < field.toNat := by omega

section Results
variable {passOpen : Bool} {t : BusTable} {r : Strip} {field op index : Byte} {value : Value13}

theorem moveResult_unknown (h : 3 < field.toNat ∨ 1 < op.toNat) :
    moveResult passOpen t r field op index value = .error .range := by
  rw [moveResult]
  rcases h with h | h
  · rw [readMoveField_none h]
  · rw [readMoveOp_none h]
    cases readMoveField field <;> rfl

theorem moveResult_replace {f : MoveField} (hf : readMoveField field = some f) (ho : op.toNat = 0) :
    moveResult passOpen t r field op index value = moveReplace passOpen t r f index value := by
  rw [moveResult, hf, readMoveOp_replace ho]

theorem moveResult_add {f : MoveField} (hf : readMoveField field = some f) (ho : op.toNat = 1) :
    moveResult passOpen t r field op index value = moveAdd passOpen r f index value := by
  rw [moveResult, hf, readMoveOp_add ho]

theorem moveAdd_delta {f : MoveField} (h : valueDelta value < -65535 ∨ 65535 < valueDelta value) :
    moveAdd passOpen r f index value = .error .range := by
  unfold moveAdd
  exact if_pos h

theorem moveAdd_inside {f : MoveField} (h : ¬(valueDelta value < -65535 ∨ 65535 < valueDelta value)) :
    moveAdd passOpen r f index value = match f with
      | .fader => .ok (faderWrite passOpen r fun v => clampAdd v (valueDelta value))
      | .panEntry => if 3 < index.toNat ∨ r.pan.length < index.toNat then .error .range else .error .shape
      | .mute | .pan => .error .shape := by
  unfold moveAdd
  exact if_neg h

/-- Every MOVE whose value is out of its range is refused with RANGE. -/
theorem moveResult_range (h : moveOutOfRange r field op index value) :
    moveResult passOpen t r field op index value = .error .range := by
  by_cases unknown : 3 < field.toNat ∨ 1 < op.toNat
  · exact moveResult_unknown unknown
  rw [moveOutOfRange] at h
  have ops : op.toNat = 0 ∨ op.toNat = 1 := by omega
  rcases ops with replace | add
  · rcases moveField_cases field with f | f | f | f | f
    · exfalso; omega
    · have high : 1 < value[0].toNat := by simpa [replace, f] using h
      rw [moveResult_replace (readMoveField_mute f) replace, moveReplace, readFlag_none high]
    · have out : panOutOfRange value := by simpa [replace, f] using h
      rw [moveResult_replace (readMoveField_pan f) replace, moveReplace, (readPan_none_iff value).mpr out]
      rfl
    · rw [moveResult_replace (readMoveField_panEntry f) replace, moveReplace, panEntryResult]
      by_cases far : 3 < index.toNat ∨ r.pan.length < index.toNat
      · rw [if_pos far]
      rw [if_neg far]
      have rest : 1 < value[3].toNat ∨ (value[3].toNat = 1 ∧ index.toNat = r.pan.length) ∨
          (value[3].toNat = 0 ∧ 11 < value[0].toNat) := by simpa [replace, f, far] using h
      rcases rest with high | ⟨remove, last⟩ | ⟨write, channel⟩
      · rw [readFlag_none high]
      · rw [readFlag_one remove]
        dsimp only
        rw [if_pos last]
      · rw [readFlag_zero write]
        dsimp only
        rw [(readEntry_none_iff ..).mpr channel]
    · exfalso; omega
  · by_cases delta : valueDelta value < -65535 ∨ 65535 < valueDelta value
    · obtain ⟨f, hf⟩ : ∃ f, readMoveField field = some f := by
        rcases moveField_cases field with f | f | f | f | f
        · exact ⟨_, readMoveField_fader f⟩
        · exact ⟨_, readMoveField_mute f⟩
        · exact ⟨_, readMoveField_pan f⟩
        · exact ⟨_, readMoveField_panEntry f⟩
        · exfalso; omega
      rw [moveResult_add hf add, moveAdd_delta delta]
    · have entry : field.toNat = 3 ∧ (3 < index.toNat ∨ r.pan.length < index.toNat) := by
        rcases h with h | h | h | h | h | h | h
        · exfalso; omega
        · exfalso; omega
        · exact absurd h.2 delta
        · exact h
        · exfalso; omega
        · exfalso; omega
        · exfalso; omega
      rw [moveResult_add (readMoveField_panEntry entry.1) add, moveAdd_inside delta]
      dsimp only
      rw [if_pos entry.2]

theorem take_drop_eq_eraseIdx {α : Type} (l : List α) (k : Nat) : l.take k ++ l.drop (k + 1) = l.eraseIdx k :=
  (List.eraseIdx_eq_take_drop_succ ..).symm

/-- The list that a replaced or an appended entry makes, at an index that is in range. -/
theorem panEntryMoved_write {l : List PanEntry} {k : Nat} (near : ¬(3 < k ∨ l.length < k)) (e : PanEntry) :
    panEntryMoved l k (some e) = some (if k < l.length then l.set k e else l ++ [e]) := by
  rw [panEntryMoved]
  by_cases inside : k < l.length
  · rw [if_pos inside, if_pos inside, List.set_eq_take_append_cons_drop, if_pos inside]
  · rw [if_neg inside, if_neg inside, if_pos (by omega)]

/-- Every MOVE whose value is in range and whose result has no shape is refused with SHAPE. -/
theorem moveResult_shape (inside : ¬moveOutOfRange r field op index value)
    (h : moveMisshapen (t.destWidth r.dest) r field op index value) :
    moveResult passOpen t r field op index value = .error .shape := by
  rw [moveOutOfRange] at inside
  simp only [not_or] at inside
  obtain ⟨known, ops, delta, near, mute, pan, entry⟩ := inside
  rw [moveMisshapen] at h
  rcases h with ⟨add, other⟩ | ⟨replace, f, bad⟩ | ⟨replace, f, bad⟩
  · have delta' : ¬(valueDelta value < -65535 ∨ 65535 < valueDelta value) := fun d => delta ⟨add, d⟩
    rcases moveField_cases field with f | f | f | f | f
    · exact absurd f other
    · rw [moveResult_add (readMoveField_mute f) add, moveAdd_inside delta']
    · rw [moveResult_add (readMoveField_pan f) add, moveAdd_inside delta']
    · rw [moveResult_add (readMoveField_panEntry f) add, moveAdd_inside delta']
      dsimp only
      rw [if_neg fun far => near ⟨f, far⟩]
    · exact absurd f known
  · have read : (readPan value).entries ≠ none := fun out => pan ⟨replace, f, (readPan_none_iff value).mp out⟩
    obtain ⟨l, hl⟩ := Option.ne_none_iff_exists'.mp read
    rw [moveResult_replace (readMoveField_pan f) replace, moveReplace]
    rw [hl, if_neg (by simp)]
    have list : (readPan value).list = l := by rw [PanField.list, hl]; rfl
    rcases bad with many | misshapen
    · have unshaped : (readPan value).shaped = false := by
        rw [PanField.shaped, Bool.and_eq_false_iff]
        exact .inl (decide_eq_false (Nat.not_le.mpr many))
      rw [unshaped]
      rfl
    · split
      · rw [list]
        exact checkedPan_shape (misshapen l hl)
      · rfl
  · have near' : ¬(3 < index.toNat ∨ r.pan.length < index.toNat) := fun far => near ⟨f, far⟩
    rw [moveResult_replace (readMoveField_panEntry f) replace, moveReplace, panEntryResult, if_neg near']
    rcases bad with ⟨remove, single⟩ | ⟨write, e, he, l, moved, misshapen⟩
    · rw [readFlag_one remove]
      dsimp only
      rw [if_neg fun last => entry ⟨replace, f, .inr (.inl ⟨remove, last⟩)⟩, if_pos single]
    · rw [readFlag_zero write]
      dsimp only
      rw [he]
      rw [panEntryMoved_write near', Option.some.injEq] at moved
      dsimp only
      rw [moved]
      exact checkedPan_shape misshapen

end Results

/-! ### A change that is refused -/

section Refused
variable {p : PortId} {surface : Byte} {s : State} {n : StripNo} {st : Status}

theorem exec_move_arm (p : PortId) (posted : Bool) (surface field op index : Byte) (value : Value13) (s : State) :
    exec (.move p posted surface field op index value) s = execMove p posted surface field op index value s := rfl

theorem exec_flags_arm (p : PortId) (posted : Bool) (start count op sel set : Byte) (s : State) :
    exec (.flags p posted start count op sel set) s = execFlags p posted start count op sel set s := rfl

theorem exec_setRoute_arm (p : PortId) (surface : Byte) (source : SourceField) (dest : DestField) (carried : Byte)
    (pan : Value13) (s : State) :
    exec (.setRoute p surface source dest carried pan) s = execSetRoute p surface source dest carried pan s := rfl

theorem exec_setStrip_arm (p : PortId) (surface : Byte) (source : SourceField) (polarity : Byte) (dest : DestField)
    (fader : BitVec 16) (mute : Byte) (pan : Value13) (mode linePunch : Byte) (s : State) :
    exec (.setStrip p surface source polarity dest fader mute pan mode linePunch) s =
      execSetStrip p surface source polarity dest fader mute pan mode linePunch s := rfl

theorem exec_setMode_arm (p : PortId) (surface mode : Byte) (s : State) :
    exec (.setMode p surface mode) s = execSetMode p surface mode s := rfl

theorem exec_touch_arm (p : PortId) (surface : Byte) (s : State) :
    exec (.touch p surface) s = execTouch p surface s := rfl

theorem exec_untouch_arm (p : PortId) (surface : Byte) (s : State) :
    exec (.untouch p surface) s = execUntouch p surface s := rfl

theorem exec_save_arm (p : PortId) (surface : Byte) (s : State) : exec (.save p surface) s = execSave p surface s := rfl

/-- The checks that every change of a strip starts with: the translation, the holder and the toucher (R11, R12). -/
def changeRefusal (p : PortId) (k : Nat) (s : State) : Option Status :=
  match reachForChange (s.port p) k with
  | .error st => some st
  | .ok n => handFailure p (s.strip n)

theorem changeRefusal_unreached {k : Nat} (fails : reachForChange (s.port p) k = .error st) :
    changeRefusal p k s = some st := by rw [changeRefusal, fails]

theorem changeRefusal_reached {k : Nat} (reached : reachForChange (s.port p) k = .ok n) :
    changeRefusal p k s = handFailure p (s.strip n) := by rw [changeRefusal, reached]

theorem changeRefusal_transacted (h : (s.port p).takes = true) (k : Nat) :
    changeRefusal p k (s.modPort p PortState.transacted) = changeRefusal p k s := by
  rw [changeRefusal, changeRefusal, reachForChange_transacted h]
  rfl

theorem moveDone_refused {field op index : Byte} {value : Value13} (h : changeRefusal p surface.toNat s = some st) :
    moveDone p surface field op index value s = .error st := by
  rw [moveDone]
  rw [changeRefusal] at h
  cases reach : reachForChange (s.port p) surface.toNat with
  | error st' => rw [reach] at h; cases h; rfl
  | ok n =>
    rw [reach] at h
    dsimp only at h ⊢
    rw [moveChecked]
    rw [h, firstFailure_some]

theorem flagsAt_refused {k : Nat} {op sel set : Byte} (h : changeRefusal p k s = some st) :
    flagsAt p k op sel set s = .error st := by
  rw [flagsAt]
  rw [changeRefusal] at h
  cases reach : reachForChange (s.port p) k with
  | error st' => rw [reach] at h; cases h; rfl
  | ok n =>
    rw [reach] at h
    dsimp only at h ⊢
    rw [h, firstFailure_some]

theorem setRouteDone_refused {source : SourceField} {dest : DestField} {carried : Byte} {pan : Value13}
    (h : changeRefusal p surface.toNat s = some st) :
    setRouteDone p surface source dest carried pan s = .error st := by
  rw [setRouteDone]
  rw [changeRefusal] at h
  cases reach : reachForChange (s.port p) surface.toNat with
  | error st' => rw [reach] at h; cases h; rfl
  | ok n =>
    rw [reach] at h
    dsimp only at h ⊢
    rw [h, firstFailure_some]

theorem setStripDone_refused {source : SourceField} {polarity : Byte} {dest : DestField} {fader : BitVec 16}
    {mute : Byte} {pan : Value13} {mode linePunch : Byte} (h : changeRefusal p surface.toNat s = some st) :
    setStripDone p surface source polarity dest fader mute pan mode linePunch s = .error st := by
  rw [setStripDone]
  rw [changeRefusal] at h
  cases reach : reachForChange (s.port p) surface.toNat with
  | error st' => rw [reach] at h; cases h; rfl
  | ok n =>
    rw [reach] at h
    dsimp only at h ⊢
    rw [h, firstFailure_some]

theorem setModeDone_refused {mode : Byte} (h : changeRefusal p surface.toNat s = some st) :
    setModeDone p surface mode s = .error st := by
  rw [setModeDone]
  rw [changeRefusal] at h
  cases reach : reachForChange (s.port p) surface.toNat with
  | error st' => rw [reach] at h; cases h; rfl
  | ok n =>
    rw [reach] at h
    dsimp only at h ⊢
    rw [h]

/-! What each request answers then -/

theorem exec_move_refused (h : (s.port p).takes = true) {field op index : Byte} {value : Value13}
    (failed : moveDone p surface field op index value (s.modPort p PortState.transacted) = .error st) :
    exec (.move p false surface field op index value) s = .next (s.leaves p (reply 0x01 st [])) := by
  rw [exec_move_arm, execMove]
  refine request_leaves h rfl ?_
  rw [failed]
  rfl

/-- A posted change that is refused counts once (R172). -/
theorem countedOnce_countRefusal (h : (s.port p).takes = true) :
    CountedOnce p s (countRefusal p (s.modPort p PortState.transacted)) := by
  rw [CountedOnce, countRefusal, modPort_modPort]
  refine modPort_congr ?_
  have attached : (s.port p).attached = true := (Bool.and_eq_true_iff.mp h).1
  rw [transacted_taken h, raised_eq]
  dsimp only
  rw [if_pos attached]
  rfl

theorem exec_move_posted_refused (h : (s.port p).takes = true) {field op index : Byte} {value : Value13}
    (failed : moveDone p surface field op index value (s.modPort p PortState.transacted) = .error st) :
    ∃ t, exec (.move p true surface field op index value) s = .next t ∧ CountedOnce p s t := by
  refine ⟨_, ?_, countedOnce_countRefusal h⟩
  rw [exec_move_arm, execMove, request_taken h, failed]
  rfl

/-- FLAGS of one position that is refused. -/
theorem exec_flags_one_refused (h : (s.port p).takes = true) {op sel set : Byte}
    (failed : changeRefusal p surface.toNat s = some st) :
    exec (.flags p false surface 1 op sel set) s = .next (s.leaves p (reply 0x02 st [0, 0, 1])) := by
  rw [exec_flags_arm, execFlags]
  refine request_leaves h rfl ?_
  have one : runNumbers surface 1 = [surface.toNat] := rfl
  have done : flagsDone p surface 1 op sel set (s.modPort p PortState.transacted) =
      (st, { results := [some st], state := s.modPort p PortState.transacted }) := by
    rw [flagsDone, if_pos (by decide), one, flagsRun, flagsAt_refused ((changeRefusal_transacted h _).trans failed)]
    rfl
  have items : wFlagsReply [some st] = [0, 0, 1] := by
    have counted : [some st].countP (·.isNone) = 0 := rfl
    have mask : [some st].map (·.isSome) = [true] := rfl
    rw [wFlagsReply, counted, mask]
    decide
  rw [done, ← items]
  rfl

theorem exec_setRoute_refused (h : (s.port p).takes = true) {source : SourceField} {dest : DestField} {carried : Byte}
    {pan : Value13}
    (failed : setRouteDone p surface source dest carried pan (s.modPort p PortState.transacted) = .error st) :
    exec (.setRoute p surface source dest carried pan) s = .next (s.leaves p (reply 0x03 st [])) := by
  rw [exec_setRoute_arm, execSetRoute]
  refine request_leaves h rfl ?_
  rw [failed]

theorem exec_setStrip_refused (h : (s.port p).takes = true) {source : SourceField} {polarity : Byte} {dest : DestField}
    {fader : BitVec 16} {mute : Byte} {pan : Value13} {mode linePunch : Byte}
    (failed : setStripDone p surface source polarity dest fader mute pan mode linePunch
      (s.modPort p PortState.transacted) = .error st) :
    exec (.setStrip p surface source polarity dest fader mute pan mode linePunch) s =
      .next (s.leaves p (reply 0x04 st [])) := by
  rw [exec_setStrip_arm, execSetStrip]
  refine request_leaves h rfl ?_
  rw [failed]

theorem exec_setMode_refused (h : (s.port p).takes = true) {mode : Byte}
    (failed : setModeDone p surface mode (s.modPort p PortState.transacted) = .error st) :
    exec (.setMode p surface mode) s = .next (s.leaves p (reply 0x05 st [])) := by
  rw [exec_setMode_arm, execSetMode]
  refine request_leaves h rfl ?_
  rw [failed]

theorem exec_touch_refused (h : (s.port p).takes = true) (failed : changeRefusal p surface.toNat s = some st) :
    exec (.touch p surface) s = .next (s.leaves p (reply 0x23 st [])) := by
  rw [exec_touch_arm, execTouch]
  refine request_leaves h rfl ?_
  dsimp only
  rw [← changeRefusal_transacted h, changeRefusal] at failed
  cases reach : reachForChange ((s.modPort p PortState.transacted).port p) surface.toNat with
  | error st' => rw [reach] at failed; cases failed; rfl
  | ok n =>
    rw [reach] at failed
    dsimp only at failed ⊢
    rw [failed]

end Refused

/-! ### The refusals of MOVE in their order (R11) -/

/-- A MOVE on a strip that it reaches, whose checks fail. -/
theorem moveDone_unchecked {p : PortId} {surface : Byte} {s : State} {n : StripNo} {st : Status}
    (h : (s.port p).takes = true) {field op index : Byte} {value : Value13}
    (reached : reachForChange (s.port p) surface.toNat = .ok n)
    (failed : moveChecked p s n field op index value = .error st) :
    moveDone p surface field op index value (s.modPort p PortState.transacted) = .error st := by
  rw [moveDone, reachForChange_transacted h, reached]
  dsimp only
  have same : moveChecked p (s.modPort p PortState.transacted) n field op index value =
    moveChecked p s n field op index value := rfl
  rw [same, failed]

theorem moveAutomated_of_closed {s : State} {n : StripNo} {field : Byte} (known : field.toNat ≤ 3)
    (closed : ¬s.moveOpen n field) :
    moveAutomated s.playback.passOpen (s.strip n) (readMoveField field) = true := by
  have live : liveOpen s.playback.passOpen (s.strip n) = false := by
    rw [← Bool.not_eq_true, liveOpen_iff]
    exact fun h => closed (.inl h)
  rcases moveField_cases field with f | f | f | f | f
  · have trim : trimOpen s.playback.passOpen (s.strip n) = false := by
      rw [← Bool.not_eq_true, trimOpen_iff]
      exact fun h => closed (.inr ⟨f, h⟩)
    rw [readMoveField_fader f]
    simp [moveAutomated, live, trim]
  · rw [readMoveField_mute f]
    simp [moveAutomated, live]
  · rw [readMoveField_pan f]
    simp [moveAutomated, live]
  · rw [readMoveField_panEntry f]
    simp [moveAutomated, live]
  · omega

theorem moveAutomated_of_open {s : State} {n : StripNo} {field : Byte} (h : 3 < field.toNat ∨ s.moveOpen n field) :
    moveAutomated s.playback.passOpen (s.strip n) (readMoveField field) = false := by
  rcases h with unknown | live | ⟨f, trim⟩
  · rw [readMoveField_none unknown]
    rfl
  · rw [← liveOpen_iff] at live
    cases readMoveField field with
    | none => rfl
    | some f => cases f <;> simp [moveAutomated, live]
  · rw [← trimOpen_iff] at trim
    rw [readMoveField_fader f]
    simp [moveAutomated, trim]

/-- Past holder and toucher the mode is judged, and then the value (R11). -/
theorem moveChecked_open {p : PortId} {s : State} {n : StripNo} {field op index : Byte} {value : Value13}
    (opened : (s.strip n).openTo p) :
    moveChecked p s n field op index value =
      if moveAutomated s.playback.passOpen (s.strip n) (readMoveField field) then .error .automated
      else moveResult s.playback.passOpen s.busTable (s.strip n) field op index value := by
  rw [moveChecked]
  rw [handFailure_open opened, firstFailure_none_cons]
  cases moveAutomated s.playback.passOpen (s.strip n) (readMoveField field) <;> rfl

/-- Settles O22: the first check that fails is the answer; `changeRefusal` stands before the operands of every change. -/
theorem refusedChangesChangeNothing : Obligations.RefusedChangesChangeNothing := by
  intro p surface field op index w value so de fader st s h
  refine ⟨fun refused => ?_, fun refused => ?_⟩
  · have failed : moveDone p surface field op index value (s.modPort p PortState.transacted) = .error st := by
      rcases refused with unreached | ⟨n, reached, held | touched | ⟨rfl, opened, known, closed⟩ |
        ⟨rfl, opened, known, out⟩ | ⟨rfl, opened, known, inside, shape⟩⟩
      · exact moveDone_refused ((changeRefusal_transacted h _).trans (changeRefusal_unreached unreached))
      · exact moveDone_refused ((changeRefusal_transacted h _).trans
          ((changeRefusal_reached reached).trans (handFailure_some (.inl held))))
      · exact moveDone_refused ((changeRefusal_transacted h _).trans
          ((changeRefusal_reached reached).trans (handFailure_some (.inr touched))))
      · refine moveDone_unchecked h reached ?_
        rw [moveChecked_open opened, if_pos (moveAutomated_of_closed known closed)]
      · refine moveDone_unchecked h reached ?_
        rw [moveChecked_open opened, moveAutomated_of_open known]
        exact moveResult_range out
      · refine moveDone_unchecked h reached ?_
        rw [moveChecked_open opened, moveAutomated_of_open (.inr known)]
        exact moveResult_shape inside shape
    exact ⟨exec_move_refused h failed, exec_move_posted_refused h failed⟩
  · obtain ⟨n, reached, hand⟩ := refused
    have failed : changeRefusal p surface.toNat s = some st :=
      (changeRefusal_reached reached).trans (handFailure_some hand)
    have failed' := (changeRefusal_transacted h surface.toNat).trans failed
    exact ⟨exec_flags_one_refused h failed, exec_setRoute_refused h (setRouteDone_refused failed'),
      exec_setStrip_refused h (setStripDone_refused failed'), exec_setMode_refused h (setModeDone_refused failed'),
      exec_touch_refused h failed⟩

end Sys2Proof.Machine

/-!
PROOFS. What an accepted change of a strip does (R9, R10, R15, R84, R138), and what a request shows of it at its port.
-/
namespace Sys2Proof.Machine

/-! ### Take records and reports of a change -/

theorem recordMoves_cons (p : PortId) (n : StripNo) (v : FieldValue) (l : List FieldValue) (s : State) :
    recordMoves p n (v :: l) s = recordMoves p n l (appendTake (.move s.timeline.counter n p v) s) := rfl

theorem handedOn_recordMoves (p : PortId) (n : StripNo) (l : List FieldValue) (s : State) :
    HandedOn p (fun _ => false) (l.map (.move s.timeline.counter n p)) s (recordMoves p n l s) := by
  induction l generalizing s with
  | nil => exact handedOn_nothing (fun _ => rfl) rfl rfl
  | cons v rest ih =>
    have first := handedOn_appendTake p (.move s.timeline.counter n p v) s
    have others := ih (appendTake (.move s.timeline.counter n p v) s)
    rw [appendTake_timeline] at others
    rw [recordMoves_cons]
    exact first.trans others

/-- The MOVE records of a change of strip `n` (R138). -/
def State.moveRecords (s : State) (p : PortId) (n : StripNo) (written : List FieldValue) : List TakeRecord :=
  if (s.strip n).writeState = .writing ∨ (s.strip n).writeState = .latched then
    written.map (.move s.timeline.counter n p) else []

theorem moveRecords_nil (s : State) (p : PortId) (n : StripNo) : s.moveRecords p n [] = [] := by
  unfold State.moveRecords
  split <;> rfl

theorem handedOn_changed (p : PortId) (n : StripNo) (r : Strip) (written : List FieldValue) (reported : Bool) (s : State) :
    HandedOn p (fun m => reported && decide (m = n)) (s.moveRecords p n written) s
      (changed p n r written reported s) := by
  have after := handRetarget_onlyCells s n (s.setStrip n r)
  have recorded : HandedOn p (fun _ => false) (s.moveRecords p n written) s
      (if (s.strip n).writeState.punched then recordMoves p n written (handRetarget s n (s.setStrip n r))
        else handRetarget s n (s.setStrip n r)) := by
    unfold State.moveRecords
    by_cases writes : (s.strip n).writeState.punched = true
    · rw [if_pos writes, if_pos (punched_iff.mp writes)]
      have records := handedOn_recordMoves p n written (handRetarget s n (s.setStrip n r))
      rw [after.timeline] at records
      exact records.after (fun q => by rw [after.port]; rfl) (by rw [after.writing]; rfl) (by rw [after.playback]; rfl)
    · rw [if_neg writes, if_neg fun h => writes (punched_iff.mpr h)]
      exact handedOn_nothing (fun q => by rw [after.port]; rfl) (by rw [after.writing]; rfl) (by rw [after.playback]; rfl)
  unfold changed
  dsimp only
  cases reported with
  | false => simpa using recorded
  | true => simpa using recorded.trans (handedOn_report p n _)

/-! ### The turn of a trigger after a change -/

section TurnCongr
variable {old old' t u : State} {n : StripNo} (strip : t.strip n = u.strip n) (timeline : t.timeline = u.timeline)
  (playback : t.playback = u.playback)

include strip timeline in
theorem pressing_congr : t.pressing n ↔ u.pressing n := by
  simp only [State.pressing, State.linePunched, strip, timeline]

include strip timeline playback

theorem triggerRises_congr (before : old'.pressing n ↔ old.pressing n) :
    t.triggerRises old' n ↔ u.triggerRises old n := by
  have now := pressing_congr strip timeline
  have armed : t.armed n = u.armed n := by simp only [State.armed, strip, playback]
  unfold State.triggerRises
  rw [armed, strip, before, now]

theorem triggerFalls_congr (before : old'.pressing n ↔ old.pressing n) :
    t.triggerFalls old' n ↔ u.triggerFalls old n := by
  have now := pressing_congr strip timeline
  have armed : t.armed n = u.armed n := by simp only [State.armed, strip, playback]
  unfold State.triggerFalls
  rw [armed, strip, before, now]

omit timeline in
theorem punchedIn_congr (busTable : t.busTable = u.busTable) : t.punchedIn n = u.punchedIn n := by
  have used : t.used n = u.used n := used_congr strip (by rw [playback])
  unfold State.punchedIn
  rw [strip, used, busTable]

/-- What the turn of a trigger depends on. -/
theorem turned_congr (busTable : t.busTable = u.busTable) (before : old'.pressing n ↔ old.pressing n) :
    t.turned old' n = u.turned old n := by
  have rises := triggerRises_congr strip timeline playback before
  have falls := triggerFalls_congr strip timeline playback before
  by_cases rise : u.triggerRises old n
  · rw [turned_rise rise, turned_rise (rises.mpr rise), punchedIn_congr strip playback busTable, strip, timeline]
  · by_cases fall : u.triggerFalls old n
    · rw [turned_fall fall, turned_fall (falls.mpr fall), strip]
    · rw [turned_still rise fall, turned_still (mt rises.mp rise) (mt falls.mp fall), strip]

theorem turnRecords_congr (busTable : t.busTable = u.busTable) (before : old'.pressing n ↔ old.pressing n) :
    t.turnRecords old' n = u.turnRecords old n := by
  have rises := triggerRises_congr strip timeline playback before
  have falls := triggerFalls_congr strip timeline playback before
  unfold State.turnRecords
  simp only [rises, falls, punchedIn_congr strip playback busTable, strip, timeline]

end TurnCongr

/-- A change of a record that keeps the inputs of its trigger turns nothing. -/
theorem turned_untriggered {s : State} {n : StripNo} {r : Strip} (toucher : r.toucher = (s.strip n).toucher)
    (line : r.linePunch = (s.strip n).linePunch) :
    (s.setStrip n r).turned s n = r ∧ (s.setStrip n r).turnRecords s n = [] := by
  have strip : (s.setStrip n r).strip n = r := strip_setStrip_self ..
  have same : (s.setStrip n r).pressing n ↔ s.pressing n := by
    simp only [State.pressing, State.linePunched, strip, toucher, line]
    rfl
  have rises : ¬(s.setStrip n r).triggerRises s n := fun h => h.2.2.1 (same.mp h.2.2.2)
  have falls : ¬(s.setStrip n r).triggerFalls s n := fun h => h.2.2.2 (same.mpr h.2.2.1)
  exact ⟨(turned_still rises falls).trans strip, turnRecords_still rises falls⟩

theorem turned_setting (s old : State) (n : StripNo) : (s.strip n).SameSetting (s.turned old n) := by
  unfold State.turned
  split
  · split
    · rfl
    · rfl
  · split
    · rfl
    · exact .refl _

/-! ### An accepted change, the cut apart -/

section Change
variable (p : PortId) (n : StripNo) {r : Strip} (written : List FieldValue) (reported : Bool) {s : State}

/-- The trigger change after an accepted change (R127). -/
theorem turnsTo_writeChange (mode : r.mode = (s.strip n).mode) :
    TurnsTo p n ((s.setStrip n r).turned s n) ((s.setStrip n r).turnRecords s n) (changed p n r written reported s)
      (writeChange p n r written reported s) := by
  have only := OnlyAt.changed p n r written reported s
  have strip : (changed p n r written reported s).strip n = (s.setStrip n r).strip n := by
    rw [changed_strip, strip_setStrip_self]
  have turn := turnsTo_triggerChange (p := p) (n := n) (old := s) (s := changed p n r written reported s)
    (by rw [changed_strip, mode]) fun write => by
      rw [changed_strip] at write
      rw [trigger_eq, trigger_eq, triggered_write (by rw [← mode, write]), triggered_write (by rw [changed_strip, write]),
        only.timeline]
  rwa [turned_congr strip only.timeline only.playback only.busTable Iff.rfl,
    turnRecords_congr strip only.timeline only.playback only.busTable Iff.rfl] at turn

theorem handedOn_writeChange (mode : r.mode = (s.strip n).mode) :
    HandedOn p (fun m => reported && decide (m = n))
      (s.moveRecords p n written ++ (s.setStrip n r).turnRecords s n) s (writeChange p n r written reported s) := by
  simpa using (handedOn_changed p n r written reported s).trans (turnsTo_writeChange p n written reported mode).handed

theorem used_changed : (changed p n r written reported s).used n = (s.setStrip n r).used n :=
  used_congr (by rw [changed_strip, strip_setStrip_self]) (by rw [(OnlyAt.changed ..).playback]; rfl)

/-- The retargets of a change: of the record written, and of the trigger it turns. -/
theorem cells_writeChange (mode : r.mode = (s.strip n).mode) (c : Channel) :
    ((writeChange p n r written reported s).cells n)[c] =
      rampedCell (s.setStrip n r) (writeChange p n r written reported s) n c
        (rampedCell s (s.setStrip n r) n c (s.cells n)[c]) := by
  have turn := (turnsTo_writeChange p n written reported mode).ramped c
  rw [turn, changed_cells, cells_handRetarget (by rfl)]
  exact rampedCell_congr (used_changed ..) (OnlyAt.changed ..).rampLength rfl rfl _

theorem strip_writeChange (mode : r.mode = (s.strip n).mode) :
    (writeChange p n r written reported s).strip n = (s.setStrip n r).turned s n :=
  (turnsTo_writeChange p n written reported mode).strip

end Change

/-! ### The cut at the end of a request (R10, R39) -/

theorem cut_handCut {s t : State} {n : StripNo} (route : routeChanged (s.strip n) (t.strip n) = true) :
    Cut n s (handCut s n t) := fun c => by
  have only := handCut_onlyCells s n t
  rw [cells_handCut route, only.target]
  rfl

theorem handCut_steady {s t : State} {n : StripNo} (route : routeChanged (s.strip n) (t.strip n) = false) :
    handCut s n t = t := by simp [handCut, route]

theorem routeChanged_iff (r r' : Strip) :
    routeChanged r r' = false ↔ r'.source = r.source ∧ r'.dest = r.dest ∧ r'.inverted = r.inverted := by
  simp only [routeChanged, Bool.or_eq_false_iff, bne_eq_false_iff_eq, and_assoc]
  constructor
  · rintro ⟨a, b, c⟩; exact ⟨a.symm, b.symm, c.symm⟩
  · rintro ⟨a, b, c⟩; exact ⟨a.symm, b.symm, c.symm⟩

/-- The route that a record has after the writing block acts on it. -/
theorem routeChanged_setting {r r' r'' : Strip} (h : r'.SameSetting r'') : routeChanged r r'' = routeChanged r r' := by
  rw [h]
  rfl

/-! ### A committed change -/

section Commit
variable {p : PortId} {n : StripNo} {r : Strip} {written : List FieldValue} {reported : Bool} {s : State}

theorem handedOn_commit (mode : r.mode = (s.strip n).mode) :
    HandedOn p (fun m => reported && decide (m = n))
      (s.moveRecords p n written ++ (s.setStrip n r).turnRecords s n) s (commit p n r written reported s) := by
  have after := handCut_onlyCells s n (writeChange p n r written reported s)
  exact (handedOn_writeChange p n written reported mode).then after.port after.writing after.playback

theorem strip_commit (mode : r.mode = (s.strip n).mode) :
    (commit p n r written reported s).strip n = (s.setStrip n r).turned s n :=
  (handCut_strip ..).trans (strip_writeChange p n written reported mode)

theorem routeChanged_commit (mode : r.mode = (s.strip n).mode) :
    routeChanged (s.strip n) ((writeChange p n r written reported s).strip n) = routeChanged (s.strip n) r := by
  have turned := turned_setting (s.setStrip n r) s n
  rw [strip_setStrip_self, ← strip_writeChange p n written reported mode] at turned
  exact routeChanged_setting turned

theorem cells_commit (mode : r.mode = (s.strip n).mode)
    (steady : r.source = (s.strip n).source ∧ r.dest = (s.strip n).dest ∧ r.inverted = (s.strip n).inverted)
    (c : Channel) : ((commit p n r written reported s).cells n)[c] =
      rampedCell (s.setStrip n r) (commit p n r written reported s) n c
        (rampedCell s (s.setStrip n r) n c (s.cells n)[c]) := by
  have same : commit p n r written reported s = writeChange p n r written reported s :=
    handCut_steady ((routeChanged_commit mode).trans ((routeChanged_iff ..).mpr steady))
  rw [same]
  exact cells_writeChange p n written reported mode c

theorem cut_commit (mode : r.mode = (s.strip n).mode)
    (routed : ¬(r.source = (s.strip n).source ∧ r.dest = (s.strip n).dest ∧ r.inverted = (s.strip n).inverted)) :
    Cut n s (commit p n r written reported s) := by
  refine cut_handCut ?_
  rw [routeChanged_commit mode, ← Bool.not_eq_false]
  exact fun h => routed ((routeChanged_iff ..).mp h)

end Commit

/-! ### What a request shows of its change -/

/-- The outcome of a request of port `p`: the state its effect left, with the reply unless it was posted (R172). -/
def concluded (posted : Bool) (p : PortId) (code : Byte) (st : Status) (items : List Byte) (v : State) : State :=
  if posted then v else answer p code st items v

/-- What the ports show after a request: the reply, the take records, the reports, and nothing else. -/
structure Shown (posted : Bool) (p : PortId) (r : Option Reply) (hit : StripNo → Bool) (rs : List TakeRecord)
    (s t : State) : Prop where
  queued : Queued rs s t
  reported : ReportedOf p hit s t
  own : ownPortKept p s t
  kept_own : pendingKept 0x300#12 p s t
  others : ∀ q, q ≠ p → pendingKept 0x301#12 q s t ∧ t.port q =
    { s.port q with watches := (t.port q).watches, pendingSet := (t.port q).pendingSet }
  replied : Replied posted p r s t

/-- The parts of the state that take records and reports read. -/
structure SameSignals (s t : State) : Prop where
  writing : t.writing = s.writing
  mark : t.playback = s.playback
  attached : ∀ q, (t.port q).attached = (s.port q).attached
  pendingSet : ∀ q, (t.port q).pendingSet = (s.port q).pendingSet
  watches : ∀ q, (t.port q).watches = (s.port q).watches

section Signals
variable {p q : PortId} {s s' t t' : State} (before : SameSignals s s') (after : SameSignals t t')
include before after

theorem queued_signals {rs : List TakeRecord} (h : Queued rs s' t) : Queued rs s t' := by
  obtain ⟨writing, reasons⟩ := h
  refine ⟨by rw [after.writing, writing, before.writing], fun q => ?_⟩
  have at_q := reasons q
  simp only [raisedWhen, before.writing, before.mark, before.attached, before.pendingSet] at at_q
  simp only [raisedWhen, after.pendingSet]
  exact at_q

theorem reportedOf_signals {hit : StripNo → Bool} (h : ReportedOf p hit s' t) : ReportedOf p hit s t' := fun q other => by
  have at_q := h q other
  simp only [raisedWhen, before.attached, before.pendingSet, before.watches] at at_q
  simp only [raisedWhen, after.pendingSet, after.watches]
  exact at_q

theorem pendingKept_signals {may : BitVec 12} (h : pendingKept may q s' t) : pendingKept may q s t' := by
  unfold pendingKept at *
  rw [after.pendingSet, h, before.pendingSet]

end Signals

theorem sameSignals_transacted {p : PortId} {s : State} (h : (s.port p).takes = true) :
    SameSignals s (s.modPort p PortState.transacted) := by
  have own := port_transacted h
  have others : ∀ q, q ≠ p → (s.modPort p PortState.transacted).port q = s.port q := fun q e => port_modPort_ne _ _ e
  refine ⟨rfl, rfl, fun q => ?_, fun q => ?_, fun q => ?_⟩
  all_goals
    by_cases e : q = p
    · rw [e, own]
    · rw [others q e]

theorem sameSignals_concluded (posted : Bool) (p : PortId) (code : Byte) (st : Status) (items : List Byte) (v : State) :
    SameSignals v (concluded posted p code st items v) := by
  cases posted with
  | true => exact ⟨rfl, rfl, fun _ => rfl, fun _ => rfl, fun _ => rfl⟩
  | false =>
    refine ⟨rfl, rfl, fun q => ?_, fun q => ?_, fun q => ?_⟩
    all_goals
      simp only [concluded, answer, port_modPort, Bool.false_eq_true, if_false]
      split <;> rfl

theorem port_concluded_ne {posted : Bool} {p q : PortId} (other : q ≠ p) {code : Byte} {st : Status} {items : List Byte}
    {v : State} : (concluded posted p code st items v).port q = v.port q := by
  cases posted with
  | true => rfl
  | false => exact port_modPort_ne _ _ other

theorem port_concluded {posted : Bool} {p : PortId} {code : Byte} {st : Status} {items : List Byte} {v : State} :
    (concluded posted p code st items v).port p =
      { v.port p with replySlot := if posted then (v.port p).replySlot else reply code st items } := by
  cases posted with
  | true => rfl
  | false => exact port_modPort_self ..

theorem shown_concluded {posted : Bool} {p : PortId} {s v : State} {hit : StripNo → Bool} {rs : List TakeRecord}
    (h : (s.port p).takes = true) (handed : HandedOn p hit rs (s.modPort p PortState.transacted) v) (code : Byte)
    (st : Status) (items : List Byte) :
    Shown posted p (reply code st items) hit rs s (concluded posted p code st items v) := by
  have before := sameSignals_transacted h
  have after := sameSignals_concluded posted p code st items v
  have own := handed.own
  rw [port_transacted h] at own
  refine ⟨queued_signals before after handed.queued, reportedOf_signals before after handed.reported, ?_,
    pendingKept_signals before after handed.kept_own,
    fun q other => ⟨pendingKept_signals before after (handed.kept_others q other), ?_⟩, ?_⟩
  · rw [ownPortKept, port_concluded, own]
  · rw [port_concluded_ne other, handed.others q other, port_modPort_ne _ _ other]
  · rw [Replied, port_concluded, own]

/-- What a request that changes strip `n` alone leaves as it was. -/
theorem onlyStrip_concluded {posted : Bool} {p : PortId} {n : StripNo} {s v : State} {hit : StripNo → Bool}
    {rs : List TakeRecord} (only : OnlyAt n (s.modPort p PortState.transacted) v) {code : Byte} {st : Status}
    {items : List Byte} {r : Option Reply} (shown : Shown posted p r hit rs s (concluded posted p code st items v)) :
    OnlyStrip p n s (concluded posted p code st items v) := by
  have port : v.writing.takePort = s.writing.takePort := by rw [only.writing]; rfl
  have gains : v.engine.gainCells = s.engine.gainCells := by rw [only.engine]; rfl
  have length : v.engine.rampLength = s.engine.rampLength := by rw [only.engine]; rfl
  have sums : v.engine.accumulators = s.engine.accumulators := by rw [only.engine]; rfl
  cases posted with
  | true =>
    exact ⟨only.strips, only.cells, gains, length, sums, only.busTable, only.timeline, only.playback, only.audio,
      only.pending, port, shown.own, shown.kept_own, shown.others⟩
  | false =>
    exact ⟨only.strips, only.cells, gains, length, sums, only.busTable, only.timeline, only.playback, only.audio,
      only.pending, port, shown.own, shown.kept_own, shown.others⟩

/-- An accepted change that keeps the mode and the inputs of the trigger, as its request shows it (R15). -/
theorem changed_concluded {posted : Bool} {p : PortId} {n : StripNo} {s : State} {r : Strip}
    {written : List FieldValue} {reported : Bool} (h : (s.port p).takes = true) (mode : r.mode = (s.strip n).mode)
    (toucher : r.toucher = (s.strip n).toucher) (line : r.linePunch = (s.strip n).linePunch) (code : Byte) (st : Status)
    (items : List Byte) :
    Shown posted p (reply code st items) (fun m => reported && decide (m = n)) (s.moveRecords p n written) s
      (concluded posted p code st items (commit p n r written reported (s.modPort p PortState.transacted))) ∧
    Changed p n r written s
      (concluded posted p code st items (commit p n r written reported (s.modPort p PortState.transacted))) := by
  have mode' : r.mode = ((s.modPort p PortState.transacted).strip n).mode := mode
  obtain ⟨turned, records⟩ := turned_untriggered (s := s.modPort p PortState.transacted) (n := n) (r := r) toucher line
  have handed := handedOn_commit (p := p) (written := written) (reported := reported) mode'
  rw [records, List.append_nil] at handed
  have shown := shown_concluded (posted := posted) h handed code st items
  have strip := strip_commit (p := p) (written := written) (reported := reported) mode'
  rw [turned] at strip
  have only := onlyStrip_concluded (OnlyAt.commit p n r written reported (s.modPort p PortState.transacted)) shown
  refine ⟨shown, ?_, ?_, shown.queued, only⟩
  · cases posted <;> exact strip
  · have settled : (commit p n r written reported (s.modPort p PortState.transacted)).used n =
        ((s.modPort p PortState.transacted).setStrip n r).used n :=
      used_congr (strip.trans (strip_setStrip_self ..).symm) (by rw [(OnlyAt.commit ..).playback]; rfl)
    have target : ∀ c, (commit p n r written reported (s.modPort p PortState.transacted)).target n c =
        ((s.modPort p PortState.transacted).setStrip n r).target n c := fun c =>
      target_of_used settled (by rw [strip, strip_setStrip_self]) (by rw [(OnlyAt.commit ..).busTable]; rfl)
        (by rw [(OnlyAt.commit ..).busTable]; rfl) c
    split
    · next same =>
      intro c
      have cell := cells_commit (p := p) (written := written) (reported := reported) mode' same c
      rw [rampedCell_same settled, ← rampedCell_congr rfl rfl settled (target c)] at cell
      cases posted <;> exact cell
    · next differs =>
      have cut := cut_commit (p := p) (written := written) (reported := reported) mode' differs
      cases posted <;> exact cut

end Sys2Proof.Machine

/-!
PROOFS. A MOVE that passes its checks (R16 to R19).
-/
namespace Sys2Proof.Machine

/-! ### An accepted MOVE -/

theorem exec_move_ok {p : PortId} {posted : Bool} {surface field op index : Byte} {value : Value13} {n : StripNo}
    {v : FieldValue} {s : State} (h : (s.port p).takes = true)
    (reached : reachForChange (s.port p) surface.toNat = .ok n) (opened : (s.strip n).openTo p)
    (mode : s.moveOpen n field)
    (result : moveResult s.playback.passOpen s.busTable (s.strip n) field op index value = .ok v) :
    exec (.move p posted surface field op index value) s =
      .next (concluded posted p 0x01 .ok (wValue v)
        (commit p n ((s.strip n).write v) [v] true (s.modPort p PortState.transacted))) := by
  have checked : moveChecked p (s.modPort p PortState.transacted) n field op index value = .ok v := by
    have same : moveChecked p (s.modPort p PortState.transacted) n field op index value =
      moveChecked p s n field op index value := rfl
    rw [same, moveChecked_open opened, moveAutomated_of_open (.inr mode)]
    exact result
  have done : moveDone p surface field op index value (s.modPort p PortState.transacted) =
      .ok (v, commit p n ((s.strip n).write v) [v] true (s.modPort p PortState.transacted)) := by
    rw [moveDone, reachForChange_transacted h, reached]
    dsimp only
    rw [checked]
    rfl
  rw [exec_move_arm, execMove, request_taken h, done]
  rfl

/-- What an accepted MOVE does, and what its reply carries. -/
theorem move_changes {p : PortId} {posted : Bool} {surface field op index : Byte} {value : Value13} {n : StripNo}
    {v : FieldValue} {s : State} (h : (s.port p).takes = true)
    (reached : reachForChange (s.port p) surface.toNat = .ok n) (opened : (s.strip n).openTo p)
    (mode : s.moveOpen n field)
    (result : moveResult s.playback.passOpen s.busTable (s.strip n) field op index value = .ok v) :
    ∃ t, exec (.move p posted surface field op index value) s = .next t ∧
      Changed p n ((s.strip n).write v) [v] s t ∧ Reported p n s t ∧ Replied posted p (reply 0x01 .ok (wValue v)) s t := by
  have kept : ((s.strip n).write v).mode = (s.strip n).mode ∧ ((s.strip n).write v).toucher = (s.strip n).toucher ∧
      ((s.strip n).write v).linePunch = (s.strip n).linePunch := by
    cases v <;> exact ⟨rfl, rfl, rfl⟩
  obtain ⟨mode', toucher, line⟩ := kept
  obtain ⟨shown, changed⟩ := changed_concluded (posted := posted) (written := [v]) (reported := true) h mode' toucher line
    0x01 .ok (wValue v)
  exact ⟨_, exec_move_ok h reached opened mode result, changed, shown.reported, shown.replied⟩

/-! ### FADER -/

theorem faderMoved_result {passOpen : Bool} {t : BusTable} {r : Strip} {op index : Byte} {value : Value13} {old v : Nat}
    {write : Nat → FieldValue} (writes : ∀ f, faderWrite passOpen r f = write (f old))
    (moved : faderMoved op value old = some v) : moveResult passOpen t r 0 op index value = .ok (write v) := by
  unfold faderMoved at moved
  by_cases replace : op.toNat = 0
  · rw [if_pos replace, Option.some.injEq] at moved
    rw [moveResult_replace (readMoveField_fader (by rfl)) replace, moveReplace, writes, moved]
  · rw [if_neg replace] at moved
    by_cases add : op.toNat = 1 ∧ -65535 ≤ valueDelta value ∧ valueDelta value ≤ 65535
    · rw [if_pos add, Option.some.injEq] at moved
      rw [moveResult_add (readMoveField_fader (by rfl)) add.1, moveAdd_inside (by omega)]
      dsimp only
      rw [writes, clampAdd, ← moved]
      rfl
    · rw [if_neg add] at moved
      cases moved

/-- Settles O19: the field that R13 opens is written with the value that R16 and R17 form. -/
theorem moveFaderWritesFaderOrTrim : Obligations.MoveFaderWritesFaderOrTrim := by
  intro p posted surface op index value n v s h reached opened
  have items : ∀ v : Nat, padded 13 (w2 v) = bytes2 (BitVec.ofNat 16 v) ++ List.replicate 11 0 := fun _ => rfl
  refine ⟨fun live moved => ?_, fun trim moved => ?_⟩
  · have closed : trimOpen s.playback.passOpen (s.strip n) = false := by
      rw [← Bool.not_eq_true, trimOpen_iff]
      rintro ⟨pass, mode, writing⟩
      rcases live with h | h | ⟨-, h | h | h⟩ <;> simp_all
    rw [← items v]
    refine move_changes (v := .fader v) h reached opened (.inl live) (faderMoved_result (fun f => ?_) moved)
    rw [faderWrite, if_neg (by simp [closed])]
  · rw [← items v]
    refine move_changes (v := .trim v) h reached opened (.inr ⟨rfl, trim⟩) (faderMoved_result (fun f => ?_) moved)
    rw [faderWrite, if_pos ((trimOpen_iff s n).mpr trim)]

/-! ### MUTE and PAN -/

theorem carried_flag {b : Byte} {m : Bool} (h : b = if m then 1 else 0) : readFlag b = some m ∧ wFlag m = b := by
  cases m <;> subst h <;> exact ⟨rfl, rfl⟩

theorem pan_result {passOpen : Bool} {t : BusTable} {r : Strip} {index : Byte} {value : Value13} {l : List PanEntry}
    (count : (readPan value).count ≤ 4) (entries : (readPan value).entries = some l)
    (allowed : panAllowed (t.destWidth r.dest) l) : moveResult passOpen t r 2 0 index value = .ok (.pan l) := by
  have list : (readPan value).list = l := by rw [PanField.list, entries]; rfl
  have shaped : (readPan value).shaped = true := by
    have fits := (panAllowed_iff t r.dest l).mpr allowed
    rw [PanField.shaped, list, decide_eq_true count, (Bool.and_eq_true_iff.mp fits).1]
    rfl
  rw [moveResult_replace (readMoveField_pan (by rfl)) (by rfl), moveReplace]
  rw [entries, shaped, list]
  exact checkedPan_ok allowed

/-- Settles O20: the value carried is the value written. -/
theorem moveMuteAndPanWriteTheCarriedValue : Obligations.MoveMuteAndPanWriteTheCarriedValue := by
  intro p posted surface index value n m l s h reached opened live
  refine ⟨fun mute => ?_, fun count entries allowed => ?_⟩
  · obtain ⟨read, sent⟩ := carried_flag mute
    have items : wValue (.mute m) = value[0] :: List.replicate 12 0 := by rw [← sent]; rfl
    rw [← items]
    refine move_changes (v := .mute m) h reached opened (.inl live) ?_
    rw [moveResult_replace (readMoveField_mute (by rfl)) (by rfl), moveReplace, read]
  · exact move_changes (v := .pan l) h reached opened (.inl live) (pan_result count entries allowed)

/-! ### PAN-ENTRY -/

theorem panEntry_result {t : BusTable} {r : Strip} {k : Nat} {value : Value13} {entry : Option PanEntry}
    {l : List PanEntry} (index : k ≤ 3) (removes : value[3] = (if entry.isSome then 0 else 1))
    (read : entry.isSome = true → readEntry value[0] (join2 value[1] value[2]) = entry)
    (moved : panEntryMoved r.pan k entry = some l) (allowed : panAllowed (t.destWidth r.dest) l) :
    panEntryResult t r k value = .ok (.pan l) := by
  rw [panEntryResult]
  cases entry with
  | none =>
    have flag : readFlag value[3] = some true := readFlag_one (by rw [removes]; rfl)
    rw [panEntryMoved] at moved
    by_cases inside : k < r.pan.length
    · rw [if_pos inside, Option.some.injEq, take_drop_eq_eraseIdx] at moved
      have left : 1 ≤ l.length := allowed.1
      rw [← moved, List.length_eraseIdx, if_pos inside] at left
      rw [if_neg (by omega), flag]
      dsimp only
      rw [if_neg (by omega), if_neg (by omega), moved]
    · rw [if_neg inside] at moved
      cases moved
  | some e =>
    have flag : readFlag value[3] = some false := readFlag_zero (by rw [removes]; rfl)
    have near : ¬(3 < k ∨ r.pan.length < k) := by
      rintro (far | far)
      · omega
      · rw [panEntryMoved, if_neg (by omega), if_neg (by omega)] at moved
        cases moved
    rw [panEntryMoved_write near, Option.some.injEq] at moved
    rw [if_neg near, flag]
    dsimp only
    rw [read rfl]
    dsimp only
    rw [moved]
    exact checkedPan_ok allowed

/-- Settles O21: the list that R19 makes is the list written. -/
theorem movePanEntryEditsOneEntry : Obligations.MovePanEntryEditsOneEntry := by
  intro p posted surface index value n entry l s h reached opened live near removes read moved allowed
  refine move_changes (v := .pan l) h reached opened (.inl live) ?_
  rw [moveResult_replace (readMoveField_panEntry (by rfl)) (by rfl), moveReplace]
  exact panEntry_result near removes read moved allowed

end Sys2Proof.Machine

/-!
PROOFS. FLAGS (R21, R22): one position, and what it does.
-/
namespace Sys2Proof.Machine

/-! ### The operation of FLAGS (R21) -/

theorem readFlagsOp_none {b : Byte} (h : 2 < b.toNat) : readFlagsOp b = none := by
  rw [readFlagsOp]
  split
  · omega
  · omega
  · omega
  · rfl

theorem readFlagsOp_known {b : Byte} (h : b.toNat ≤ 2) :
    ∃ o, readFlagsOp b = some o ∧ ∀ selected inSet old, flagAfter o selected inSet old = flagTurned b selected inSet old := by
  have known : b.toNat = 0 ∨ b.toNat = 1 ∨ b.toNat = 2 := by omega
  rcases known with h | h | h
  · exact ⟨.set, by rw [byte_eq h]; rfl, fun _ _ _ => by simp [flagAfter, flagTurned, h]⟩
  · exact ⟨.clear, by rw [byte_eq h]; rfl, fun _ _ _ => by simp [flagAfter, flagTurned, h]⟩
  · exact ⟨.replace, by rw [byte_eq h]; rfl, fun _ _ _ => by simp [flagAfter, flagTurned, h]⟩

/-! ### One position (R11, R21) -/

/-- What a position of FLAGS does to the strip it reaches. -/
def flagsCommit (p : PortId) (op sel set : Byte) (n : StripNo) (s : State) : State :=
  commit p n (flagged op sel set (s.strip n)) (if sel.getLsbD 0 then [.mute (flagged op sel set (s.strip n)).mute] else [])
    true s

theorem flagsRefusal_reached {p : PortId} {op sel : Byte} {s : State} {k : Nat} {n : StripNo}
    (reached : reachForChange (s.port p) k = .ok n) :
    flagsRefusal p op sel s k =
      if ∃ q, (s.strip n).holder = some q ∧ q ≠ p then some .held
      else if ∃ q, (s.strip n).toucher = some q ∧ q ≠ p then some .touched
      else if sel.getLsbD 0 = true ∧ ¬s.writesLive n then some .automated
      else if 2 < op.toNat then some .range
      else none := by
  rw [flagsRefusal, reached]

theorem flagsAt_reached {p : PortId} {op sel set : Byte} {s : State} {k : Nat} {n : StripNo}
    (reached : reachForChange (s.port p) k = .ok n) :
    flagsAt p k op sel set s = match flagsRefusal p op sel s k with
      | some st => .error st
      | none => .ok (flagsCommit p op sel set n s) := by
  rw [flagsRefusal_reached reached, flagsAt, reached]
  dsimp only
  by_cases held : ∃ q, (s.strip n).holder = some q ∧ q ≠ p
  · rw [if_pos held, handFailure_held held, firstFailure_some]
  rw [if_neg held]
  have free : (s.strip n).holder = none ∨ (s.strip n).holder = some p := by
    rwa [← otherPort_true, Bool.not_eq_true, otherPort_false] at held
  by_cases touched : ∃ q, (s.strip n).toucher = some q ∧ q ≠ p
  · rw [if_pos touched, handFailure_touched free touched, firstFailure_some]
  rw [if_neg touched]
  have untouched : (s.strip n).toucher = none ∨ (s.strip n).toucher = some p := by
    rwa [← otherPort_true, Bool.not_eq_true, otherPort_false] at touched
  rw [handFailure_open ⟨free, untouched⟩, firstFailure_none_cons]
  have live := liveOpen_iff s n
  by_cases automated : sel.getLsbD 0 = true ∧ ¬s.writesLive n
  · have closed : liveOpen s.playback.passOpen (s.strip n) = false := by
      rw [← Bool.not_eq_true, live]
      exact automated.2
    rw [if_pos automated, automated.1, closed]
    rfl
  rw [if_neg automated]
  have passes : (sel.getLsbD 0 && !liveOpen s.playback.passOpen (s.strip n)) = false := by
    cases selected : sel.getLsbD 0 with
    | false => rfl
    | true =>
      have opened : s.writesLive n := by
        by_contra closed
        exact automated ⟨selected, closed⟩
      rw [live.mpr opened]
      rfl
  rw [passes]
  by_cases unknown : 2 < op.toNat
  · rw [if_pos unknown, readFlagsOp_none unknown]
    rfl
  · obtain ⟨o, read, turns⟩ := readFlagsOp_known (Nat.le_of_not_lt unknown)
    have writes : writeFlags o sel set (s.strip n) = flagged op sel set (s.strip n) := by
      simp only [writeFlags, flagged, turns]
    rw [if_neg unknown, read, firstFailure_failIf_false]
    dsimp only [firstFailure]
    rw [writes]
    rfl

theorem flagsRefusal_open {p : PortId} {op sel : Byte} {s : State} {k : Nat} {n : StripNo}
    (reached : reachForChange (s.port p) k = .ok n) (opened : (s.strip n).openTo p) (known : op.toNat ≤ 2)
    (live : sel.getLsbD 0 = true → s.writesLive n) : flagsRefusal p op sel s k = none := by
  have free := otherPort_false.mpr opened.1
  have untouched := otherPort_false.mpr opened.2
  rw [flagsRefusal_reached reached, if_neg, if_neg, if_neg fun h => h.2 (live h.1), if_neg (by omega)]
  · rw [← otherPort_true, untouched]; simp
  · rw [← otherPort_true, free]; simp

/-! ### What an applied position does -/

section Position
variable (p : PortId) (op sel set : Byte) (n : StripNo) (s : State)

/-- The take records of an applied position: the MOVE of its mute, and then the turn of the trigger. -/
def flagsRecords : List TakeRecord :=
  (if sel.getLsbD 0 = true ∧ ((s.strip n).writeState = .writing ∨ (s.strip n).writeState = .latched) then
      [.move s.timeline.counter n p (.mute (flagged op sel set (s.strip n)).mute)] else []) ++
    (s.withFlags op sel set n).turnRecords s n

theorem handedOn_flagsCommit :
    HandedOn p (fun m => decide (m = n)) (flagsRecords p op sel set n s) s (flagsCommit p op sel set n s) := by
  have handed := handedOn_commit (p := p) (n := n) (r := flagged op sel set (s.strip n))
    (written := if sel.getLsbD 0 then [.mute (flagged op sel set (s.strip n)).mute] else []) (reported := true) (s := s)
    (by rfl)
  have records : s.moveRecords p n (if sel.getLsbD 0 then [.mute (flagged op sel set (s.strip n)).mute] else []) =
      if sel.getLsbD 0 = true ∧ ((s.strip n).writeState = .writing ∨ (s.strip n).writeState = .latched) then
        [.move s.timeline.counter n p (.mute (flagged op sel set (s.strip n)).mute)] else [] := by
    unfold State.moveRecords
    by_cases selected : sel.getLsbD 0 = true
    · simp only [selected, true_and, if_true, List.map_cons, List.map_nil]
    · rw [if_neg selected, List.map_nil, ite_self, if_neg fun h => selected h.1]
  rw [records] at handed
  exact handed

theorem strip_flagsCommit : (flagsCommit p op sel set n s).strip n = (s.withFlags op sel set n).turned s n :=
  strip_commit (by rfl)

theorem onlyAt_flagsCommit : OnlyAt n s (flagsCommit p op sel set n s) := .commit ..

/-- The cells after an applied position: cut where the polarity changed, else retargeted (R9, R10). -/
theorem cells_flagsCommit :
    if (flagged op sel set (s.strip n)).inverted = (s.strip n).inverted then
      ∀ c : Channel, ((flagsCommit p op sel set n s).cells n)[c] =
        rampedCell (s.withFlags op sel set n) (flagsCommit p op sel set n s) n c
          (rampedCell s (s.withFlags op sel set n) n c (s.cells n)[c])
    else Cut n s (flagsCommit p op sel set n s) := by
  split
  · next same => exact fun c => cells_commit (r := flagged op sel set (s.strip n)) (s := s) rfl ⟨rfl, rfl, same⟩ c
  · next differs => exact cut_commit (r := flagged op sel set (s.strip n)) (s := s) rfl fun same => differs same.2.2

end Position

/-! ### FLAGS at one position -/

/-- The answer to a FLAGS of one position that is applied. -/
theorem exec_flags_one {p : PortId} {posted : Bool} {surface op sel set : Byte} {s : State} {v : State}
    (h : (s.port p).takes = true) (applied : flagsAt p surface.toNat op sel set (s.modPort p PortState.transacted) = .ok v) :
    exec (.flags p posted surface 1 op sel set) s = .next (concluded posted p 0x02 .ok [1, 0, 0] v) := by
  have one : runNumbers surface 1 = [surface.toNat] := rfl
  have done : flagsDone p surface 1 op sel set (s.modPort p PortState.transacted) =
      (.ok, { results := [none], state := v }) := by
    rw [flagsDone, if_pos (by decide), one, flagsRun, applied]
    rfl
  have items : wFlagsReply [none] = [1, 0, 0] := by
    have counted : ([none] : List (Option Status)).countP (·.isNone) = 1 := rfl
    have mask : ([none] : List (Option Status)).map (·.isSome) = [false] := rfl
    rw [wFlagsReply, counted, mask]
    decide
  rw [exec_flags_arm, execFlags, request_taken h, done]
  dsimp only
  rw [items, if_pos rfl]
  rfl

/-- Settles O23. -/
theorem flagsAtOnePositionWritesTheSelection : Obligations.FlagsAtOnePositionWritesTheSelection := by
  intro p posted surface op sel set n u s h reached opened known live written
  subst written
  have reached' : reachForChange ((s.modPort p PortState.transacted).port p) surface.toNat = .ok n := by
    rw [reachForChange_transacted h, reached]
  have applied := flagsAt_reached (op := op) (sel := sel) (set := set) reached'
  rw [flagsRefusal_open reached' opened known live] at applied
  have handed := handedOn_flagsCommit p op sel set n (s.modPort p PortState.transacted)
  have shown := shown_concluded (posted := posted) h handed 0x02 .ok [1, 0, 0]
  have strip := strip_flagsCommit p op sel set n (s.modPort p PortState.transacted)
  have cells := cells_flagsCommit p op sel set n (s.modPort p PortState.transacted)
  refine ⟨_, exec_flags_one h applied, ?_, shown.queued, ?_, shown.reported,
    onlyStrip_concluded (onlyAt_flagsCommit ..) shown, shown.replied⟩
  · cases posted <;> exact strip
  · cases posted <;> exact cells

end Sys2Proof.Machine

/-!
PROOFS. Changes of strips do not read the reply slot of a port: they commute with a reply (R163, R165).
-/
namespace Sys2Proof.Machine

theorem state_ext_ports {s t : State} (rest : t = { s with ports := t.ports }) (ports : ∀ q, t.port q = s.port q) :
    t = s := by
  have same : t.ports = s.ports := Vector.ext fun i hi => ports ⟨i, hi⟩
  rw [rest, same]

theorem left_raised (x : Option Reply) (r : Reason) (q : PortState) : (q.left x).raised r = (q.raised r).left x := by
  rw [raised_eq, raised_eq]
  rfl

section Commute
variable (p : PortId) (x : Option Reply)

theorem raiseAtRole_leaves (r : Reason) (o : Option PortId) (s : State) :
    raiseAtRole r o (s.leaves p x) = (raiseAtRole r o s).leaves p x := by
  cases o with
  | none => rfl
  | some q =>
    by_cases e : q = p
    · subst e
      refine (modPort_modPort ..).trans (Eq.trans ?_ (modPort_modPort ..).symm)
      exact modPort_congr (left_raised ..)
    · exact modPort_comm e _ _ s

theorem appendTake_leaves (r : TakeRecord) (s : State) : appendTake r (s.leaves p x) = (appendTake r s).leaves p x := by
  rcases Nat.lt_or_ge s.writing.takes.length 1024 with room | full
  · rw [appendTake_room room, appendTake_room (s := s.leaves p x) room]
    have raises (c : Prop) [Decidable c] (t : State) :
        (if c then raiseAtRole .high s.writing.takePort (t.leaves p x) else t.leaves p x) =
          (if c then raiseAtRole .high s.writing.takePort t else t).leaves p x := by
      split
      · exact raiseAtRole_leaves ..
      · rfl
    exact raises _ { s with writing := { s.writing with takes := s.writing.takes ++ [r] } }
  · rw [appendTake_full full, appendTake_full (s := s.leaves p x) full]
    exact raiseAtRole_leaves p x _ _ { s with writing := { s.writing with lost := min 65535 (s.writing.lost + 1) } }

theorem recordMoves_leaves (n : StripNo) (l : List FieldValue) (s : State) :
    recordMoves p n l (s.leaves p x) = (recordMoves p n l s).leaves p x := by
  induction l generalizing s with
  | nil => rfl
  | cons v rest ih =>
    rw [recordMoves_cons, recordMoves_cons, ← ih, appendTake_leaves]
    rfl

theorem report_leaves (n : StripNo) (s : State) : report p n (s.leaves p x) = (report p n s).leaves p x := by
  refine state_ext_ports rfl fun q => ?_
  rw [port_report]
  by_cases e : q = p
  · subst e
    rw [if_pos rfl, leaves_port_self, leaves_port_self, port_report, if_pos rfl]
  · rw [if_neg e, State.leaves, State.leaves, port_modPort_ne _ _ e, port_modPort_ne _ _ e, port_report, if_neg e]

theorem handRetarget_leaves (before : State) (n : StripNo) (s : State) :
    handRetarget before n (s.leaves p x) = (handRetarget before n s).leaves p x := by
  have same : (s.leaves p x).used n = s.used n := rfl
  unfold handRetarget
  rw [same]
  split <;> rfl

theorem handCut_leaves (before : State) (n : StripNo) (s : State) :
    handCut before n (s.leaves p x) = (handCut before n s).leaves p x := by
  have same : (s.leaves p x).strip n = s.strip n := rfl
  unfold handCut
  rw [same]
  split <;> rfl

theorem punchIn_leaves (n : StripNo) (s : State) : punchIn n (s.leaves p x) = (punchIn n s).leaves p x := by
  unfold punchIn
  rw [← handRetarget_leaves, ← appendTake_leaves]
  rfl

theorem endPunch_leaves (reason : PunchReason) (mode : Mode) (n : StripNo) (w : WriteState) (s : State) :
    endPunch reason mode n w (s.leaves p x) = (endPunch reason mode n w s).leaves p x := by
  have record : appendTake (.punchOut (s.leaves p x).timeline.counter n reason) (s.leaves p x) =
      (appendTake (.punchOut s.timeline.counter n reason) s).leaves p x := appendTake_leaves ..
  unfold endPunch
  rw [record]
  rfl

theorem punchOut_leaves (reason : PunchReason) (n : StripNo) (w : WriteState) (s : State) :
    punchOut reason n w (s.leaves p x) = (punchOut reason n w s).leaves p x := by
  unfold punchOut
  rw [← handRetarget_leaves, ← endPunch_leaves]
  rfl

theorem triggerRise_leaves (n : StripNo) (s : State) : triggerRise n (s.leaves p x) = (triggerRise n s).leaves p x := by
  have same : (s.leaves p x).strip n = s.strip n := rfl
  have counting : (s.leaves p x).timeline = s.timeline := rfl
  unfold triggerRise
  rw [same, counting]
  split
  · split
    · exact punchIn_leaves ..
    · rfl
  · split <;> rfl
  all_goals rfl

theorem triggerFall_leaves (n : StripNo) (s : State) : triggerFall n (s.leaves p x) = (triggerFall n s).leaves p x := by
  have same : (s.leaves p x).strip n = s.strip n := rfl
  unfold triggerFall
  rw [same]
  split
  · rfl
  · exact punchOut_leaves ..
  · exact punchOut_leaves ..
  · rfl
  · rfl

theorem triggerChange_leaves (before : State) (n : StripNo) (s : State) :
    triggerChange before n (s.leaves p x) = (triggerChange before n s).leaves p x := by
  have armed : (s.leaves p x).armed n = s.armed n := rfl
  have trigger : (s.leaves p x).trigger n = s.trigger n := rfl
  unfold triggerChange
  rw [armed, trigger]
  split
  · split
    · exact triggerRise_leaves ..
    · exact triggerFall_leaves ..
  · rfl

theorem changed_leaves (n : StripNo) (r : Strip) (written : List FieldValue) (reported : Bool) (s : State) :
    changed p n r written reported (s.leaves p x) = (changed p n r written reported s).leaves p x := by
  have retargeted : handRetarget (s.leaves p x) n ((s.leaves p x).setStrip n r) =
      (handRetarget s n (s.setStrip n r)).leaves p x := handRetarget_leaves p x s n (s.setStrip n r)
  have same : (s.leaves p x).strip n = s.strip n := rfl
  unfold changed
  dsimp only
  rw [retargeted, same]
  by_cases writes : (s.strip n).writeState.punched = true
  · rw [if_pos writes, if_pos writes, recordMoves_leaves, report_leaves]
    split <;> rfl
  · rw [if_neg writes, if_neg writes, report_leaves]
    split <;> rfl

/-- A change of a strip does not read what its request left in the reply slot. -/
theorem commit_leaves (n : StripNo) (r : Strip) (written : List FieldValue) (reported : Bool) (s : State) :
    commit p n r written reported (s.leaves p x) = (commit p n r written reported s).leaves p x := by
  unfold commit
  rw [← handCut_leaves, writeChange_eq, writeChange_eq, changed_leaves, ← triggerChange_leaves]
  rfl

end Commute

end Sys2Proof.Machine

/-!
PROOFS. FLAGS over a run (R21, R22): its positions in turn, and its reply.
-/
namespace Sys2Proof.Machine

/-! ### One position, refused or applied -/

theorem flagsReach_eq_some {p : PortId} {op sel : Byte} {s : State} {k : Nat} {n : StripNo} :
    flagsReach p op sel s k = some n ↔ reachForChange (s.port p) k = .ok n ∧ flagsRefusal p op sel s k = none := by
  unfold flagsReach
  cases reached : reachForChange (s.port p) k with
  | error st => simp
  | ok m => cases refused : flagsRefusal p op sel s k <;> simp

theorem flagsReach_refused {p : PortId} {op sel : Byte} {s : State} {k : Nat} {st : Status}
    (refused : flagsRefusal p op sel s k = some st) : flagsReach p op sel s k = none := by
  unfold flagsReach
  rw [refused]
  cases reachForChange (s.port p) k <;> rfl

theorem flagsRefusal_unreached {p : PortId} {op sel : Byte} {s : State} {k : Nat} {st : Status}
    (fails : reachForChange (s.port p) k = .error st) : flagsRefusal p op sel s k = some st := by
  rw [flagsRefusal, fails]

theorem flagsReach_applied {p : PortId} {op sel : Byte} {s : State} {k : Nat} (applied : flagsRefusal p op sel s k = none) :
    ∃ n, reachForChange (s.port p) k = .ok n ∧ flagsReach p op sel s k = some n := by
  cases reached : reachForChange (s.port p) k with
  | error st => rw [flagsRefusal_unreached reached] at applied; cases applied
  | ok n => exact ⟨n, rfl, flagsReach_eq_some.mpr ⟨reached, applied⟩⟩

theorem translate_ne_ok {q : PortState} {k : Nat} {st : Status} (h : translate q k = .error st) : st ≠ .ok := by
  rintro rfl
  unfold translate at h
  split at h
  · cases h
  · split at h
    · cases h
    · split at h <;> cases h

theorem reachForChange_ne_ok {q : PortState} {k : Nat} {st : Status} (h : reachForChange q k = .error st) : st ≠ .ok := by
  unfold reachForChange at h
  cases e : translate q k with
  | error st' =>
    rw [e] at h
    cases h
    exact translate_ne_ok e
  | ok r =>
    rw [e] at h
    rintro rfl
    dsimp only at h
    split at h <;> cases h

theorem flagsRefusal_ne_ok (p : PortId) (op sel : Byte) (s : State) (k : Nat) : flagsRefusal p op sel s k ≠ some .ok := by
  intro h
  cases reached : reachForChange (s.port p) k with
  | error st =>
    rw [flagsRefusal_unreached reached, Option.some.injEq] at h
    exact reachForChange_ne_ok reached h
  | ok n =>
    rw [flagsRefusal_reached reached] at h
    split at h
    · cases h
    · split at h
      · cases h
      · split at h
        · cases h
        · split at h <;> cases h

/-- The state after one position of FLAGS. -/
def flagsNext (p : PortId) (op sel set : Byte) (k : Nat) (s : State) : State :=
  (flagsReach p op sel s k).elim s fun n => flagsCommit p op sel set n s

theorem flagsAt_refusal {p : PortId} {op sel set : Byte} {s : State} {k : Nat} {st : Status}
    (refused : flagsRefusal p op sel s k = some st) : flagsAt p k op sel set s = .error st := by
  cases reached : reachForChange (s.port p) k with
  | error st' =>
    rw [flagsRefusal_unreached reached] at refused
    cases refused
    exact flagsAt_refused (changeRefusal_unreached reached)
  | ok n => rw [flagsAt_reached reached, refused]

theorem flagsAt_applied {p : PortId} {op sel set : Byte} {s : State} {k : Nat}
    (applied : flagsRefusal p op sel s k = none) : flagsAt p k op sel set s = .ok (flagsNext p op sel set k s) := by
  obtain ⟨n, reached, reach⟩ := flagsReach_applied applied
  rw [flagsAt_reached reached, applied, flagsNext, reach]
  rfl

/-! ### The positions in turn -/

section Run
variable (p : PortId) (op sel set : Byte)

theorem flagsRun_cons (k : Nat) (rest : List Nat) (s : State) :
    flagsRun p op sel set (k :: rest) s =
      { results := flagsRefusal p op sel s k :: (flagsRun p op sel set rest (flagsNext p op sel set k s)).results,
        state := (flagsRun p op sel set rest (flagsNext p op sel set k s)).state } := by
  rw [flagsRun]
  cases refused : flagsRefusal p op sel s k with
  | none => rw [flagsAt_applied refused]
  | some st =>
    have stays : flagsNext p op sel set k s = s := by rw [flagsNext, flagsReach_refused refused]; rfl
    rw [flagsAt_refusal refused, stays]

theorem flagsRun_append (l l' : List Nat) (s : State) :
    flagsRun p op sel set (l ++ l') s =
      { results := (flagsRun p op sel set l s).results ++
          (flagsRun p op sel set l' (flagsRun p op sel set l s).state).results,
        state := (flagsRun p op sel set l' (flagsRun p op sel set l s).state).state } := by
  induction l generalizing s with
  | nil => rfl
  | cons k rest ih => rw [List.cons_append, flagsRun_cons, flagsRun_cons, ih]; rfl

theorem flagsRun_single (k : Nat) (s : State) :
    flagsRun p op sel set [k] s =
      { results := [flagsRefusal p op sel s k], state := flagsNext p op sel set k s } := flagsRun_cons ..

theorem length_flagsRun (l : List Nat) (s : State) : (flagsRun p op sel set l s).results.length = l.length := by
  induction l generalizing s with
  | nil => rfl
  | cons k rest ih => rw [flagsRun_cons, List.length_cons, List.length_cons, ih]

theorem flagsRun_ne_ok (l : List Nat) (s : State) : some .ok ∉ (flagsRun p op sel set l s).results := by
  induction l generalizing s with
  | nil => exact List.not_mem_nil
  | cons k rest ih =>
    rw [flagsRun_cons, List.mem_cons, not_or]
    exact ⟨(flagsRefusal_ne_ok p op sel s k).symm, ih _⟩

theorem onlyStrips_flagsNext (k : Nat) (s : State) : OnlyStrips s (flagsNext p op sel set k s) := by
  unfold flagsNext
  cases flagsReach p op sel s k with
  | none => exact .refl s
  | some n => exact (onlyAt_flagsCommit p op sel set n s).onlyStrips

theorem onlyStrips_flagsRun (l : List Nat) (s : State) : OnlyStrips s (flagsRun p op sel set l s).state := by
  induction l generalizing s with
  | nil => exact .refl s
  | cons k rest ih =>
    rw [flagsRun_cons]
    exact (onlyStrips_flagsNext p op sel set k s).trans (ih _)

end Run

/-! ### The reply (R22) -/

theorem firstFailure_append (l l' : List (Option Status)) :
    firstFailure (l ++ l') = (firstFailure l).or (firstFailure l') := by
  induction l with
  | nil => rfl
  | cons o rest ih => cases o with
    | none => exact ih
    | some st => rfl

theorem firstFailure_mem {l : List (Option Status)} {st : Status} (h : firstFailure l = some st) : some st ∈ l := by
  induction l with
  | nil => cases h
  | cons o rest ih => cases o with
    | none => exact List.mem_cons_of_mem _ (ih h)
    | some st' => cases h; exact List.mem_cons_self

/-- The status of a run: that of its lowest refused position. -/
def runStatus (l : List (Option Status)) : Status := (firstFailure l).getD .ok

theorem runStatus_snoc {l : List (Option Status)} (never : some .ok ∉ l) (o : Option Status) :
    runStatus (l ++ [o]) = if runStatus l = .ok then o.getD .ok else runStatus l := by
  have last : firstFailure [o] = o := by cases o <;> rfl
  rw [runStatus, runStatus, firstFailure_append, last]
  cases failure : firstFailure l with
  | none => rfl
  | some st =>
    have ne : st ≠ .ok := fun e => never (e ▸ firstFailure_mem failure)
    exact (if_neg (by simpa using ne)).symm

/-- The refusal mask of a run, bit `k` for position `k`. -/
def refusalMask (l : List (Option Status)) : BitVec 16 := (BitVec.ofBoolListLE (l.map (·.isSome))).setWidth 16

theorem wFlagsReply_eq (l : List (Option Status)) :
    wFlagsReply l = BitVec.ofNat 8 (l.countP (·.isNone)) :: bytes2 (refusalMask l) := rfl

theorem refusalMask_bit (l : List (Option Status)) (i : Nat) :
    (refusalMask l).getLsbD i = (decide (i < 16) && (l[i]?.map (·.isSome)).getD false) := by
  rw [refusalMask, BitVec.getLsbD_setWidth, BitVec.getLsbD_ofBoolListLE, List.getD_eq_getElem?_getD, List.getElem?_map]

theorem refusalMask_snoc (l : List (Option Status)) (o : Option Status) :
    refusalMask (l ++ [o]) = refusalMask l ||| (refusalMask [o] <<< l.length) := by
  refine BitVec.eq_of_getLsbD_eq fun i hi => ?_
  rw [BitVec.getLsbD_or, BitVec.getLsbD_shiftLeft, refusalMask_bit, refusalMask_bit, refusalMask_bit]
  rcases Nat.lt_trichotomy i l.length with before | here | after
  · simp [hi, before, List.getElem?_append_left before]
  · subst here
    simp [hi]
  · have past : l.length + 1 ≤ i := after
    have none_at : (l ++ [o])[i]? = none := List.getElem?_eq_none (by simpa using past)
    have none_at' : l[i]? = none := List.getElem?_eq_none (by omega)
    have none_last : ([o] : List (Option Status))[i - l.length]? = none :=
      List.getElem?_eq_none (by rw [List.length_singleton]; omega)
    rw [none_at, none_at', none_last]
    simp

/-! ### The request -/

/-- An idle port after an answer. -/
theorem answer_idle {p : PortId} {v : State} (idle : (v.port p).transaction = .idle) (out : (v.port p).shiftOut = [])
    (code : Byte) (st : Status) (items : List Byte) : answer p code st items v = v.leaves p (reply code st items) := by
  refine modPort_congr ?_
  rw [PortState.left, ← idle, ← out]
  rfl

theorem leaves_again (v : State) (p : PortId) (x y : Option Reply) : (v.leaves p x).leaves p y = v.leaves p y :=
  modPort_modPort ..

theorem idle_transacted {p : PortId} {s v : State} (h : (s.port p).takes = true)
    (only : OnlyStrips (s.modPort p PortState.transacted) v) :
    (v.port p).transaction = .idle ∧ (v.port p).shiftOut = [] ∧
      (v.port p).replySlot = if (s.port p).transaction = .idle then none else (s.port p).replySlot := by
  rw [only.ports p, port_transacted h]
  exact ⟨rfl, rfl, rfl⟩

section Request
variable {p : PortId} {start count op sel set : Byte} {s : State}

/-- The run of a FLAGS request. -/
abbrev flagsRunOf (p : PortId) (start count op sel set : Byte) (s : State) : FlagsRun :=
  flagsRun p op sel set (runNumbers start count) (s.modPort p PortState.transacted)

theorem flagsDone_run (small : 1 ≤ count.toNat ∧ count.toNat ≤ 16) :
    flagsDone p start count op sel set (s.modPort p PortState.transacted) =
      (runStatus (flagsRunOf p start count op sel set s).results, flagsRunOf p start count op sel set s) := by
  rw [flagsDone, if_pos ((countOk_iff count).mpr small)]
  rfl

theorem exec_flags_posted (h : (s.port p).takes = true) (small : 1 ≤ count.toNat ∧ count.toNat ≤ 16) :
    exec (.flags p true start count op sel set) s =
      .next (if runStatus (flagsRunOf p start count op sel set s).results = .ok
        then (flagsRunOf p start count op sel set s).state
        else countRefusal p (flagsRunOf p start count op sel set s).state) := by
  rw [exec_flags_arm, execFlags, request_taken h, flagsDone_run small]
  rfl

theorem exec_flags_answered (h : (s.port p).takes = true) (small : 1 ≤ count.toNat ∧ count.toNat ≤ 16) :
    exec (.flags p false start count op sel set) s =
      .next ((flagsRunOf p start count op sel set s).state.leaves p
        (reply 0x02 (runStatus (flagsRunOf p start count op sel set s).results)
          (wFlagsReply (flagsRunOf p start count op sel set s).results))) := by
  obtain ⟨idle, out, -⟩ := idle_transacted h (onlyStrips_flagsRun p op sel set (runNumbers start count)
    (s.modPort p PortState.transacted))
  rw [exec_flags_arm, execFlags, request_taken h, flagsDone_run small, ← answer_idle idle out]
  rfl

theorem exec_flags_miscounted (h : (s.port p).takes = true) (bad : ¬(1 ≤ count.toNat ∧ count.toNat ≤ 16)) :
    exec (.flags p false start count op sel set) s = .next (s.leaves p (reply 0x02 .range [0, 0, 0])) ∧
      ∃ t, exec (.flags p true start count op sel set) s = .next t ∧ CountedOnce p s t := by
  have done : flagsDone p start count op sel set (s.modPort p PortState.transacted) =
      (.range, { results := [], state := s.modPort p PortState.transacted }) := by
    rw [flagsDone, if_neg fun ok => bad ((countOk_iff count).mp ok)]
  have items : wFlagsReply [] = [0, 0, 0] := by decide
  refine ⟨?_, _, ?_, countedOnce_countRefusal h⟩
  · rw [exec_flags_arm, execFlags]
    refine request_leaves h rfl ?_
    rw [done, ← items]
    rfl
  · rw [exec_flags_arm, execFlags, request_taken h, done]
    rfl

/-! ### A run and its last position -/

theorem flagsRefusal_leaves (x : Option Reply) (v : State) (k : Nat) :
    flagsRefusal p op sel (v.leaves p x) k = flagsRefusal p op sel v k := by
  have reach : reachForChange ((v.leaves p x).port p) k = reachForChange (v.port p) k := by
    rw [leaves_port_self]
    rfl
  rw [flagsRefusal, flagsRefusal, reach]
  rfl

theorem flagsNext_leaves (x : Option Reply) (v : State) (k : Nat) :
    flagsNext p op sel set k (v.leaves p x) = (flagsNext p op sel set k v).leaves p x := by
  have reach : reachForChange ((v.leaves p x).port p) k = reachForChange (v.port p) k := by
    rw [leaves_port_self]
    rfl
  have same : flagsReach p op sel (v.leaves p x) k = flagsReach p op sel v k := by
    rw [flagsReach, flagsReach, reach, flagsRefusal_leaves]
  rw [flagsNext, flagsNext, same]
  cases flagsReach p op sel v k with
  | none => rfl
  | some n => exact commit_leaves ..

/-- A port that has just answered takes its next request with an empty slot. -/
theorem leaves_transacted {v : State} {x : Option Reply} (on : (v.port p).attached = true) :
    ((v.leaves p x).port p).takes = true ∧ (v.leaves p x).modPort p PortState.transacted = v.leaves p none := by
  have takes : ((v.leaves p x).port p).takes = true := by
    rw [leaves_port_self, PortState.takes]
    exact Bool.and_eq_true_iff.mpr ⟨on, rfl⟩
  refine ⟨takes, Eq.trans ?_ (leaves_again v p x none)⟩
  refine modPort_congr ?_
  rw [transacted_taken takes, leaves_port_self]
  rfl

theorem runNumbers_succ (small : count.toNat < 16) :
    runNumbers start (count + 1) = runNumbers start count ++ [start.toNat + count.toNat] := by
  have next : (count + 1).toNat = count.toNat + 1 := by
    rw [BitVec.toNat_add, show ((1 : Byte)).toNat = 1 from rfl]
    omega
  rw [runNumbers, runNumbers, next, List.range'_concat]
  simp

theorem attached_flagsRun (h : (s.port p).takes = true) (l : List Nat) :
    ((flagsRun p op sel set l (s.modPort p PortState.transacted)).state.port p).attached = true := by
  rw [(onlyStrips_flagsRun p op sel set l _).ports p, port_transacted h]
  exact (Bool.and_eq_true_iff.mp h).1

/-- A run of one more is the run, and then its last position. -/
theorem exec_flags_succ (h : (s.port p).takes = true) (small : 1 ≤ count.toNat ∧ count.toNat < 16) :
    let run := flagsRunOf p start count op sel set s
    let k := start.toNat + count.toNat
    exec (.flags p false start (count + 1) op sel set) s =
      .next ((flagsNext p op sel set k run.state).leaves p
        (reply 0x02
          (if runStatus run.results = .ok then (flagsRefusal p op sel run.state k).getD .ok else runStatus run.results)
          ((BitVec.ofNat 8 (run.results.countP (·.isNone)) +
              BitVec.ofNat 8 ([flagsRefusal p op sel run.state k].countP (·.isNone))) ::
            bytes2 (refusalMask run.results |||
              (refusalMask [flagsRefusal p op sel run.state k] <<< count.toNat))))) := by
  intro run k
  have next : (count + 1).toNat = count.toNat + 1 := by
    rw [BitVec.toNat_add, show ((1 : Byte)).toNat = 1 from rfl]
    omega
  have numbers := runNumbers_succ (start := start) small.2
  have size : run.results.length = count.toNat := by
    rw [length_flagsRun, runNumbers, List.length_range']
  have whole : flagsRunOf p start (count + 1) op sel set s =
      { results := run.results ++ [flagsRefusal p op sel run.state k], state := flagsNext p op sel set k run.state } := by
    rw [flagsRunOf, numbers, flagsRun_append, flagsRun_single]
  rw [exec_flags_answered h ⟨by omega, by omega⟩, whole]
  dsimp only
  rw [runStatus_snoc (flagsRun_ne_ok p op sel set _ _), wFlagsReply_eq, refusalMask_snoc, size, List.countP_append, BitVec.ofNat_add]

theorem refusalMask_refused (st : Status) : refusalMask [some st] = 1 := by
  refine BitVec.eq_of_getLsbD_eq fun i hi => ?_
  rw [refusalMask_bit]
  cases i <;> simp

/-- A last position beyond surface number 255 is refused with RANGE. -/
theorem exec_flags_succ_far (h : (s.port p).takes = true) (small : 1 ≤ count.toNat ∧ count.toNat < 16)
    (far : 255 < start.toNat + count.toNat) :
    let run := flagsRunOf p start count op sel set s
    exec (.flags p false start (count + 1) op sel set) s =
      .next (run.state.leaves p
        (reply 0x02 (if runStatus run.results = .ok then .range else runStatus run.results)
          (BitVec.ofNat 8 (run.results.countP (·.isNone)) ::
            bytes2 (refusalMask run.results ||| (1 <<< count.toNat))))) := by
  intro run
  have refused : flagsRefusal p op sel run.state (start.toNat + count.toNat) = some .range := by
    refine flagsRefusal_unreached ?_
    rw [reachForChange, translate, if_pos far]
  have stays : flagsNext p op sel set (start.toNat + count.toNat) run.state = run.state := by
    rw [flagsNext, flagsReach_refused refused]
    rfl
  have last : ([some Status.range] : List (Option Status)).countP (·.isNone) = 0 := rfl
  refine (exec_flags_succ h small).trans ?_
  rw [refused, stays, last, refusalMask_refused, BitVec.add_zero]
  rfl

/-- The last position alone, asked for at the state that the shorter run left. -/
theorem exec_flags_last (h : (s.port p).takes = true) (near : start.toNat + count.toNat ≤ 255) (x : Option Reply) :
    let run := flagsRunOf p start count op sel set s
    let k := start.toNat + count.toNat
    exec (.flags p false (start + count) 1 op sel set) (run.state.leaves p x) =
      .next ((flagsNext p op sel set k run.state).leaves p
        (reply 0x02 ((flagsRefusal p op sel run.state k).getD .ok)
          (BitVec.ofNat 8 ([flagsRefusal p op sel run.state k].countP (·.isNone)) ::
            bytes2 (refusalMask [flagsRefusal p op sel run.state k])))) := by
  intro run k
  obtain ⟨takes, transacted⟩ := leaves_transacted (p := p) (v := run.state) (x := x) (attached_flagsRun h _)
  have number : (start + count).toNat = k := by
    rw [BitVec.toNat_add]
    omega
  have single : flagsRunOf p (start + count) 1 op sel set (run.state.leaves p x) =
      { results := [flagsRefusal p op sel run.state k], state := (flagsNext p op sel set k run.state).leaves p none } := by
    have numbers : runNumbers (start + count) 1 = [k] := by rw [runNumbers, number]; rfl
    rw [flagsRunOf, numbers, transacted, flagsRun_single, flagsRefusal_leaves, flagsNext_leaves]
  have status : runStatus [flagsRefusal p op sel run.state k] = (flagsRefusal p op sel run.state k).getD .ok := by
    cases flagsRefusal p op sel run.state k <;> rfl
  rw [exec_flags_answered takes (by decide), single]
  dsimp only
  rw [leaves_again, status, wFlagsReply_eq]

/-- A posted run leaves what the answered one leaves, but for the reply and the count of a refusal (R172). -/
theorem exec_flags_posted_of_answered (h : (s.port p).takes = true) (small : 1 ≤ count.toNat ∧ count.toNat ≤ 16)
    (x : Option Reply) :
    let run := flagsRunOf p start count op sel set s
    exec (.flags p true start count op sel set) s =
      .next ((run.state.leaves p x).modPort p fun q =>
        { q with
          replySlot := if (s.port p).transaction = .idle then none else (s.port p).replySlot,
          refusals := if runStatus run.results = .ok then q.refusals else min 255 (q.refusals + 1),
          pendingSet := if runStatus run.results = .ok then q.pendingSet else q.pendingSet ||| 0x400#12 }) := by
  intro run
  obtain ⟨idle, out, slot⟩ := idle_transacted h (onlyStrips_flagsRun p op sel set (runNumbers start count)
    (s.modPort p PortState.transacted))
  have on := attached_flagsRun (op := op) (sel := sel) (set := set) h (runNumbers start count)
  refine (exec_flags_posted h small).trans (congrArg Host.Outcome.next ?_)
  refine Eq.trans ?_ (modPort_modPort ..).symm
  by_cases ok : runStatus run.results = .ok
  · rw [if_pos ok]
    refine Eq.trans (modPort_id run.state p).symm (modPort_congr ?_)
    dsimp only [PortState.left]
    rw [if_pos ok, if_pos ok, ← slot, ← idle, ← out]
    rfl
  · rw [if_neg ok]
    refine modPort_congr ?_
    dsimp only [PortState.left]
    rw [if_neg ok, if_neg ok, ← slot, ← idle, ← out, raised_eq]
    dsimp only
    rw [if_pos on]
    rfl

end Request

end Sys2Proof.Machine

/-!
PROOFS. FLAGS over a run (R21): what all its positions together do to the strips, the cells, the take queue and the watches.
-/
namespace Sys2Proof.Machine

/-! ### Flags written twice (R21) -/

theorem flagTurned_twice (op : Byte) (selected inSet old : Bool) :
    flagTurned op selected inSet (flagTurned op selected inSet old) = flagTurned op selected inSet old := by
  unfold flagTurned
  split <;> rfl

theorem flagged_twice (op sel set : Byte) (r : Strip) : flagged op sel set (flagged op sel set r) = flagged op sel set r := by
  simp only [flagged, flagTurned_twice]

theorem strip_withFlags (s : State) (op sel set : Byte) (m : StripNo) :
    (s.withFlags op sel set m).strip m = flagged op sel set (s.strip m) := strip_setStrip_self ..

/-- Where LINE-PUNCH is not selected, the flags turn no trigger. -/
theorem turned_withFlags {s : State} {op sel set : Byte} {m : StripNo} (line : sel.getLsbD 2 = false) :
    (s.withFlags op sel set m).turned s m = flagged op sel set (s.strip m) ∧
      (s.withFlags op sel set m).turnRecords s m = [] :=
  turned_untriggered rfl (by simp only [flagged, flagTurned, line]; rfl)

/-! ### What a run has done -/

/-- The cells of strip `m` after the flags are written: cut where the polarity changed, else retargeted (R9, R10). -/
def FlagCells (op sel set : Byte) (m : StripNo) (s t : State) : Prop :=
  if ((s.withFlags op sel set m).strip m).inverted ≠ (s.strip m).inverted then Cut m s t
  else ∀ c : Channel, (t.cells m)[c] =
    rampedCell (s.withFlags op sel set m) t m c (rampedCell s (s.withFlags op sel set m) m c (s.cells m)[c])

theorem FlagCells.kept {op sel set : Byte} {m : StripNo} {s t u : State} (h : FlagCells op sel set m s t)
    (only : OnlyStrips t u) (strip : u.strip m = t.strip m) (cells : u.cells m = t.cells m) :
    FlagCells op sel set m s u := by
  unfold FlagCells at *
  split
  · next turned =>
    rw [if_pos turned] at h
    intro c
    rw [cells, only.target strip]
    exact h c
  · next same =>
    rw [if_neg same] at h
    intro c
    rw [cells, h c]
    exact rampedCell_congr rfl rfl (only.used strip).symm (only.target strip c).symm _

section Run
variable (p : PortId) (op sel set : Byte) (start : Nat)

/-- A position among the first `j` of the run reaches strip `m`. -/
def Flagged (s : State) (j : Nat) (m : StripNo) : Prop := ∃ i ∈ List.range j, flagsReach p op sel s (start + i) = some m

/-- What the first `j` positions of a run have done. -/
structure RunDone (j : Nat) (s t : State) : Prop where
  only : OnlyStrips s t
  applied : ∀ m, Flagged p op sel start s j m → t.strip m = (s.withFlags op sel set m).turned s m
  passed : ∀ m, ¬Flagged p op sel start s j m → t.strip m = s.strip m ∧ t.cells m = s.cells m
  cells : ∀ m, Flagged p op sel start s j m → FlagCells op sel set m s t
  handed : ∀ hit : StripNo → Bool, (∀ m, hit m = true ↔ Flagged p op sel start s j m) →
    HandedOn p hit ((List.range j).flatMap fun i => match flagsReach p op sel s (start + i) with
      | some m => flagsRecords p op sel set m s
      | none => []) s t

variable {p op sel set start}

theorem flagged_succ {s : State} {j : Nat} {m : StripNo} :
    Flagged p op sel start s (j + 1) m ↔ Flagged p op sel start s j m ∨ flagsReach p op sel s (start + j) = some m := by
  unfold Flagged
  simp only [List.range_succ, List.mem_append, List.mem_singleton]
  constructor
  · rintro ⟨i, hi | rfl, h⟩
    · exact .inl ⟨i, hi, h⟩
    · exact .inr h
  · rintro (⟨i, hi, h⟩ | h)
    · exact ⟨i, .inl hi, h⟩
    · exact ⟨j, .inr rfl, h⟩

theorem runDone_zero (s : State) : RunDone p op sel set start 0 s s := by
  have nothing : ∀ m, ¬Flagged p op sel start s 0 m := by
    rintro m ⟨i, hi, -⟩
    exact absurd hi (by simp)
  refine ⟨.refl s, fun m h => absurd h (nothing m), fun _ _ => ⟨rfl, rfl⟩, fun m h => absurd h (nothing m),
    fun hit hits => ?_⟩
  have none_hit : hit = fun _ => false := funext fun m => by
    rw [← Bool.not_eq_true, hits]
    exact nothing m
  rw [none_hit]
  exact handedOn_nothing (fun _ => rfl) rfl rfl

/-- What the checks of a position read of its strip stands as it stood before the run. -/
theorem RunDone.checks {j : Nat} {s t : State} (done : RunDone p op sel set start j s t) {n : StripNo}
    (fresh : sel.getLsbD 2 = false ∨ ¬Flagged p op sel start s j n) :
    (t.strip n).holder = (s.strip n).holder ∧ (t.strip n).toucher = (s.strip n).toucher ∧
      (t.strip n).mode = (s.strip n).mode ∧ (t.strip n).writeState = (s.strip n).writeState := by
  by_cases before : Flagged p op sel start s j n
  · have line := fresh.resolve_right (not_not.mpr before)
    rw [done.applied n before, (turned_withFlags line).1]
    exact ⟨rfl, rfl, rfl, rfl⟩
  · rw [(done.passed n before).1]
    exact ⟨rfl, rfl, rfl, rfl⟩

theorem RunDone.translates {j : Nat} {s t : State} (done : RunDone p op sel set start j s t) (k : Nat) :
    reachForChange (t.port p) k = reachForChange (s.port p) k := by
  rw [done.only.ports p]
  rfl

theorem RunDone.refusal {j : Nat} {s t : State} (done : RunDone p op sel set start j s t) {k : Nat}
    (fresh : ∀ n, reachForChange (s.port p) k = .ok n → sel.getLsbD 2 = false ∨ ¬Flagged p op sel start s j n) :
    flagsRefusal p op sel t k = flagsRefusal p op sel s k := by
  have reach := done.translates k
  cases reached : reachForChange (s.port p) k with
  | error st => rw [flagsRefusal_unreached reached, flagsRefusal_unreached (reach.trans reached)]
  | ok n =>
    obtain ⟨holder, toucher, mode, state⟩ := done.checks (fresh n reached)
    have live : t.writesLive n ↔ s.writesLive n := by
      unfold State.writesLive
      rw [done.only.playback, mode, state]
    rw [flagsRefusal_reached reached, flagsRefusal_reached (reach.trans reached)]
    refine if_congr (by rw [holder]) rfl (if_congr (by rw [toucher]) rfl (if_congr ?_ rfl rfl))
    rw [live]

theorem RunDone.reaches {j : Nat} {s t : State} (done : RunDone p op sel set start j s t) {k : Nat}
    (fresh : ∀ n, reachForChange (s.port p) k = .ok n → sel.getLsbD 2 = false ∨ ¬Flagged p op sel start s j n) :
    flagsReach p op sel t k = flagsReach p op sel s k := by
  rw [flagsReach, flagsReach, done.translates, done.refusal fresh]

/-- A position at a strip that no earlier position reached does what it would have done at first. -/
theorem RunDone.first {j : Nat} {s t : State} (done : RunDone p op sel set start j s t) {n : StripNo}
    (before : ¬Flagged p op sel start s j n) :
    (flagsCommit p op sel set n t).strip n = (s.withFlags op sel set n).turned s n ∧
      FlagCells op sel set n s (flagsCommit p op sel set n t) ∧
      flagsRecords p op sel set n t = flagsRecords p op sel set n s := by
  obtain ⟨strip, cells⟩ := done.passed n before
  have written : (t.withFlags op sel set n).strip n = (s.withFlags op sel set n).strip n := by
    rw [strip_withFlags, strip_withFlags, strip]
  have pressing := pressing_congr strip done.only.timeline
  have timeline : (t.withFlags op sel set n).timeline = (s.withFlags op sel set n).timeline := done.only.timeline
  have playback : (t.withFlags op sel set n).playback = (s.withFlags op sel set n).playback := done.only.playback
  have busTable : (t.withFlags op sel set n).busTable = (s.withFlags op sel set n).busTable := done.only.busTable
  refine ⟨(strip_flagsCommit ..).trans (turned_congr written timeline playback busTable pressing), ?_, ?_⟩
  · have used : (t.withFlags op sel set n).used n = (s.withFlags op sel set n).used n :=
      used_congr written (by rw [playback])
    have target : ∀ c, (t.withFlags op sel set n).target n c = (s.withFlags op sel set n).target n c := fun c =>
      target_congr written (by rw [playback]) (by rw [busTable]) (by rw [busTable]) c
    have length : t.engine.rampLength = s.engine.rampLength := by rw [done.only.engine]
    have after := cells_flagsCommit p op sel set n t
    rw [strip] at after
    unfold FlagCells
    rw [strip_withFlags]
    by_cases same : (flagged op sel set (s.strip n)).inverted = (s.strip n).inverted
    · rw [if_pos same] at after
      rw [if_neg (not_not.mpr same)]
      intro c
      rw [after c, cells]
      rw [rampedCell_congr (done.only.used strip) length used (target c)]
      exact rampedCell_congr used length rfl rfl _
    · rw [if_neg same] at after
      rw [if_pos same]
      intro c
      rw [after c, cells]
  · unfold flagsRecords
    rw [turnRecords_congr written timeline playback busTable pressing, done.only.timeline]
    simp only [strip]

/-- A position at a strip that was flagged already, LINE-PUNCH not selected, leaves the strip as it is. -/
theorem RunDone.again {j : Nat} {s t : State} (done : RunDone p op sel set start j s t) {n : StripNo}
    (line : sel.getLsbD 2 = false) (before : Flagged p op sel start s j n) :
    (flagsCommit p op sel set n t).strip n = t.strip n ∧ (flagsCommit p op sel set n t).cells n = t.cells n ∧
      flagsRecords p op sel set n t = flagsRecords p op sel set n s := by
  have strip : t.strip n = flagged op sel set (s.strip n) := (done.applied n before).trans (turned_withFlags line).1
  have twice : flagged op sel set (t.strip n) = t.strip n := by rw [strip, flagged_twice]
  have stays : (flagsCommit p op sel set n t).strip n = t.strip n :=
    (strip_flagsCommit ..).trans ((turned_withFlags line).1.trans twice)
  refine ⟨stays, ?_, ?_⟩
  · have cells := cells_flagsCommit p op sel set n t
    rw [twice, if_pos rfl] at cells
    have used : (t.withFlags op sel set n).used n = t.used n :=
      used_congr ((strip_withFlags ..).trans twice) rfl
    have used' : (flagsCommit p op sel set n t).used n = (t.withFlags op sel set n).used n :=
      (used_congr stays (by rw [(onlyAt_flagsCommit p op sel set n t).playback])).trans used.symm
    refine Vector.ext fun i hi => ?_
    have cell := cells ⟨i, hi⟩
    rw [rampedCell_same used', rampedCell_same used] at cell
    exact cell
  · unfold flagsRecords
    rw [(turned_withFlags line).2, (turned_withFlags line).2, done.only.timeline, twice]
    simp only [strip, flagged]

/-- One more position. -/
theorem RunDone.next {j : Nat} {s t : State} (done : RunDone p op sel set start j s t)
    (fresh : sel.getLsbD 2 = false ∨ ∀ n, flagsReach p op sel s (start + j) = some n → ¬Flagged p op sel start s j n)
    (same : flagsReach p op sel t (start + j) = flagsReach p op sel s (start + j)) :
    RunDone p op sel set start (j + 1) s (flagsNext p op sel set (start + j) t) := by
  unfold flagsNext
  rw [same]
  cases reach : flagsReach p op sel s (start + j) with
  | none =>
    have flagged_iff : ∀ m, Flagged p op sel start s (j + 1) m ↔ Flagged p op sel start s j m := fun m => by
      rw [flagged_succ, reach]; simp
    refine ⟨done.only, fun m h => done.applied m ((flagged_iff m).mp h), fun m h => done.passed m (mt (flagged_iff m).mpr h),
      fun m h => done.cells m ((flagged_iff m).mp h), fun hit hits => ?_⟩
    have handed := done.handed hit fun m => (hits m).trans (flagged_iff m)
    rw [List.range_succ, List.flatMap_append, List.flatMap_singleton, reach, List.append_nil]
    exact handed
  | some n =>
    have flagged_iff : ∀ m, Flagged p op sel start s (j + 1) m ↔ Flagged p op sel start s j m ∨ m = n := fun m => by
      rw [flagged_succ, reach, Option.some.injEq, eq_comm (a := n)]
    have only := onlyAt_flagsCommit p op sel set n t
    have here : (flagsCommit p op sel set n t).strip n = (s.withFlags op sel set n).turned s n ∧
        FlagCells op sel set n s (flagsCommit p op sel set n t) ∧
        flagsRecords p op sel set n t = flagsRecords p op sel set n s := by
      by_cases before : Flagged p op sel start s j n
      · have line := fresh.resolve_right fun h => h n reach before
        obtain ⟨strip, cells, records⟩ := done.again line before
        exact ⟨strip.trans (done.applied n before), (done.cells n before).kept only.onlyStrips strip cells, records⟩
      · exact done.first before
    obtain ⟨strip, cells, records⟩ := here
    refine ⟨done.only.trans only.onlyStrips, fun m h => ?_, fun m h => ?_, fun m h => ?_, fun hit hits => ?_⟩
    · by_cases e : m = n
      · rw [e]; exact strip
      · exact (only.strips m e).trans (done.applied m (((flagged_iff m).mp h).resolve_right e))
    · have e : m ≠ n := fun e => h ((flagged_iff m).mpr (.inr e))
      obtain ⟨strip', cells'⟩ := done.passed m fun before => h ((flagged_iff m).mpr (.inl before))
      exact ⟨(only.strips m e).trans strip', (only.cells m e).trans cells'⟩
    · by_cases e : m = n
      · rw [e]; exact cells
      · exact (done.cells m (((flagged_iff m).mp h).resolve_right e)).kept only.onlyStrips (only.strips m e) (only.cells m e)
    · classical
      have handed := (done.handed (fun m => decide (Flagged p op sel start s j m)) fun m => by simp).trans
        (handedOn_flagsCommit p op sel set n t)
      have hit_eq : hit = fun m => decide (Flagged p op sel start s j m) || decide (m = n) := funext fun m => by
        rw [Bool.eq_iff_iff, hits, flagged_iff]
        simp
      rw [List.range_succ, List.flatMap_append, List.flatMap_singleton, reach, hit_eq]
      rw [records] at handed
      exact handed

variable (p op sel set start)

/-- Where LINE-PUNCH is not selected, or no two positions reach one strip, a run does what its positions would each have
done at first, and refuses what it would have refused at first. -/
theorem flagsRun_done (s : State) (count : Nat)
    (distinct : sel.getLsbD 2 = false ∨ ∀ i ∈ List.range count, ∀ j ∈ List.range count,
      flagsReach p op sel s (start + i) ≠ none →
      flagsReach p op sel s (start + i) = flagsReach p op sel s (start + j) → i = j) (j : Nat) (inside : j ≤ count) :
    RunDone p op sel set start j s (flagsRun p op sel set (List.range' start j) s).state ∧
      (flagsRun p op sel set (List.range' start j) s).results =
        (List.range j).map fun i => flagsRefusal p op sel s (start + i) := by
  induction j with
  | zero => exact ⟨runDone_zero s, rfl⟩
  | succ j ih =>
    obtain ⟨done, results⟩ := ih (by omega)
    have fresh : sel.getLsbD 2 = false ∨
        ∀ n, flagsReach p op sel s (start + j) = some n → ¬Flagged p op sel start s j n := by
      refine distinct.imp_right fun apart n reach => ?_
      rintro ⟨i, hi, reach'⟩
      have less := List.mem_range.mp hi
      have e := apart i (List.mem_range.mpr (by omega)) j (List.mem_range.mpr (by omega)) (by rw [reach']; simp)
        (reach'.trans reach.symm)
      omega
    have range : List.range' start (j + 1) = List.range' start j ++ [start + j] := by
      rw [List.range'_concat]
      simp
    rw [range, flagsRun_append, flagsRun_single]
    have refusal : flagsRefusal p op sel (flagsRun p op sel set (List.range' start j) s).state (start + j) =
        flagsRefusal p op sel s (start + j) := by
      refine done.refusal fun n reached => fresh.imp_right fun apart before => ?_
      obtain ⟨i, hi, reach⟩ := before
      obtain ⟨reached', applied⟩ := flagsReach_eq_some.mp reach
      rw [flagsRefusal_reached reached', ← flagsRefusal_reached reached] at applied
      exact apart n (flagsReach_eq_some.mpr ⟨reached, applied⟩) ⟨i, hi, reach⟩
    have same : flagsReach p op sel (flagsRun p op sel set (List.range' start j) s).state (start + j) =
        flagsReach p op sel s (start + j) := by
      rw [flagsReach, flagsReach, done.translates, refusal]
    refine ⟨done.next fresh same, ?_⟩
    dsimp only
    rw [results, refusal, List.range_succ, List.map_append, List.map_singleton]

end Run

end Sys2Proof.Machine

/-!
PROOFS. FLAGS over a run: its reply over the positions, and what its port shows (R22, R172).
-/
namespace Sys2Proof.Machine

/-! ### The reply over the positions (R22) -/

theorem firstFailure_map {α : Type} (f : α → Option Status) (l : List α) : firstFailure (l.map f) = l.findSome? f := by
  induction l with
  | nil => rfl
  | cons a rest ih =>
    rw [List.map_cons, List.findSome?_cons]
    cases f a with
    | none => exact ih
    | some st => rfl

theorem runStatus_map {α : Type} (f : α → Option Status) (l : List α) :
    runStatus (l.map f) = (l.findSome? f).getD .ok := by rw [runStatus, firstFailure_map]

theorem runStatus_ok_iff {l : List (Option Status)} (never : some .ok ∉ l) : runStatus l = .ok ↔ ∀ o ∈ l, o = none := by
  induction l with
  | nil => simp [runStatus, firstFailure]
  | cons o rest ih =>
    rw [List.mem_cons, not_or] at never
    rw [List.forall_mem_cons, ← ih never.2]
    cases o with
    | none => simp [runStatus]
    | some st =>
      have ne : st ≠ .ok := fun e => never.1 (by rw [e])
      simp [runStatus, ne]

theorem toNat_ofBoolListLE (l : List Bool) :
    (BitVec.ofBoolListLE l).toNat = ((List.range l.length).map fun i => if l.getD i false then 2 ^ i else 0).sum := by
  induction l with
  | nil => rfl
  | cons b rest ih =>
    have shift : ((List.range rest.length).map fun i => if (b :: rest).getD (i + 1) false then 2 ^ (i + 1) else 0) =
        (List.range rest.length).map fun i => 2 * if rest.getD i false then 2 ^ i else 0 :=
      List.map_congr_left fun i _ => by
        rw [List.getD_cons_succ]
        split
        · rw [Nat.pow_succ, Nat.mul_comm]
        · rfl
    rw [BitVec.ofBoolListLE, BitVec.toNat_concat, ih, List.length_cons, List.range_succ_eq_map, List.map_cons,
      List.map_map, List.sum_cons]
    have tail := congrArg List.sum shift
    rw [List.sum_map_mul_left] at tail
    simp only [Function.comp_def, Nat.succ_eq_add_one]
    rw [tail]
    cases b <;> simp <;> omega

/-- The mask of a run as a sum of the bits of its refused positions. -/
theorem refusalMask_map (f : Nat → Option Status) (count : Nat) :
    refusalMask ((List.range count).map f) =
      BitVec.ofNat 16 ((List.range count).map fun i => if (f i).isSome then 2 ^ i else 0).sum := by
  refine BitVec.eq_of_toNat_eq ?_
  rw [refusalMask, BitVec.toNat_setWidth, toNat_ofBoolListLE, BitVec.toNat_ofNat]
  simp only [List.length_map, List.length_range]
  refine congrArg (· % _) (congrArg List.sum (List.map_congr_left fun i hi => ?_))
  have small := List.mem_range.mp hi
  rw [List.getD_eq_getElem?_getD]
  simp [small]

/-! ### What the ports show of a posted run that was refused in part (R172) -/

section Refused
variable {p : PortId} {v : State}

theorem port_countRefusal (on : (v.port p).attached = true) :
    (countRefusal p v).port p =
      { v.port p with
        refusals := min 255 ((v.port p).refusals + 1), pendingSet := (v.port p).pendingSet ||| 0x400#12 } := by
  rw [countRefusal, port_modPort_self, raised_eq]
  dsimp only
  rw [if_pos on]
  rfl

theorem port_countRefusal_ne {q : PortId} (other : q ≠ p) : (countRefusal p v).port q = v.port q :=
  port_modPort_ne _ _ other

theorem pendingBit_countRefusal (on : (v.port p).attached = true) (q : PortId) {b : Nat} (other : b ≠ 10) :
    ((countRefusal p v).port q).pendingSet.getLsbD b = (v.port q).pendingSet.getLsbD b := by
  by_cases e : q = p
  · have bit : (0x400#12).getLsbD b = false := by
      rw [show (0x400#12) = BitVec.twoPow 12 10 from rfl, BitVec.getLsbD_twoPow]
      simp [other.symm]
    rw [e, port_countRefusal on, BitVec.getLsbD_or, bit, Bool.or_false]
  · rw [port_countRefusal_ne e]

theorem queued_countRefusal {s : State} {rs : List TakeRecord} (on : (v.port p).attached = true) (h : Queued rs s v) :
    Queued rs s (countRefusal p v) := by
  obtain ⟨writing, reasons⟩ := h
  refine ⟨writing, fun q => ?_⟩
  obtain ⟨high, lost⟩ := reasons q
  unfold raisedWhen at *
  rw [pendingBit_countRefusal on q (by decide), pendingBit_countRefusal on q (by decide)]
  exact ⟨high, lost⟩

theorem reportedOf_countRefusal {s : State} {hit : StripNo → Bool} (h : ReportedOf p hit s v) :
    ReportedOf p hit s (countRefusal p v) := fun q other => by
  have at_q := h q other
  unfold raisedWhen at *
  rw [port_countRefusal_ne other]
  exact at_q

theorem pendingKept_countRefusal {s : State} (on : (v.port p).attached = true) (h : pendingKept 0x300#12 p s v) :
    pendingKept 0x700#12 p s (countRefusal p v) := by
  refine pendingKept_iff.mpr fun b hb out => ?_
  have other : b ≠ 10 := by rintro rfl; exact absurd out (by decide)
  rw [pendingBit_countRefusal on p other]
  exact pendingKept_iff.mp (pendingKept_mono (more := 0x700#12) h (by decide)) b hb out

end Refused

/-! ### FLAGS over a run -/

section Whole
variable {p : PortId} {start count op sel set : Byte} {s : State}

theorem flagsReach_transacted (h : (s.port p).takes = true) :
    flagsReach p op sel (s.modPort p PortState.transacted) = flagsReach p op sel s ∧
      flagsRefusal p op sel (s.modPort p PortState.transacted) = flagsRefusal p op sel s := by
  have refusal : flagsRefusal p op sel (s.modPort p PortState.transacted) = flagsRefusal p op sel s := funext fun k => by
    rw [flagsRefusal, flagsRefusal, reachForChange_transacted h]
    rfl
  refine ⟨funext fun k => ?_, refusal⟩
  rw [flagsReach, flagsReach, reachForChange_transacted h, refusal]

/-- What a run of FLAGS does, said at the state of the request. -/
theorem flagsRunOf_done (h : (s.port p).takes = true)
    (distinct : sel.getLsbD 2 = false ∨ ∀ i ∈ List.range count.toNat, ∀ j ∈ List.range count.toNat,
      flagsReach p op sel s (start.toNat + i) ≠ none →
      flagsReach p op sel s (start.toNat + i) = flagsReach p op sel s (start.toNat + j) → i = j) :
    RunDone p op sel set start.toNat count.toNat (s.modPort p PortState.transacted)
        (flagsRunOf p start count op sel set s).state ∧
      (flagsRunOf p start count op sel set s).results =
        (List.range count.toNat).map fun i => flagsRefusal p op sel s (start.toNat + i) := by
  obtain ⟨reach, refusal⟩ := flagsReach_transacted (op := op) (sel := sel) h
  have done := flagsRun_done p op sel set start.toNat (s.modPort p PortState.transacted) count.toNat
    (by rw [reach]; exact distinct) count.toNat le_rfl
  rw [refusal] at done
  exact done

/-- The run was refused in part, or every position was applied. -/
theorem runStatus_ok_iff_applied :
    runStatus ((List.range count.toNat).map fun i => flagsRefusal p op sel s (start.toNat + i)) = .ok ↔
      ¬∃ i ∈ List.range count.toNat, flagsRefusal p op sel s (start.toNat + i) ≠ none := by
  have never : some .ok ∉ (List.range count.toNat).map fun i => flagsRefusal p op sel s (start.toNat + i) := by
    intro mem
    obtain ⟨i, -, e⟩ := List.mem_map.mp mem
    exact flagsRefusal_ne_ok p op sel s _ e
  rw [runStatus_ok_iff never]
  simp

/-- The outcome of a FLAGS over a run. -/
theorem exec_flags_outcome (h : (s.port p).takes = true) (small : 1 ≤ count.toNat ∧ count.toNat ≤ 16) (posted : Bool) :
    let run := flagsRunOf p start count op sel set s
    let v := concluded posted p 0x02 (runStatus run.results) (wFlagsReply run.results) run.state
    exec (.flags p posted start count op sel set) s =
      .next (if posted = true ∧ runStatus run.results ≠ .ok then countRefusal p v else v) := by
  intro run v
  cases posted with
  | true =>
    rw [exec_flags_posted h small]
    by_cases ok : runStatus run.results = .ok
    · rw [if_pos ok, if_neg fun bad => bad.2 ok]
      rfl
    · rw [if_neg ok, if_pos ⟨rfl, ok⟩]
      rfl
  | false =>
    rw [exec_flags_arm, execFlags, request_taken h, flagsDone_run small]
    rfl

end Whole

end Sys2Proof.Machine

/-!
PROOFS. FLAGS over a run, settled.
-/
namespace Sys2Proof.Machine

section Effects
variable {p : PortId} {start count op sel set : Byte} {s t : State}

/-- The strips, cells and other blocks after a FLAGS whose ports alone are still open. -/
theorem flagsRun_effects (h : (s.port p).takes = true)
    (distinct : sel.getLsbD 2 = false ∨ ∀ i ∈ List.range count.toNat, ∀ j ∈ List.range count.toNat,
      flagsReach p op sel s (start.toNat + i) ≠ none →
      flagsReach p op sel s (start.toNat + i) = flagsReach p op sel s (start.toNat + j) → i = j)
    (rest : t = { (flagsRunOf p start count op sel set s).state with ports := t.ports }) :
    (∀ m, Flagged p op sel start.toNat s count.toNat m →
        t.strip m = (s.withFlags op sel set m).turned s m ∧ FlagCells op sel set m s t) ∧
      (∀ m, ¬Flagged p op sel start.toNat s count.toNat m → t.strip m = s.strip m ∧ t.cells m = s.cells m) ∧
      t.engine = { s.engine with stripCells := t.engine.stripCells } ∧ t.busTable = s.busTable ∧
      t.timeline = s.timeline ∧ t.playback = s.playback ∧ t.audio = s.audio ∧ t.pending = s.pending := by
  obtain ⟨reach, -⟩ := flagsReach_transacted (op := op) (sel := sel) h
  have done := (flagsRunOf_done (set := set) h distinct).1
  have flagged_iff : ∀ m, Flagged p op sel start.toNat (s.modPort p PortState.transacted) count.toNat m ↔
      Flagged p op sel start.toNat s count.toNat m := fun m => by rw [Flagged, reach]; rfl
  generalize (flagsRunOf p start count op sel set s).state = v at done rest
  refine ⟨fun m f => ⟨?_, ?_⟩, fun m f => ?_, ?_, ?_, ?_, ?_, ?_, ?_⟩
  · rw [rest]
    exact done.applied m ((flagged_iff m).mpr f)
  · rw [rest]
    exact done.cells m ((flagged_iff m).mpr f)
  · rw [rest]
    exact done.passed m (mt (flagged_iff m).mp f)
  · rw [rest]
    exact done.only.engine
  · rw [rest]
    exact done.only.busTable
  · rw [rest]
    exact done.only.timeline
  · rw [rest]
    exact done.only.playback
  · rw [rest]
    exact done.only.audio
  · rw [rest]
    exact done.only.pending

/-- What the ports show of a run that is answered, or posted without a refusal. -/
theorem shown_flagsRun (h : (s.port p).takes = true)
    (distinct : sel.getLsbD 2 = false ∨ ∀ i ∈ List.range count.toNat, ∀ j ∈ List.range count.toNat,
      flagsReach p op sel s (start.toNat + i) ≠ none →
      flagsReach p op sel s (start.toNat + i) = flagsReach p op sel s (start.toNat + j) → i = j)
    (posted : Bool) (st : Status) (items : List Byte) :
    Shown posted p (reply 0x02 st items)
      (fun m => decide (∃ i ∈ List.range count.toNat, flagsReach p op sel s (start.toNat + i) = some m))
      ((List.range count.toNat).flatMap fun i => match flagsReach p op sel s (start.toNat + i) with
        | some m =>
          (if sel.getLsbD 0 = true ∧ ((s.strip m).writeState = .writing ∨ (s.strip m).writeState = .latched) then
              [.move s.timeline.counter m p (.mute (flagged op sel set (s.strip m)).mute)]
            else []) ++ (s.withFlags op sel set m).turnRecords s m
        | none => [])
      s (concluded posted p 0x02 st items (flagsRunOf p start count op sel set s).state) := by
  obtain ⟨reach, -⟩ := flagsReach_transacted (op := op) (sel := sel) h
  have handed := (flagsRunOf_done (set := set) h distinct).1.handed
    (fun m => decide (∃ i ∈ List.range count.toNat, flagsReach p op sel s (start.toNat + i) = some m)) fun m => by
      rw [Flagged, reach, decide_eq_true_iff]
  rw [reach] at handed
  exact shown_concluded h handed 0x02 st items

/-- A run is concluded with its reply, or when posted and refused in part with the count of a refusal. -/
theorem flagsRun_conclusion (h : (s.port p).takes = true) (small : 1 ≤ count.toNat ∧ count.toNat ≤ 16) (posted : Bool) :
    let run := flagsRunOf p start count op sel set s
    let v := concluded posted p 0x02 (runStatus run.results) (wFlagsReply run.results) run.state
    ∃ t, exec (.flags p posted start count op sel set) s = .next t ∧
      ((posted = true → runStatus run.results = .ok) ∧ t = v ∨
        posted = true ∧ runStatus run.results ≠ .ok ∧ (v.port p).attached = true ∧ t = countRefusal p v) := by
  intro run v
  have on : (v.port p).attached = true := by
    rw [port_concluded]
    exact attached_flagsRun h _
  have outcome := exec_flags_outcome (start := start) (op := op) (sel := sel) (set := set) h small posted
  by_cases bad : posted = true ∧ runStatus run.results ≠ .ok
  · refine ⟨_, outcome, .inr ⟨bad.1, bad.2, on, if_pos bad⟩⟩
  · refine ⟨_, outcome, .inl ⟨fun yes => ?_, if_neg bad⟩⟩
    by_contra refused
    exact bad ⟨yes, refused⟩

end Effects

/-- Settles O24. -/
theorem flagsRunWritesEveryAppliedStrip : Obligations.FlagsRunWritesEveryAppliedStrip := by
  intro p posted start count op sel set s h
  refine ⟨exec_flags_miscounted h, fun one small => ?_, fun one most => ?_, fun one most distinct => ?_⟩
  · exact ⟨_, _, _, _, _, exec_flags_answered h ⟨one, by omega⟩, replySlot_leaves .., exec_flags_succ h ⟨one, small⟩,
      fun far => by
        have again := (exec_flags_succ (op := op) (sel := sel) (set := set) h ⟨one, small⟩).symm.trans
          (exec_flags_succ_far (op := op) (sel := sel) (set := set) h ⟨one, small⟩ far)
        rw [leaves_again]
        exact Host.Outcome.next.inj again,
      fun near => ⟨_, _, _, _, exec_flags_last h near _, replySlot_leaves .., by rw [leaves_again]; rfl⟩⟩
  · exact ⟨_, _, _, _, exec_flags_answered h ⟨one, most⟩, replySlot_leaves .., exec_flags_posted_of_answered h ⟨one, most⟩ _⟩
  · have outcome := exec_flags_outcome (start := start) (op := op) (sel := sel) (set := set) h ⟨one, most⟩ posted
    have results := (flagsRunOf_done (set := set) h distinct).2
    have shown := shown_flagsRun (set := set) h distinct posted
      (runStatus (flagsRunOf p start count op sel set s).results)
      (wFlagsReply (flagsRunOf p start count op sel set s).results)
    have applied := runStatus_ok_iff_applied (p := p) (start := start) (count := count) (op := op) (sel := sel) (s := s)
    rw [← results] at applied
    obtain ⟨t, outcome, concluded_or⟩ := flagsRun_conclusion (start := start) (op := op) (sel := sel) (set := set) h
      ⟨one, most⟩ posted
    have rest : t = { (flagsRunOf p start count op sel set s).state with ports := t.ports } := by
      rcases concluded_or with ⟨-, e⟩ | ⟨-, -, -, e⟩
      · rw [e]; cases posted <;> rfl
      · rw [e]; cases posted <;> rfl
    obtain ⟨flagged_strips, other_strips, engine, busTable, timeline, playback, audio, pending⟩ :=
      flagsRun_effects h distinct rest
    refine ⟨t, outcome, fun m => ?_, fun m => ?_, ?_, ?_, engine, busTable, timeline, playback, audio, pending, ?_, ?_, ?_⟩
    · split
      · next f => exact (flagged_strips m f).1
      · next f => exact (other_strips m f).1
    · split
      · next f => exact (flagged_strips m f).2
      · next f => exact (other_strips m f).2
    · rcases concluded_or with ⟨-, e⟩ | ⟨-, -, on, e⟩
      · rw [e]; exact shown.queued
      · rw [e]; exact queued_countRefusal on shown.queued
    · rcases concluded_or with ⟨-, e⟩ | ⟨-, -, -, e⟩
      · rw [e]; exact shown.reported
      · rw [e]; exact reportedOf_countRefusal shown.reported
    · intro q other
      rcases concluded_or with ⟨-, e⟩ | ⟨-, -, -, e⟩
      · rw [e]; exact shown.others q other
      · rw [e, pendingKept, port_countRefusal_ne other]; exact shown.others q other
    · rintro rfl
      rcases concluded_or with ⟨-, e⟩ | ⟨posted, -⟩
      · rw [e]
        refine ⟨shown.own, shown.kept_own, shown.replied.trans ?_⟩
        rw [wFlagsReply_eq, results, runStatus_map, refusalMask_map, List.countP_map]
        rfl
      · cases posted
    · rintro rfl
      rcases concluded_or with ⟨ok, e⟩ | ⟨-, bad, on, e⟩
      · have none_refused := applied.mp (ok rfl)
        rw [if_neg none_refused, e]
        have own := shown.own
        rw [ownPortKept, shown.replied, if_pos rfl] at own
        refine ⟨pendingKept_mono shown.kept_own (by decide), own, ?_⟩
        rw [pendingKept_iff.mp shown.kept_own 10 (by decide) (by decide)]
        exact ⟨.inl, fun raised => raised.resolve_right none_refused⟩
      · have some_refused := not_not.mp (mt applied.mpr bad)
        rw [if_pos some_refused, e, port_countRefusal on]
        have own := shown.own
        rw [ownPortKept, shown.replied, if_pos rfl] at own
        refine ⟨pendingKept_countRefusal on shown.kept_own, ?_, fun _ => .inr some_refused, fun _ => ?_⟩
        · rw [own]
        · rw [BitVec.getLsbD_or, show (0x400#12).getLsbD 10 = true from rfl, Bool.or_true]

end Sys2Proof.Machine

/-!
PROOFS. SET-ROUTE (R23): its operands, its refusals and what it writes.
-/
namespace Sys2Proof.Machine

/-! ### Operands (R14, R178) -/

theorem readSource_none {f : SourceField} (h : sourceOutOfRange f) : readSource f = none := by
  unfold readSource
  rcases h with kind | ⟨kind, lane | slot⟩ | ⟨kind, premix | channel⟩
  · split
    · omega
    · omega
    · omega
    · rfl
  · simp only [kind, readIndex_none (n := 8) lane]
  · rw [kind, readIndex_none (n := 16) slot]
    cases readIndex 8 f.first <;> rfl
  · simp only [kind, readIndex_none (n := 16) premix]
  · rw [kind, readIndex_none (n := 12) channel]
    cases readIndex 16 f.first <;> rfl

theorem readDest_none {f : DestField} (h : destOutOfRange f) : readDest f = none := by
  unfold readDest
  rcases h with kind | ⟨kind, premix⟩ | ⟨kind, stem⟩
  · split
    · omega
    · omega
    · omega
    · rfl
  · rw [kind, readIndex_none (n := 16) premix]
    rfl
  · rw [kind, readIndex_none (n := 8) stem]
    rfl

theorem length_readEntries {l : List (Byte × BitVec 16)} {es : List PanEntry} (h : readEntries l = some es) :
    es.length = l.length := by
  induction l generalizing es with
  | nil => cases h; rfl
  | cons e rest ih =>
    obtain ⟨c, w⟩ := e
    unfold readEntries at h
    cases first : readEntry c w with
    | none => rw [first] at h; cases h
    | some a =>
      cases others : readEntries rest with
      | none => rw [first, others] at h; cases h
      | some as =>
        rw [first, others] at h
        cases h
        rw [List.length_cons, List.length_cons, ih others]

theorem length_readPan {v : Value13} {l : List PanEntry} (h : (readPan v).entries = some l) :
    l.length = min (readPan v).count 4 := by
  have read : (readPan v).entries = readEntries ((panRoom v).take v[0].toNat) := rfl
  rw [read] at h
  rw [length_readEntries h, List.length_take]
  rfl

/-- A carried pan equals a list just where it carries it (R23, R24). -/
theorem readPan_equals_iff (v : Value13) (l : List PanEntry) : (readPan v).equals l = true ↔ carriesPan v l := by
  simp only [PanField.equals, Bool.and_eq_true, beq_iff_eq]
  constructor
  · rintro ⟨count, entries⟩
    have size := length_readPan entries
    exact ⟨by omega, entries⟩
  · rintro ⟨count, entries⟩
    have size := length_readPan entries
    exact ⟨by omega, entries⟩

theorem carriesPan_list {v : Value13} {l : List PanEntry} (h : carriesPan v l) : (readPan v).list = l := by
  rw [PanField.list, h.2]
  rfl

theorem carriesPan_unique {v : Value13} {l l' : List PanEntry} (h : carriesPan v l) : carriesPan v l' ↔ l = l' := by
  constructor
  · intro h'
    have e := h.2.symm.trans h'.2
    exact Option.some.inj e
  · rintro rfl; exact h

/-- A carried pan that is no pan list, or does not fit, has no shape. -/
theorem pan_unshaped {t : BusTable} {d : Dest} {v : Value13} {l : List PanEntry} (entries : (readPan v).entries = some l)
    (bad : 4 < (readPan v).count ∨ ¬panAllowed (t.destWidth d) l) :
    ((readPan v).shaped && t.panFits d (readPan v).list) = false := by
  have list : (readPan v).list = l := by rw [PanField.list, entries]; rfl
  rw [PanField.shaped, list, Bool.and_assoc]
  rcases bad with many | misshapen
  · rw [decide_eq_false (Nat.not_le.mpr many), Bool.false_and]
  · rw [Bool.eq_false_iff.mpr fun h => misshapen ((panAllowed_iff t d l).mp h), Bool.and_false]

theorem pan_shaped {t : BusTable} {d : Dest} {v : Value13} {l : List PanEntry} (carried : carriesPan v l)
    (allowed : panAllowed (t.destWidth d) l) : ((readPan v).shaped && t.panFits d (readPan v).list) = true := by
  rw [PanField.shaped, carriesPan_list carried, Bool.and_assoc, (panAllowed_iff t d l).mpr allowed,
    decide_eq_true carried.1]
  rfl

theorem routeAllowed_iff (src : Source) (dst : Dest) :
    routeAllowed src dst = true ↔ ∀ b c d, src = .premix b c → dst ≠ .premix d := by
  cases src with
  | none => simp [routeAllowed]
  | input l k => simp [routeAllowed]
  | premix b c => cases dst <;> simp [routeAllowed]

theorem panFits_false {t : BusTable} {d : Dest} {l : List PanEntry}
    (h : ∃ w, t.destWidth d = some w ∧ ∃ e ∈ l, w ≤ e.channel.val) : t.panFits d l = false := by
  obtain ⟨w, width, e, mem, beyond⟩ := h
  rw [BusTable.panFits, width]
  dsimp only
  rw [List.all_eq_false]
  exact ⟨e, mem, by simpa using beyond⟩

/-! ### The checks of SET-ROUTE -/

/-- A SET-ROUTE writes the pan: it carries one that differs. -/
def routeWritesPan (r : Strip) (carried : Byte) (pan : Value13) : Bool :=
  decide (carried.toNat = 1) && !(readPan pan).equals r.pan

theorem routeWritesPan_iff (r : Strip) (carried : Byte) (pan : Value13) :
    routeWritesPan r carried pan = true ↔ carried.toNat = 1 ∧ ¬carriesPan pan r.pan := by
  rw [routeWritesPan, Bool.and_eq_true, decide_eq_true_iff, Bool.not_eq_true', ← Bool.not_eq_true, readPan_equals_iff]

theorem routeWritesPan_none {carried : Byte} {pan : Value13} (r : Strip) (h : carriedPan carried pan = none) :
    routeWritesPan r carried pan = false := by
  have bare : carried.toNat ≠ 1 := fun e => by rw [carriedPan, if_pos e] at h; cases h
  rw [routeWritesPan, decide_eq_false bare, Bool.false_and]

theorem routeWritesPan_some {carried : Byte} {pan : Value13} {f : PanField} (r : Strip)
    (h : carriedPan carried pan = some f) : routeWritesPan r carried pan = !f.equals r.pan := by
  by_cases carries : carried.toNat = 1
  · rw [carriedPan, if_pos carries, Option.some.injEq] at h
    rw [routeWritesPan, decide_eq_true carries, Bool.true_and, h]
  · rw [carriedPan, if_neg carries] at h
    cases h

theorem ReportedOf.hit {p : PortId} {n : StripNo} {b : Bool} {s t : State}
    (h : ReportedOf p (fun m => b && decide (m = n)) s t) (yes : b = true) : Reported p n s t := by
  subst yes
  exact h

theorem ReportedOf.unhit {p : PortId} {n : StripNo} {b : Bool} {s t : State}
    (h : ReportedOf p (fun m => b && decide (m = n)) s t) (no : b = false) : Unreported p s t := by
  subst no
  exact h

section Route
variable {p : PortId} {surface carried : Byte} {source : SourceField} {dest : DestField} {pan : Value13} {n : StripNo}
  {s : State}

/-- Past holder and toucher the mode is judged, and then the operands (R11, R23). -/
theorem setRouteDone_open (reached : reachForChange (s.port p) surface.toNat = .ok n) (opened : (s.strip n).openTo p) :
    setRouteDone p surface source dest carried pan s =
      if routeWritesPan (s.strip n) carried pan && !liveOpen s.playback.passOpen (s.strip n) then .error .automated
      else (routeResult s.busTable (s.strip n) source dest carried pan).map fun r =>
        commit p n r (if routeWritesPan (s.strip n) carried pan then [.pan r.pan] else []) (r != s.strip n) s := by
  rw [setRouteDone, reached]
  dsimp only
  rw [handFailure_open opened, firstFailure_none_cons]
  cases carries : carriedPan carried pan with
  | none =>
    rw [routeWritesPan_none _ carries]
    dsimp only
    rw [Bool.false_and, firstFailure_failIf_false]
    dsimp only [firstFailure]
    cases routeResult s.busTable (s.strip n) source dest carried pan <;> rfl
  | some f =>
    rw [routeWritesPan_some _ carries]
    by_cases closed : (!f.equals (s.strip n).pan && !liveOpen s.playback.passOpen (s.strip n)) = true
    · rw [if_pos closed]
      dsimp only
      rw [closed, firstFailure_failIf_true]
    · rw [if_neg closed]
      rw [Bool.not_eq_true] at closed
      dsimp only
      rw [closed, firstFailure_failIf_false]
      dsimp only [firstFailure]
      cases routeResult s.busTable (s.strip n) source dest carried pan <;> rfl

theorem exec_setRoute_ok {v : State} (h : (s.port p).takes = true)
    (done : setRouteDone p surface source dest carried pan (s.modPort p PortState.transacted) = .ok v) :
    exec (.setRoute p surface source dest carried pan) s = .next (concluded false p 0x03 .ok [] v) := by
  rw [exec_setRoute_arm, execSetRoute, request_taken h, done]
  rfl

theorem routeResult_range {t : BusTable} {r : Strip}
    (h : sourceOutOfRange source ∨ destOutOfRange dest ∨ 1 < carried.toNat ∨ (carried = 1 ∧ panOutOfRange pan)) :
    routeResult t r source dest carried pan = .error .range := by
  unfold routeResult
  rcases h with src | dst | flag | ⟨rfl, out⟩
  · rw [readSource_none src]
  · rw [readDest_none dst]
    cases readSource source <;> rfl
  · rw [readFlag_none flag]
    cases readSource source <;> cases readDest dest <;> rfl
  · rw [(readPan_none_iff pan).mpr out, readFlag_one (by rfl)]
    cases readSource source <;> cases readDest dest <;> rfl

theorem routeResult_carried {t : BusTable} {r : Strip} {src : Source} {dst : Dest} {l : List PanEntry}
    (hs : readSource source = some src) (hd : readDest dest = some dst) (entries : (readPan pan).entries = some l) :
    routeResult t r source dest 1 pan =
      if (readPan pan).shaped && t.panFits dst (readPan pan).list && routeAllowed src dst then
        .ok { r with source := src, dest := dst, pan := l }
      else .error .shape := by
  have list : (readPan pan).list = l := by rw [PanField.list, entries]; rfl
  unfold routeResult
  rw [hs, hd, readFlag_one (by rfl)]
  dsimp only
  rw [entries, list]
  rfl

theorem routeResult_bare {t : BusTable} {r : Strip} {src : Source} {dst : Dest}
    (hs : readSource source = some src) (hd : readDest dest = some dst) :
    routeResult t r source dest 0 pan =
      if t.panFits dst r.pan && routeAllowed src dst then .ok { r with source := src, dest := dst } else .error .shape := by
  unfold routeResult
  rw [hs, hd, readFlag_zero (by rfl)]
  rfl

/-- A change of the route that passes every check, as its request shows it. -/
theorem setRoute_changes (h : (s.port p).takes = true) (reached : reachForChange (s.port p) surface.toNat = .ok n)
    (opened : (s.strip n).openTo p) {src : Source} {dst : Dest} {l : List PanEntry}
    (live : routeWritesPan (s.strip n) carried pan = true → s.writesLive n)
    (writes : routeWritesPan (s.strip n) carried pan = true ↔ l ≠ (s.strip n).pan)
    (result : routeResult s.busTable (s.strip n) source dest carried pan =
      .ok { s.strip n with source := src, dest := dst, pan := l }) :
    ∃ t, exec (.setRoute p surface source dest carried pan) s = .next t ∧
      Changed p n { s.strip n with source := src, dest := dst, pan := l }
        (if l = (s.strip n).pan then [] else [.pan l]) s t ∧
      (if src = (s.strip n).source ∧ dst = (s.strip n).dest ∧ l = (s.strip n).pan then Unreported p s t
        else Reported p n s t) ∧
      (t.port p).replySlot = reply 0x03 .ok [] := by
  have opened' : ((s.modPort p PortState.transacted).strip n).openTo p := opened
  have reached' := (reachForChange_transacted h surface.toNat).trans reached
  have permitted : (routeWritesPan (s.strip n) carried pan && !liveOpen s.playback.passOpen (s.strip n)) = false := by
    cases differs : routeWritesPan (s.strip n) carried pan with
    | false => rfl
    | true => rw [(liveOpen_iff s n).mpr (live differs)]; rfl
  have written : (if routeWritesPan (s.strip n) carried pan then [FieldValue.pan l] else []) =
      if l = (s.strip n).pan then [] else [.pan l] := by
    by_cases same : l = (s.strip n).pan
    · rw [if_pos same, if_neg fun w => writes.mp w same]
    · rw [if_neg same, if_pos (writes.mpr same)]
  have done := setRouteDone_open (source := source) (dest := dest) (carried := carried) (pan := pan) reached' opened'
  have result' : routeResult (s.modPort p PortState.transacted).busTable ((s.modPort p PortState.transacted).strip n)
    source dest carried pan = .ok { s.strip n with source := src, dest := dst, pan := l } := result
  have permitted' : (routeWritesPan ((s.modPort p PortState.transacted).strip n) carried pan &&
    !liveOpen (s.modPort p PortState.transacted).playback.passOpen ((s.modPort p PortState.transacted).strip n)) = false :=
    permitted
  rw [permitted', result', if_neg (by simp)] at done
  obtain ⟨shown, changed⟩ := changed_concluded (posted := false) (n := n)
    (r := { s.strip n with source := src, dest := dst, pan := l })
    (written := if routeWritesPan (s.strip n) carried pan then [FieldValue.pan l] else [])
    (reported := { s.strip n with source := src, dest := dst, pan := l } != s.strip n) h rfl rfl rfl 0x03 .ok []
  rw [written] at changed
  refine ⟨_, exec_setRoute_ok h done, ?_, ?_, shown.replied⟩
  · rw [← written]
    rw [← written] at changed
    exact changed
  · split
    · next same =>
      refine shown.reported.unhit (bne_eq_false_iff_eq.mpr ?_)
      rw [same.1, same.2.1, same.2.2]
    · next differs =>
      refine shown.reported.hit (bne_iff_ne.mpr fun e => differs ⟨?_, ?_, ?_⟩)
      · rw [← e]
      · rw [← e]
      · rw [← e]

end Route

/-- Settles O25. -/
theorem setRouteWritesTheRouteOrRefusesItsShape : Obligations.SetRouteWritesTheRouteOrRefusesItsShape := by
  intro p surface source dest carried pan n src dst l s h reached opened
  have opened' : ((s.modPort p PortState.transacted).strip n).openTo p := opened
  have reached' := (reachForChange_transacted h surface.toNat).trans reached
  have done := setRouteDone_open (source := source) (dest := dest) (carried := carried) (pan := pan) reached' opened'
  have carries : carried = 1 ↔ carried.toNat = 1 := ⟨fun e => by rw [e]; rfl, fun e => byte_eq e⟩
  have writes := routeWritesPan_iff (s.strip n) carried pan
  have refused : ∀ st, (carried ≠ 1 ∨ carriesPan pan (s.strip n).pan ∨ s.writesLive n) →
      routeResult s.busTable (s.strip n) source dest carried pan = .error st →
      exec (.setRoute p surface source dest carried pan) s = .next (s.leaves p (reply 0x03 st [])) := by
    intro st permitted result
    refine exec_setRoute_refused h (done.trans ?_)
    have result' : routeResult (s.modPort p PortState.transacted).busTable ((s.modPort p PortState.transacted).strip n)
      source dest carried pan = .error st := result
    rw [result', if_neg]
    · rfl
    · intro closed
      obtain ⟨w, shut⟩ := Bool.and_eq_true_iff.mp closed
      obtain ⟨one, differs⟩ := writes.mp w
      have live : ¬s.writesLive n := fun live => by
        have opens := (liveOpen_iff s n).mpr live
        rw [Bool.not_eq_true'] at shut
        exact absurd (opens.symm.trans shut) (by decide)
      rcases permitted with bare | same | live'
      · exact bare (carries.mpr one)
      · exact differs same
      · exact live live'
  refine ⟨fun one differs closed => ?_, fun permitted out => refused .range permitted (routeResult_range out),
    fun hs hd => ⟨fun one permitted entries bad => ?_, fun resulting => ⟨fun allowed routed => ?_, fun bad => ?_⟩⟩⟩
  · refine exec_setRoute_refused h (done.trans (if_pos ?_))
    have shut : liveOpen s.playback.passOpen (s.strip n) = false := by
      rw [← Bool.not_eq_true, liveOpen_iff]
      exact closed
    exact Bool.and_eq_true_iff.mpr ⟨writes.mpr ⟨carries.mp one, differs⟩, congrArg Bool.not shut⟩
  · subst one
    refine refused .shape (.inr permitted) ?_
    rw [routeResult_carried hs hd entries, pan_unshaped entries bad]
    rfl
  · have routed' := (routeAllowed_iff src dst).mpr routed
    rcases resulting with ⟨rfl, rfl⟩ | ⟨rfl, carried, live⟩
    · refine setRoute_changes h reached opened (fun w => absurd (writes.mp w).1 (by decide))
        ⟨fun w => absurd (writes.mp w).1 (by decide), fun ne => absurd rfl ne⟩ ?_
      have fits := (Bool.and_eq_true_iff.mp ((panAllowed_iff ..).mpr allowed)).2
      rw [routeResult_bare hs hd, fits, routed']
      rfl
    · have same := carriesPan_unique (l' := (s.strip n).pan) carried
      have writes_iff : routeWritesPan (s.strip n) 1 pan = true ↔ l ≠ (s.strip n).pan :=
        writes.trans ⟨fun w e => w.2 (same.mpr e), fun ne => ⟨rfl, fun c => ne (same.mp c)⟩⟩
      refine setRoute_changes h reached opened (fun w => live (writes_iff.mp w)) writes_iff ?_
      rw [routeResult_carried hs hd carried.2, pan_shaped carried allowed, routed']
      rfl
  · have unfit : (s.busTable.panFits dst l && routeAllowed src dst) = false := by
      rcases bad with ⟨b, c, d, rfl, rfl⟩ | beyond
      · exact Bool.and_false _
      · rw [panFits_false beyond, Bool.false_and]
    rcases resulting with ⟨rfl, rfl⟩ | ⟨rfl, carried, live⟩
    · refine refused .shape (.inl (by decide)) ?_
      rw [routeResult_bare hs hd, unfit]
      rfl
    · have permitted : (1 : Byte) ≠ 1 ∨ carriesPan pan (s.strip n).pan ∨ s.writesLive n := by
        by_cases same : l = (s.strip n).pan
        · exact .inr (.inl (same ▸ carried))
        · exact .inr (.inr (live same))
      refine refused .shape permitted ?_
      rw [routeResult_carried hs hd carried.2, carriesPan_list carried, Bool.and_assoc, unfit, Bool.and_false]
      rfl

end Sys2Proof.Machine

/-!
PROOFS. A change of mode (R26, R129 to R131, R139): SET-MODE, and the mode that SET-STRIP carries.
-/
namespace Sys2Proof.Machine

/-! ### Arming afresh (R129, R130) -/

/-- The write state of a strip whose mode becomes `m`. -/
theorem armedAfresh_eq (s : State) (n : StripNo) (m : Mode) :
    (if (s.modStrip n fun r => { r with mode := m }).armed n then
        (s.modStrip n fun r => { r with mode := m }).armedState n else .off) =
      s.armedAfresh n m (s.strip n).linePunch := by
  have strip : (s.modStrip n fun r => { r with mode := m }).strip n = { s.strip n with mode := m } :=
    strip_modStrip_self ..
  have armed : (s.modStrip n fun r => { r with mode := m }).armed n = (s.playback.passOpen && m.writes) := by
    rw [State.armed, strip]
    rfl
  have trigger := trigger_eq (s.modStrip n fun r => { r with mode := m }) n
  rw [strip] at trigger
  rw [armed, State.armedState, trigger, State.armedAfresh]
  cases opened : s.playback.passOpen with
  | false => rfl
  | true =>
    cases m with
    | live => rfl
    | playback => rfl
    | write => rfl
    | touch | latch | trim =>
      simp [Mode.writes, Strip.triggered, Option.isSome_iff_ne_none]

/-- The record of a strip after its mode becomes `m`, its line punch standing as given (R26, R130, R131, R139). -/
def State.modeChanged (s : State) (n : StripNo) (m : Mode) : Strip :=
  if m = (s.strip n).mode then s.strip n
  else
    { s.strip n with
      mode := m, writeState := s.armedAfresh n m (s.strip n).linePunch,
      trim := if s.punching n ∧ (s.strip n).mode = .trim then 16384 else (s.strip n).trim }

/-- The record of the punch that a change of mode ends. -/
def State.modeRecords (s : State) (n : StripNo) (m : Mode) : List TakeRecord :=
  if m ≠ (s.strip n).mode ∧ s.punching n then [.punchOut s.timeline.counter n .modeChange] else []

theorem punching_iff (s : State) (n : StripNo) :
    (s.armed n && (s.strip n).writeState.punched) = true ↔ s.punching n := by
  rw [Bool.and_eq_true, punched_iff]

theorem turnsTo_changeMode (p : PortId) (n : StripNo) (m : Mode) (s : State) :
    TurnsTo p n (s.modeChanged n m) (s.modeRecords n m) s (changeMode n m s) := by
  by_cases same : m = (s.strip n).mode
  · rw [changeMode_same same.symm, State.modeChanged, if_pos same, State.modeRecords, if_neg fun h => h.1 same]
    exact turnsTo_refl p n s
  · have strip : (s.modStrip n fun r => { r with mode := m }).strip n = { s.strip n with mode := m } :=
      strip_modStrip_self ..
    rw [State.modeChanged, if_neg same, State.modeRecords]
    unfold changeMode
    dsimp only
    rw [if_neg (Ne.symm same), armedAfresh_eq]
    by_cases punching : s.punching n
    · rw [if_pos ((punching_iff s n).mpr punching), if_pos (c := m ≠ (s.strip n).mode ∧ s.punching n) ⟨same, punching⟩]
      refine turnsTo_handRetarget p n ((OnlyAt.modStrip n _ s).trans (.endPunch ..)) ?_ ?_ ?_
      · rw [strip_endPunch, strip, if_congr (Q := (s.strip n).mode = .trim) (and_iff_right punching) rfl rfl]
      · exact (handedOn_endPunch p n .modeChange (s.strip n).mode _
          (s.modStrip n fun r => { r with mode := m })).after (fun _ => rfl) rfl rfl
      · exact cells_endPunch ..
    · rw [if_neg (mt (punching_iff s n).mp punching), if_neg (c := m ≠ (s.strip n).mode ∧ s.punching n) fun h => punching h.2]
      refine turnsTo_handRetarget p n ((OnlyAt.modStrip n _ s).trans (.setWriteState ..)) ?_ ?_ rfl
      · rw [strip_setWriteState, strip]
        simp only [punching, false_and, if_false]
      · exact handedOn_nothing (fun _ => rfl) rfl rfl

/-! ### SET-MODE -/

theorem readMode_none {b : Byte} (h : 5 < b.toNat) : readMode b = none := by
  unfold readMode
  split
  · omega
  · omega
  · omega
  · omega
  · omega
  · omega
  · rfl

/-- Past holder and toucher the mode is read and changed (R26). -/
theorem setModeDone_open {p : PortId} {surface mode : Byte} {n : StripNo} {s : State}
    (reached : reachForChange (s.port p) surface.toNat = .ok n) (opened : (s.strip n).openTo p) :
    setModeDone p surface mode s = match readMode mode with
      | none => .error .range
      | some m => .ok (if (s.strip n).mode = m then s else report p n (changeMode n m s)) := by
  rw [setModeDone, reached]
  dsimp only
  rw [handFailure_open opened]
  cases readMode mode <;> rfl

theorem exec_setMode_ok {p : PortId} {surface mode : Byte} {s v : State} (h : (s.port p).takes = true)
    (done : setModeDone p surface mode (s.modPort p PortState.transacted) = .ok v) :
    exec (.setMode p surface mode) s = .next (concluded false p 0x05 .ok [] v) := by
  rw [exec_setMode_arm, execSetMode, request_taken h, done]
  rfl

/-- Settles O27. -/
theorem setModeEndsThePunchAndArmsAfresh : Obligations.SetModeEndsThePunchAndArmsAfresh := by
  intro p surface mode n m s h reached opened
  have opened' : ((s.modPort p PortState.transacted).strip n).openTo p := opened
  have reached' := (reachForChange_transacted h surface.toNat).trans reached
  have done := setModeDone_open (mode := mode) reached' opened'
  refine ⟨fun far => ?_, fun read held => ?_, fun read differs => ?_⟩
  · rw [readMode_none far] at done
    exact exec_setMode_refused h done
  · rw [read] at done
    have stays : setModeDone p surface mode (s.modPort p PortState.transacted) =
        .ok (s.modPort p PortState.transacted) := done.trans (congrArg Except.ok (if_pos held.symm))
    rw [exec_setMode_ok h stays]
    exact congrArg Host.Outcome.next (answer_transacted h _ _ _)
  · rw [read] at done
    have changes : setModeDone p surface mode (s.modPort p PortState.transacted) =
        .ok (report p n (changeMode n m (s.modPort p PortState.transacted))) :=
      done.trans (congrArg Except.ok (if_neg (Ne.symm differs)))
    have turn := turnsTo_changeMode p n m (s.modPort p PortState.transacted)
    have handed := turn.handed.trans (handedOn_report p n (changeMode n m (s.modPort p PortState.transacted)))
    have shown := shown_concluded (posted := false) h handed 0x05 .ok []
    have strip := turn.strip
    have record : (s.modPort p PortState.transacted).modeChanged n m =
        { s.strip n with
          mode := m, writeState := s.armedAfresh n m (s.strip n).linePunch,
          trim := if s.punching n ∧ (s.strip n).mode = .trim then 16384 else (s.strip n).trim } := if_neg differs
    have records : (s.modPort p PortState.transacted).modeRecords n m =
        if s.punching n then [.punchOut s.timeline.counter n .modeChange] else [] := by
      unfold State.modeRecords
      exact if_congr (and_iff_right differs) rfl rfl
    rw [record] at strip
    have queued := shown.queued
    rw [records, List.append_nil] at queued
    refine ⟨_, exec_setMode_ok h changes, strip, queued, turn.ramped, shown.reported, ?_, shown.replied⟩
    exact onlyStrip_concluded (turn.only.trans (.report p n _)) shown

end Sys2Proof.Machine

/-!
PROOFS. SET-STRIP (R24, R25): the record written, the trigger it turns, and the mode that follows.
-/
namespace Sys2Proof.Machine

/-! ### Its operands -/

theorem readFlag_eq_some_iff (b : Byte) (m : Bool) : readFlag b = some m ↔ b = if m then 1 else 0 := by
  constructor
  · intro h
    have known : b.toNat = 0 ∨ b.toNat = 1 ∨ 1 < b.toNat := by omega
    rcases known with e | e | e
    · rw [readFlag_zero e, Option.some.injEq] at h
      rw [← h]
      exact byte_eq e
    · rw [readFlag_one e, Option.some.injEq] at h
      rw [← h]
      exact byte_eq e
    · rw [readFlag_none e] at h
      cases h
  · intro h
    exact (carried_flag h).1

theorem stripWrites_iff (r : Strip) (fader : BitVec 16) (mute : Byte) (pan : Value13) :
    stripWrites r fader mute pan = true ↔ ¬r.keepsAutomated fader mute pan := by
  rw [stripWrites, Bool.or_eq_true, Bool.or_eq_true, bne_iff_ne, bne_iff_ne, Bool.not_eq_true', ← Bool.not_eq_true,
    readPan_equals_iff, Ne, Ne, readFlag_eq_some_iff]
  unfold Strip.keepsAutomated
  tauto

theorem readStripValues_none {source : SourceField} {polarity : Byte} {dest : DestField} {fader : BitVec 16}
    {mute : Byte} {pan : Value13} {mode linePunch : Byte}
    (h : sourceOutOfRange source ∨ 1 < polarity.toNat ∨ destOutOfRange dest ∨ 1 < mute.toNat ∨ panOutOfRange pan ∨
      5 < mode.toNat ∨ 1 < linePunch.toNat) :
    readStripValues source polarity dest fader mute pan mode linePunch = none := by
  have late : (readPan pan).entries = none ∨ readMode mode = none ∨ readFlag linePunch = none →
      readStripValues source polarity dest fader mute pan mode linePunch = none := by
    intro bad
    unfold readStripValues
    split
    · split
      · next entries md lp => simp_all
      · rfl
    · rfl
  have early : readSource source = none ∨ readFlag polarity = none ∨ readDest dest = none ∨ readFlag mute = none →
      readStripValues source polarity dest fader mute pan mode linePunch = none := by
    intro bad
    unfold readStripValues
    split
    · next src inv dst m => simp_all
    · rfl
  rcases h with h | h | h | h | h | h | h
  · exact early (.inl (readSource_none h))
  · exact early (.inr (.inl (readFlag_none h)))
  · exact early (.inr (.inr (.inl (readDest_none h))))
  · exact early (.inr (.inr (.inr (readFlag_none h))))
  · exact late (.inl ((readPan_none_iff pan).mpr h))
  · exact late (.inr (.inl (readMode_none h)))
  · exact late (.inr (.inr (readFlag_none h)))

theorem readStripValues_pan {source : SourceField} {polarity : Byte} {dest : DestField} {fader : BitVec 16}
    {mute : Byte} {pan : Value13} {mode linePunch : Byte} {v : StripValues}
    (h : readStripValues source polarity dest fader mute pan mode linePunch = some v) : v.pan = readPan pan := by
  unfold readStripValues at h
  split at h
  · split at h
    · rw [← Option.some.inj h]
    · cases h
  · cases h

/-- The automated fields that are written are those that differ (R24, R25). -/
theorem writtenFields_eq {r : Strip} {v : StripValues} {pan : Value13} {l : List PanEntry} (read : v.pan = readPan pan)
    (carried : carriesPan pan l) : writtenFields r v = differing r v.fader v.mute l := by
  have list := carriesPan_list carried
  have same : (readPan pan).equals r.pan = decide (l = r.pan) := by
    rw [Bool.eq_iff_iff, readPan_equals_iff, carriesPan_unique carried, decide_eq_true_iff]
  rw [writtenFields, differing, read, same, list]
  simp only [decide_eq_true_eq]

/-! ### The checks -/

section Checks
variable {p : PortId} {surface : Byte} {source : SourceField} {polarity : Byte} {dest : DestField} {fader : BitVec 16}
  {mute : Byte} {pan : Value13} {mode linePunch : Byte} {n : StripNo} {s : State}

theorem setStripDone_automated (reached : reachForChange (s.port p) surface.toNat = .ok n)
    (opened : (s.strip n).openTo p) (differs : ¬(s.strip n).keepsAutomated fader mute pan) (closed : ¬s.writesLive n) :
    setStripDone p surface source polarity dest fader mute pan mode linePunch s = .error .automated := by
  have shut : liveOpen s.playback.passOpen (s.strip n) = false := by
    rw [← Bool.not_eq_true, liveOpen_iff]
    exact closed
  rw [setStripDone, reached]
  dsimp only
  rw [handFailure_open opened, firstFailure_none_cons, (stripWrites_iff ..).mpr differs, shut]
  rfl

/-- Past holder, toucher and mode the values are read, judged and written (R11, R24, R25). -/
theorem setStripDone_open (reached : reachForChange (s.port p) surface.toNat = .ok n)
    (opened : (s.strip n).openTo p) (permitted : (s.strip n).keepsAutomated fader mute pan ∨ s.writesLive n) :
    setStripDone p surface source polarity dest fader mute pan mode linePunch s =
      match readStripValues source polarity dest fader mute pan mode linePunch with
      | none => .error .range
      | some v =>
        if v.pan.shaped && s.busTable.panFits v.dest v.pan.list && routeAllowed v.source v.dest then
          .ok (handCut s n (changeMode n v.mode (writeChange p n ((s.strip n).rewritten v) (writtenFields (s.strip n) v)
            ((s.strip n).rewritten v != s.strip n || v.mode != (s.strip n).mode) s)))
        else .error .shape := by
  have pass : (stripWrites (s.strip n) fader mute pan && !liveOpen s.playback.passOpen (s.strip n)) = false := by
    rcases permitted with keeps | live
    · have writes : stripWrites (s.strip n) fader mute pan = false := by
        rw [← Bool.not_eq_true, stripWrites_iff]
        exact not_not.mpr keeps
      rw [writes, Bool.false_and]
    · rw [(liveOpen_iff s n).mpr live]
      exact Bool.and_false _
  rw [setStripDone, reached]
  dsimp only
  rw [handFailure_open opened, firstFailure_none_cons, pass, firstFailure_failIf_false]
  cases readStripValues source polarity dest fader mute pan mode linePunch <;> rfl

theorem exec_setStrip_ok {v : State} (h : (s.port p).takes = true)
    (done : setStripDone p surface source polarity dest fader mute pan mode linePunch
      (s.modPort p PortState.transacted) = .ok v) :
    exec (.setStrip p surface source polarity dest fader mute pan mode linePunch) s =
      .next (concluded false p 0x04 .ok [] v) := by
  rw [exec_setStrip_arm, execSetStrip, request_taken h, done]
  rfl

end Checks

/-! ### A record written, and then a mode -/

/-- The state in which the record of strip `n` is `r`, and then what its trigger makes of it. -/
def State.written (s : State) (n : StripNo) (r : Strip) : State :=
  (s.setStrip n r).setStrip n ((s.setStrip n r).turned s n)

theorem strip_written (s : State) (n : StripNo) (r : Strip) :
    (s.written n r).strip n = (s.setStrip n r).turned s n := strip_setStrip_self ..

section Rewrite
variable {p : PortId} {n : StripNo} {r : Strip} {written : List FieldValue} {reported : Bool} {m : Mode} {s : State}

/-- The whole change of a SET-STRIP. -/
def rewrite (p : PortId) (n : StripNo) (r : Strip) (written : List FieldValue) (reported : Bool) (m : Mode)
    (s : State) : State :=
  handCut s n (changeMode n m (writeChange p n r written reported s))

theorem onlyAt_rewrite : OnlyAt n s (rewrite p n r written reported m s) :=
  ((OnlyAt.writeChange p n r written reported s).trans (.changeMode n m _)).trans (.handCut s n _)

/-- The state between stands for the trigger's turn wherever the mode is changed after it. -/
theorem modeChanged_writeChange (mode : r.mode = (s.strip n).mode) :
    (writeChange p n r written reported s).modeChanged n m = (s.written n r).modeChanged n m ∧
      (writeChange p n r written reported s).modeRecords n m = (s.written n r).modeRecords n m := by
  have strip : (writeChange p n r written reported s).strip n = (s.written n r).strip n :=
    (strip_writeChange p n written reported mode).trans (strip_written ..).symm
  have only := OnlyAt.writeChange p n r written reported s
  have playback : (writeChange p n r written reported s).playback = (s.written n r).playback := only.playback
  have timeline : (writeChange p n r written reported s).timeline = (s.written n r).timeline := only.timeline
  have punching : (writeChange p n r written reported s).punching n ↔ (s.written n r).punching n := by
    unfold State.punching State.armed
    rw [strip, playback]
  constructor
  · unfold State.modeChanged State.armedAfresh
    simp only [strip, playback, timeline, punching]
  · unfold State.modeRecords
    simp only [strip, timeline, punching]

theorem strip_rewrite (mode : r.mode = (s.strip n).mode) :
    (rewrite p n r written reported m s).strip n = (s.written n r).modeChanged n m := by
  rw [rewrite, handCut_strip, (turnsTo_changeMode p n m _).strip, (modeChanged_writeChange mode).1]

theorem handedOn_rewrite (mode : r.mode = (s.strip n).mode) :
    HandedOn p (fun m => reported && decide (m = n))
      (s.moveRecords p n written ++ (s.setStrip n r).turnRecords s n ++ (s.written n r).modeRecords n m) s
      (rewrite p n r written reported m s) := by
  have turn := (turnsTo_changeMode p n m (writeChange p n r written reported s)).handed
  rw [(modeChanged_writeChange mode).2] at turn
  have handed := (handedOn_writeChange p n written reported mode).trans turn
  simp only [Bool.or_false] at handed
  have after := handCut_onlyCells s n (changeMode n m (writeChange p n r written reported s))
  exact handed.then after.port after.writing after.playback

theorem modeChanged_route (s : State) (n : StripNo) (m : Mode) :
    (s.modeChanged n m).source = (s.strip n).source ∧ (s.modeChanged n m).dest = (s.strip n).dest ∧
      (s.modeChanged n m).inverted = (s.strip n).inverted := by
  unfold State.modeChanged
  split <;> exact ⟨rfl, rfl, rfl⟩

theorem routeChanged_rewrite (mode : r.mode = (s.strip n).mode) :
    routeChanged (s.strip n) ((changeMode n m (writeChange p n r written reported s)).strip n) =
      routeChanged (s.strip n) r := by
  have turned := turned_setting (s.setStrip n r) s n
  obtain ⟨source, dest, inverted⟩ := modeChanged_route (s.written n r) n m
  rw [(turnsTo_changeMode p n m _).strip, (modeChanged_writeChange mode).1]
  rw [strip_written] at source dest inverted
  rw [strip_setStrip_self] at turned
  rw [routeChanged, source, dest, inverted, ← routeChanged, routeChanged_setting turned]

/-- The retargets of a SET-STRIP that keeps the route: of the record, of the trigger, and of the mode. -/
theorem cells_rewrite (mode : r.mode = (s.strip n).mode)
    (steady : r.source = (s.strip n).source ∧ r.dest = (s.strip n).dest ∧ r.inverted = (s.strip n).inverted)
    (c : Channel) :
    ((rewrite p n r written reported m s).cells n)[c] =
      rampedCell (s.written n r) (rewrite p n r written reported m s) n c
        (rampedCell (s.setStrip n r) (s.written n r) n c (rampedCell s (s.setStrip n r) n c (s.cells n)[c])) := by
  have same : rewrite p n r written reported m s = changeMode n m (writeChange p n r written reported s) :=
    handCut_steady ((routeChanged_rewrite mode).trans ((routeChanged_iff ..).mpr steady))
  have strip : (writeChange p n r written reported s).strip n = (s.written n r).strip n :=
    (strip_writeChange p n written reported mode).trans (strip_written ..).symm
  have only := OnlyAt.writeChange p n r written reported s
  have used : (writeChange p n r written reported s).used n = (s.written n r).used n :=
    used_congr strip (by rw [only.playback]; rfl)
  have target : (writeChange p n r written reported s).target n c = (s.written n r).target n c :=
    target_congr strip (by rw [only.playback]; rfl) (by rw [only.busTable]; rfl) (by rw [only.busTable]; rfl) c
  rw [same, (turnsTo_changeMode p n m (writeChange p n r written reported s)).ramped c,
    cells_writeChange p n written reported mode c, rampedCell_congr rfl rfl used target]
  exact rampedCell_congr used only.rampLength rfl rfl _

theorem cut_rewrite (mode : r.mode = (s.strip n).mode)
    (routed : ¬(r.source = (s.strip n).source ∧ r.dest = (s.strip n).dest ∧ r.inverted = (s.strip n).inverted)) :
    Cut n s (rewrite p n r written reported m s) := by
  refine cut_handCut ?_
  rw [routeChanged_rewrite mode, ← Bool.not_eq_false]
  exact fun h => routed ((routeChanged_iff ..).mp h)

end Rewrite

/-! ### What the trigger makes of the record written -/

section Turn
variable {n : StripNo} {r : Strip} {s : State}

/-- The trigger stands where the line punch stands, or cannot reach it. -/
theorem written_untriggered (mode : r.mode = (s.strip n).mode) (toucher : r.toucher = (s.strip n).toucher)
    (still : r.linePunch = (s.strip n).linePunch ∨ s.armed n = false ∨ s.timeline.punch.filtered = false ∨
      (s.strip n).mode = .write ∨ (s.strip n).toucher ≠ none) :
    (s.written n r).strip n = (s.setStrip n r).strip n := by
  have strip : (s.setStrip n r).strip n = r := strip_setStrip_self ..
  have armed : (s.setStrip n r).armed n = s.armed n := by
    rw [State.armed, State.armed, strip, mode]
    rfl
  have pressing : (s.setStrip n r).pressing n ↔
      ((s.strip n).toucher ≠ none ∨ (r.linePunch = true ∧ s.timeline.punch.filtered = true)) := by
    unfold State.pressing State.linePunched
    rw [strip, toucher]
    rfl
  have unmoved : (s.setStrip n r).armed n = true → (s.strip n).mode.triggered →
      ((s.setStrip n r).pressing n ↔ s.pressing n) := by
    intro on triggered
    rw [pressing]
    unfold State.pressing State.linePunched
    rcases still with line | off | filtered | write | touched
    · rw [line]
    · rw [armed, off] at on; cases on
    · simp only [filtered, Bool.false_eq_true, and_false]
    · exact absurd write (triggered_ne_write triggered)
    · simp only [touched, ne_eq, not_false_eq_true, true_or]
  have mode' : ((s.setStrip n r).strip n).mode = (s.strip n).mode := by rw [strip, mode]
  have rises : ¬(s.setStrip n r).triggerRises s n := fun h =>
    h.2.2.1 ((unmoved h.1 (mode' ▸ h.2.1)).mp h.2.2.2)
  have falls : ¬(s.setStrip n r).triggerFalls s n := fun h =>
    h.2.2.2 ((unmoved h.1 (mode' ▸ h.2.1)).mpr h.2.2.1)
  rw [strip_written, turned_still rises falls]

/-- The live fields written stand, but for a punch-in of a READY strip. -/
theorem written_live (mode : r.mode = (s.strip n).mode) (state : r.writeState = (s.strip n).writeState)
    (stands : s.armed n = false ∨ s.punching n) :
    ((s.written n r).strip n).fader = r.fader ∧ ((s.written n r).strip n).mute = r.mute ∧
      ((s.written n r).strip n).pan = r.pan := by
  have strip : (s.setStrip n r).strip n = r := strip_setStrip_self ..
  have armed : (s.setStrip n r).armed n = s.armed n := by
    rw [State.armed, State.armed, strip, mode]
    rfl
  rw [strip_written]
  by_cases rises : (s.setStrip n r).triggerRises s n
  · have punching : s.punching n := stands.resolve_left fun off => by
      have on := rises.1
      rw [armed, off] at on
      cases on
    rw [turned_rise rises, if_neg, strip]
    · exact ⟨rfl, rfl, rfl⟩
    · rw [strip, state]
      rcases punching.2 with w | w <;> simp [w]
  · by_cases falls : (s.setStrip n r).triggerFalls s n
    · rw [turned_fall falls, strip]
      exact ⟨rfl, rfl, rfl⟩
    · rw [turned_still rises falls, strip]
      exact ⟨rfl, rfl, rfl⟩

end Turn

theorem modeChanged_live (s : State) (n : StripNo) (m : Mode) :
    (s.modeChanged n m).fader = (s.strip n).fader ∧ (s.modeChanged n m).mute = (s.strip n).mute ∧
      (s.modeChanged n m).pan = (s.strip n).pan := by
  unfold State.modeChanged
  split <;> exact ⟨rfl, rfl, rfl⟩

end Sys2Proof.Machine

/-!
PROOFS. SET-STRIP, settled.
-/
namespace Sys2Proof.Machine

/-- The record that a SET-STRIP writes, the mode apart. -/
def Strip.carrying (r : Strip) (v : StripValues) (l : List PanEntry) : Strip :=
  { r with
    source := v.source, inverted := v.inverted, dest := v.dest, linePunch := v.linePunch, fader := v.fader,
    mute := v.mute, pan := l }

theorem rewritten_eq {r : Strip} {v : StripValues} {pan : Value13} {l : List PanEntry} (read : v.pan = readPan pan)
    (carried : carriesPan pan l) : r.rewritten v = r.carrying v l := by
  rw [Strip.rewritten, read, carriesPan_list carried]
  rfl

/-- A SET-STRIP changes something: the route, an automated field, the line punch or the mode. -/
theorem carrying_ne_iff {r : Strip} {v : StripValues} {l : List PanEntry} :
    (r.carrying v l != r || v.mode != r.mode) = true ↔
      ¬((v.source = r.source ∧ v.dest = r.dest ∧ v.inverted = r.inverted) ∧
        differing r v.fader v.mute l = [] ∧ v.linePunch = r.linePunch ∧ v.mode = r.mode) := by
  have fields : differing r v.fader v.mute l = [] ↔ v.fader = r.fader ∧ v.mute = r.mute ∧ l = r.pan := by
    unfold differing
    by_cases f : v.fader = r.fader <;> by_cases m : v.mute = r.mute <;> by_cases q : l = r.pan <;> simp [f, m, q]
  have same : r.carrying v l = r ↔ (v.source = r.source ∧ v.dest = r.dest ∧ v.inverted = r.inverted) ∧
      (v.fader = r.fader ∧ v.mute = r.mute ∧ l = r.pan) ∧ v.linePunch = r.linePunch := by
    obtain ⟨source, inverted, dest, fader, mute, pan, mode, line⟩ := r
    simp only [Strip.carrying, Strip.mk.injEq]
    tauto
  rw [Bool.or_eq_true, bne_iff_ne, bne_iff_ne, Ne, Ne, same, fields]
  tauto

/-- A SET-STRIP that passes every check, as its request shows it. -/
theorem setStrip_changes {p : PortId} {n : StripNo} {v : StripValues} {l : List PanEntry} {s : State}
    (h : (s.port p).takes = true) :
    let u := s.setStrip n ((s.strip n).carrying v l)
    let x := s.written n ((s.strip n).carrying v l)
    let t := concluded false p 0x04 .ok [] (rewrite p n ((s.strip n).carrying v l)
      (differing (s.strip n) v.fader v.mute l) ((s.strip n).carrying v l != s.strip n || v.mode != (s.strip n).mode) v.mode
      (s.modPort p PortState.transacted))
    t.strip n = x.modeChanged n v.mode ∧
      Queued (s.moveRecords p n (differing (s.strip n) v.fader v.mute l) ++ u.turnRecords s n ++ x.modeRecords n v.mode)
        s t ∧
      (if v.source = (s.strip n).source ∧ v.dest = (s.strip n).dest ∧ v.inverted = (s.strip n).inverted then
          (∀ c : Channel, (t.cells n)[c] = rampedCell x t n c (rampedCell u x n c (rampedCell s u n c (s.cells n)[c]))) ∧
          (if differing (s.strip n) v.fader v.mute l = [] ∧ v.linePunch = (s.strip n).linePunch ∧
              v.mode = (s.strip n).mode
            then Unreported p s t else Reported p n s t)
        else Cut n s t ∧ Reported p n s t) ∧
      OnlyStrip p n s t ∧ (t.port p).replySlot = reply 0x04 .ok [] := by
  intro u x t
  have mode : ((s.strip n).carrying v l).mode = ((s.modPort p PortState.transacted).strip n).mode := rfl
  have handed := handedOn_rewrite (p := p) (written := differing (s.strip n) v.fader v.mute l)
    (reported := (s.strip n).carrying v l != s.strip n || v.mode != (s.strip n).mode) (m := v.mode) mode
  have shown := shown_concluded (posted := false) h handed 0x04 .ok []
  have changes := carrying_ne_iff (r := s.strip n) (v := v) (l := l)
  refine ⟨strip_rewrite mode, shown.queued, ?_, onlyStrip_concluded onlyAt_rewrite shown, shown.replied⟩
  split
  · next steady =>
    refine ⟨fun c => ?_, ?_⟩
    · have cell := cells_rewrite (p := p) (written := differing (s.strip n) v.fader v.mute l)
        (reported := (s.strip n).carrying v l != s.strip n || v.mode != (s.strip n).mode) (m := v.mode) mode steady c
      exact cell
    split
    · next same =>
      refine shown.reported.unhit ?_
      rw [← Bool.not_eq_true, changes]
      exact not_not.mpr ⟨steady, same⟩
    · next differs => exact shown.reported.hit (changes.mpr fun k => differs k.2)
  · next routed =>
    have cut := cut_rewrite (p := p) (written := differing (s.strip n) v.fader v.mute l)
      (reported := (s.strip n).carrying v l != s.strip n || v.mode != (s.strip n).mode) (m := v.mode) mode routed
    exact ⟨cut, shown.reported.hit (changes.mpr fun k => routed k.1)⟩

/-- Settles O26. -/
theorem setStripWritesTheCarriedRecord : Obligations.SetStripWritesTheCarriedRecord := by
  intro p surface source polarity dest fader mute pan mode linePunch n v l u x s h reached opened
  have opened' : ((s.modPort p PortState.transacted).strip n).openTo p := opened
  have reached' := (reachForChange_transacted h surface.toNat).trans reached
  refine ⟨fun differs closed => ?_, fun permitted => ?_⟩
  · exact exec_setStrip_refused h (setStripDone_automated reached' opened' differs closed)
  have done := setStripDone_open (source := source) (polarity := polarity) (dest := dest) (mode := mode)
    (linePunch := linePunch) reached' opened' permitted
  refine ⟨fun out => ?_, fun read entries => ⟨fun bad => ?_, fun count allowed routed hu hx => ?_⟩⟩
  · rw [readStripValues_none out] at done
    exact exec_setStrip_refused h done
  · rw [read] at done
    refine exec_setStrip_refused h (done.trans (if_neg ?_))
    have isPan := readStripValues_pan read
    rw [isPan] at entries bad ⊢
    rw [← or_assoc] at bad
    rcases bad with misshapen | unrouted
    · have unshaped := pan_unshaped (t := s.busTable) entries misshapen
      rw [Bool.not_eq_true, Bool.and_eq_false_iff]
      exact .inl unshaped
    · rw [unrouted, Bool.and_false]
      exact Bool.false_ne_true
  · rw [read] at done
    have isPan := readStripValues_pan read
    have carried : carriesPan pan l := by rw [isPan] at count entries; exact ⟨count, entries⟩
    have judged : (v.pan.shaped && s.busTable.panFits v.dest v.pan.list && routeAllowed v.source v.dest) = true := by
      rw [isPan, pan_shaped carried allowed, routed]
      rfl
    have result := done.trans (if_pos judged)
    have fields := writtenFields_eq (r := s.strip n) isPan carried
    have record := rewritten_eq (r := s.strip n) isPan carried
    have written : setStripDone p surface source polarity dest fader mute pan mode linePunch
        (s.modPort p PortState.transacted) =
        .ok (rewrite p n ((s.strip n).carrying v l) (differing (s.strip n) v.fader v.mute l)
          ((s.strip n).carrying v l != s.strip n || v.mode != (s.strip n).mode) v.mode
          (s.modPort p PortState.transacted)) := by
      rw [← fields, ← record]
      exact result
    have hu' : u = s.setStrip n ((s.strip n).carrying v l) := hu
    have hx' : x = s.written n ((s.strip n).carrying v l) := by rw [hx, hu']; rfl
    obtain ⟨strip, queued, cells, only, replied⟩ := setStrip_changes (n := n) (v := v) (l := l) h
    rw [← hx'] at strip queued cells
    rw [← hu'] at queued cells
    have setting : ((s.strip n).carrying v l).SameSetting (x.strip n) := by
      have turned := turned_setting (s.setStrip n ((s.strip n).carrying v l)) s n
      rwa [strip_setStrip_self, ← strip_written, ← hx'] at turned
    have mode_x : (x.strip n).mode = (s.strip n).mode := by rw [setting]; rfl
    have timeline : x.timeline = s.timeline := by rw [hx']; rfl
    have playback : x.playback = s.playback := by rw [hx']; rfl
    have fresh : x.armedAfresh n v.mode (x.strip n).linePunch = s.armedAfresh n v.mode v.linePunch := by
      have toucher : (x.strip n).toucher = (s.strip n).toucher := by rw [setting]; rfl
      have line : (x.strip n).linePunch = v.linePunch := by rw [setting]; rfl
      rw [line]
      unfold State.armedAfresh
      rw [toucher, timeline, playback]
    refine ⟨_, exec_setStrip_ok h written, ?_, fun still => ?_, fun stands => ?_, ?_, cells, only, replied⟩
    · rw [strip, State.modeChanged, mode_x, fresh]
    · rw [hx', hu']
      exact written_untriggered rfl rfl still
    · rw [strip]
      obtain ⟨f, m, q⟩ := modeChanged_live x n v.mode
      have live := written_live (r := (s.strip n).carrying v l) rfl rfl stands
      rw [← hx'] at live
      rw [f, m, q]
      exact live
    · rw [State.modeRecords, mode_x, timeline] at queued
      exact queued

end Sys2Proof.Machine

/-!
PROOFS. TOUCH and UNTOUCH (R79 to R81): the trigger that a touch is, and what it turns.
-/
namespace Sys2Proof.Machine

/-! ### A change of what a trigger reads -/

theorem setStrip_eq_modStrip (s : State) (n : StripNo) (f : Strip → Strip) :
    s.modStrip n f = s.setStrip n (f (s.strip n)) := rfl

/-- A record written that keeps the mode and the used values, and the turn of its trigger. -/
theorem turnsTo_triggerWritten (p : PortId) (n : StripNo) {r : Strip} {s : State} (mode : r.mode = (s.strip n).mode)
    (used : (s.setStrip n r).used n = s.used n) :
    TurnsTo p n ((s.setStrip n r).turned s n) ((s.setStrip n r).turnRecords s n) s
      (triggerChange s n (s.setStrip n r)) := by
  have strip : (s.setStrip n r).strip n = r := strip_setStrip_self ..
  have turn := turnsTo_triggerChange (p := p) (n := n) (old := s) (s := s.setStrip n r) (by rw [strip, mode]) fun write => by
    rw [strip] at write
    rw [trigger_eq, trigger_eq, triggered_write (by rw [← mode, write]), triggered_write (by rw [strip, write])]
    rfl
  refine ⟨(OnlyAt.modStrip n (fun _ => r) s).trans turn.only, turn.strip, turn.handed.after (fun _ => rfl) rfl rfl,
    fun c => ?_⟩
  exact (turn.ramped c).trans (rampedCell_congr used.symm rfl rfl rfl _).symm

theorem turnsTo_changeToucher (p : PortId) (n : StripNo) (o : Option PortId) (s : State) :
    TurnsTo p n ((s.setStrip n { s.strip n with toucher := o }).turned s n)
      ((s.setStrip n { s.strip n with toucher := o }).turnRecords s n) s (changeToucher n o s) := by
  unfold changeToucher
  rw [setStrip_eq_modStrip]
  refine turnsTo_triggerWritten p n rfl ?_
  rw [State.used, strip_setStrip_self]
  rfl

/-! ### The records of a turn (R133, R137) -/

section Records
variable {old s : State} {n : StripNo}

theorem turnRecords_punchIn (rises : s.triggerRises old n)
    (punches : (s.strip n).writeState = .ready ∧ s.timeline.counting = true) :
    s.turnRecords old n =
      [.punchIn s.timeline.counter n (s.strip n).toucher (s.strip n).mode (s.punchedIn n).fader (s.punchedIn n).mute
        (s.punchedIn n).pan (if (s.strip n).mode = .trim then some 16384 else none)] :=
  if_pos ⟨rises, punches⟩

theorem turnRecords_rise (rises : s.triggerRises old n)
    (still : ¬((s.strip n).writeState = .ready ∧ s.timeline.counting = true)) : s.turnRecords old n = [] := by
  rw [State.turnRecords, if_neg fun h => still h.2, if_neg fun h => not_falls_of_rises rises h.1]

theorem turnRecords_fall (falls : s.triggerFalls old n) :
    s.turnRecords old n =
      if (s.strip n).writeState = .writing ∧ (s.strip n).mode ≠ .latch then [.punchOut s.timeline.counter n .release]
      else [] := by
  rw [State.turnRecords, if_neg fun h => not_falls_of_rises h.1 falls]
  exact if_congr (and_iff_right falls) rfl rfl

end Records

/-! ### What a request shows of a turn -/

theorem turned_concluded {p : PortId} {n : StripNo} {r : Strip} {s v : State} (h : (s.port p).takes = true)
    (turn : TurnsTo p n (((s.modPort p PortState.transacted).setStrip n r).turned (s.modPort p PortState.transacted) n)
      (((s.modPort p PortState.transacted).setStrip n r).turnRecords (s.modPort p PortState.transacted) n)
      (s.modPort p PortState.transacted) v) (code : Byte) (items : List Byte) :
    Turned n r s (concluded false p code .ok items v) ∧ Unreported p s (concluded false p code .ok items v) ∧
      OnlyStrip p n s (concluded false p code .ok items v) ∧
      ((concluded false p code .ok items v).port p).replySlot = reply code .ok items := by
  have shown := shown_concluded (posted := false) h turn.handed code .ok items
  exact ⟨⟨turn.strip, shown.queued, turn.ramped⟩, shown.reported, onlyStrip_concluded turn.only shown, shown.replied⟩

/-- A turn that leaves the used values moves no cell. -/
theorem cells_of_ramped {n : StripNo} {s t : State} (ramped : Ramped n s t) (used : t.used n = s.used n) :
    t.cells n = s.cells n :=
  Vector.ext fun i hi => (ramped ⟨i, hi⟩).trans (rampedCell_same used ..)

theorem writing_of_queued {s t : State} (h : Queued [] s t) : t.writing = s.writing := by
  rw [h.1, afterRecords_nil]

/-! ### When a touch is a rise or a fall (R127) -/

section Touch
variable {n : StripNo} {s : State} {o : Option PortId}

theorem pressing_touched (o : Option PortId) :
    (s.setStrip n { s.strip n with toucher := o }).pressing n ↔ o ≠ none ∨ s.linePunched n := by
  have strip : (s.setStrip n { s.strip n with toucher := o }).strip n = { s.strip n with toucher := o } :=
    strip_setStrip_self ..
  unfold State.pressing State.linePunched
  rw [strip]
  rfl

theorem triggerRises_touched (o : Option PortId) :
    (s.setStrip n { s.strip n with toucher := o }).triggerRises s n ↔
      s.armed n = true ∧ (s.strip n).mode.triggered ∧ ¬s.pressing n ∧ (o ≠ none ∨ s.linePunched n) := by
  have strip : (s.setStrip n { s.strip n with toucher := o }).strip n = { s.strip n with toucher := o } :=
    strip_setStrip_self ..
  have armed : (s.setStrip n { s.strip n with toucher := o }).armed n = s.armed n := by
    rw [State.armed, strip]
    rfl
  unfold State.triggerRises
  rw [pressing_touched, armed, strip]

theorem triggerFalls_touched (o : Option PortId) :
    (s.setStrip n { s.strip n with toucher := o }).triggerFalls s n ↔
      s.armed n = true ∧ (s.strip n).mode.triggered ∧ s.pressing n ∧ ¬(o ≠ none ∨ s.linePunched n) := by
  have strip : (s.setStrip n { s.strip n with toucher := o }).strip n = { s.strip n with toucher := o } :=
    strip_setStrip_self ..
  have armed : (s.setStrip n { s.strip n with toucher := o }).armed n = s.armed n := by
    rw [State.armed, strip]
    rfl
  unfold State.triggerFalls
  rw [pressing_touched, armed, strip]

/-- A touch rises on an armed strip whose trigger nothing else holds, and never falls. -/
theorem touched_rises (p : PortId) :
    (s.setStrip n { s.strip n with toucher := some p }).triggerRises s n ↔
      s.armed n = true ∧ (s.strip n).mode.triggered ∧ (s.strip n).toucher = none ∧ ¬s.linePunched n := by
  rw [triggerRises_touched]
  unfold State.pressing
  simp only [ne_eq, reduceCtorEq, not_false_eq_true, true_or, and_true, not_or, not_not]

theorem touched_falls (p : PortId) : ¬(s.setStrip n { s.strip n with toucher := some p }).triggerFalls s n := fun h =>
  ((triggerFalls_touched (some p)).mp h).2.2.2 (.inl (by simp))

/-- The end of a touch falls on an armed strip whose trigger the line punch does not hold, and never rises. -/
theorem untouched_falls (touched : (s.strip n).toucher ≠ none) :
    (s.setStrip n { s.strip n with toucher := none }).triggerFalls s n ↔
      s.armed n = true ∧ (s.strip n).mode.triggered ∧ ¬s.linePunched n := by
  rw [triggerFalls_touched]
  unfold State.pressing
  simp only [touched, ne_eq, not_true_eq_false, not_false_eq_true, true_or, false_or, true_and]

theorem untouched_rises (touched : (s.strip n).toucher ≠ none) :
    ¬(s.setStrip n { s.strip n with toucher := none }).triggerRises s n := fun h =>
  ((triggerRises_touched none).mp h).2.2.1 (.inl touched)

/-- A toucher is no used value. -/
theorem used_toucher (s : State) (n : StripNo) (o : Option PortId) :
    (s.setStrip n { s.strip n with toucher := o }).used n = s.used n := by
  rw [State.used, strip_setStrip_self]
  rfl

end Touch

/-! ### What a punch-in leaves of the used values (R136) -/

theorem afterRise_punched {counting : Bool} {w : WriteState} (h : ¬(w = .ready ∧ counting = true)) :
    (afterRise counting w).punched = w.punched := by
  cases w <;> cases counting <;> simp_all [afterRise, WriteState.punched]

theorem trimmed_at_unity (x : Nat) : trimmed x 16384 = min 65535 x := by
  rw [trimmed, Config.max16]
  omega

/-- A record whose live fields are loaded from the values a TRIM strip at unity uses. -/
theorem used_loaded_trim {r r' : Strip} (mode : r.mode = .trim) (mode' : r'.mode = .trim) (unity : r.trim = 16384)
    (unity' : r'.trim = 16384)
    (shadows : r'.shadowFader = r.shadowFader ∧ r'.shadowMute = r.shadowMute ∧ r'.shadowPan = r.shadowPan)
    (live : r'.live = r.used true) : r'.used true = r.used true := by
  obtain ⟨shadowFader, shadowMute, shadowPan⟩ := shadows
  have used := used_of_trim mode
  rw [unity, trimmed_at_unity] at used
  rw [used] at live ⊢
  rw [used_of_trim mode', unity', trimmed_at_unity]
  injection live with fader mute pan
  unfold Strip.shadowed at *
  rw [shadowFader, shadowMute, shadowPan]
  cases f : r.shadowFader <;> cases m : r.shadowMute <;> cases q : r.shadowPan <;> simp_all

/-- Where no entry is left out and the trim stands at unity, a punch-in keeps the used values. -/
theorem used_punchedIn {s t : State} {n : StripNo} (strip : t.strip n = s.punchedIn n) (open_s : s.playback.passOpen = true)
    (open_t : t.playback.passOpen = true) (mode : (s.strip n).mode.triggered) (pan : (t.strip n).pan = (s.used n).pan)
    (unity : (s.strip n).mode = .trim → (s.strip n).trim = 16384) : t.used n = s.used n := by
  have mode_t : (t.strip n).mode = (s.strip n).mode := by rw [strip]; rfl
  have live : (t.strip n).live = s.used n := by
    rw [Strip.live, pan, strip]
    rfl
  have writes : (t.strip n).writeState = .writing := by rw [strip]; rfl
  rw [State.used, open_t]
  rw [State.used, open_s] at live ⊢
  rcases mode with m | m | m
  · rw [used_of_punched (.inr (.inl (mode_t.trans m))) (.inl writes), live]
  · rw [used_of_punched (.inr (.inr (mode_t.trans m))) (.inl writes), live]
  · refine used_loaded_trim m (mode_t.trans m) (unity m) ?_ ?_ live
    · rw [strip]
      exact unity m
    · rw [strip]
      exact ⟨rfl, rfl, rfl⟩

theorem punchedIn_pan {s : State} {n : StripNo} (some_entry : (s.used n).pan ≠ [])
    (fits : ∀ w, s.busTable.destWidth (s.strip n).dest = some w → ∀ e ∈ (s.used n).pan, e.channel.val < w) :
    (s.punchedIn n).pan = (s.used n).pan := by
  unfold State.punchedIn
  dsimp only
  cases width : s.busTable.destWidth (s.strip n).dest with
  | none => rfl
  | some w =>
    have kept : (s.used n).pan.filter (fun e => decide (e.channel.val < w)) = (s.used n).pan :=
      List.filter_eq_self.mpr fun e he => decide_eq_true (fits w width e he)
    dsimp only
    rw [kept]
    cases entries : (s.used n).pan with
    | nil => exact absurd entries some_entry
    | cons e rest => rfl

/-! ### TOUCH -/

section Requests
variable {p : PortId} {surface : Byte} {n : StripNo} {s : State}

theorem exec_touch_ok (h : (s.port p).takes = true) (reached : reachForChange (s.port p) surface.toNat = .ok n)
    (opened : (s.strip n).openTo p) :
    exec (.touch p surface) s =
      .next (concluded false p 0x23 .ok
        (wWriteState (changeToucher n (some p) (s.modPort p PortState.transacted)) n)
        (changeToucher n (some p) (s.modPort p PortState.transacted))) := by
  rw [exec_touch_arm, execTouch, request_taken h]
  dsimp only
  rw [reachForChange_transacted h, reached]
  dsimp only
  have free : handFailure p ((s.modPort p PortState.transacted).strip n) = none := handFailure_open opened
  rw [free]
  rfl

theorem exec_untouch_own (h : (s.port p).takes = true) (reached : reach (s.port p) surface.toNat = .ok n)
    (touched : (s.strip n).toucher = some p) :
    exec (.untouch p surface) s =
      .next (concluded false p 0x24 .ok
        (wWriteState (changeToucher n none (s.modPort p PortState.transacted)) n)
        (changeToucher n none (s.modPort p PortState.transacted))) := by
  have own : endTouch p (.strip n) (s.modPort p PortState.transacted) =
      changeToucher n none (s.modPort p PortState.transacted) := if_pos touched
  rw [exec_untouch_arm, execUntouch, request_taken h]
  dsimp only
  rw [reach_transacted h, reached]
  dsimp only
  rw [own]
  rfl

theorem exec_untouch_other (h : (s.port p).takes = true) (reached : reach (s.port p) surface.toNat = .ok n)
    (untouched : (s.strip n).toucher ≠ some p) :
    exec (.untouch p surface) s = .next (s.leaves p (reply 0x24 .ok [BitVec.ofNat 8 (s.strip n).writeState.code])) := by
  have stays : endTouch p (.strip n) (s.modPort p PortState.transacted) = s.modPort p PortState.transacted :=
    if_neg untouched
  rw [exec_untouch_arm, execUntouch]
  refine request_leaves h rfl ?_
  rw [reach_transacted h, reached]
  dsimp only
  rw [stays]
  rfl

end Requests

end Sys2Proof.Machine

/-!
PROOFS. TOUCH and UNTOUCH, settled.
-/
namespace Sys2Proof.Machine

section Outcome
variable {p : PortId} {n : StripNo} {s t : State}

/-- A touch that is no rise of the trigger changes the toucher alone. -/
theorem touched_still (turned : Turned n { s.strip n with toucher := some p } s t)
    (playback : t.playback = s.playback)
    (still : ¬(s.armed n = true ∧ (s.strip n).mode.triggered ∧ (s.strip n).toucher = none ∧ ¬s.linePunched n)) :
    t.strip n = { s.strip n with toucher := some p } ∧ t.writing = s.writing ∧ t.cells n = s.cells n := by
  obtain ⟨strip, queued, ramped⟩ := turned
  have rises := mt (touched_rises p).mp still
  rw [turned_still rises (touched_falls p), strip_setStrip_self] at strip
  rw [turnRecords_still rises (touched_falls p)] at queued
  refine ⟨strip, writing_of_queued queued, cells_of_ramped ramped ?_⟩
  rw [State.used, strip, playback]
  rfl

/-- A touch that is a rise of the trigger (R132). -/
theorem touched_rise (turned : Turned n { s.strip n with toucher := some p } s t)
    (playback : t.playback = s.playback)
    (rise : s.armed n = true ∧ (s.strip n).mode.triggered ∧ (s.strip n).toucher = none ∧ ¬s.linePunched n) :
    (t.strip n).writeState = afterRise s.timeline.counting (s.strip n).writeState ∧
      (¬((s.strip n).writeState = .ready ∧ s.timeline.counting = true) →
        t.strip n =
          { s.strip n with
            toucher := some p, writeState := afterRise s.timeline.counting (s.strip n).writeState } ∧
        t.writing = s.writing ∧ t.cells n = s.cells n) ∧
      ((s.strip n).writeState = .ready → s.timeline.counting = true →
        Queued [.punchIn s.timeline.counter n (some p) (s.strip n).mode (t.strip n).fader (t.strip n).mute
          (t.strip n).pan (if (s.strip n).mode = .trim then some 16384 else none)] s t ∧
        (t.strip n).fader = (s.used n).fader ∧ (t.strip n).mute = (s.used n).mute ∧
        ((s.used n).pan ≠ [] →
          (∀ w, s.busTable.destWidth (s.strip n).dest = some w → ∀ e ∈ (s.used n).pan, e.channel.val < w) →
          ((s.strip n).mode = .trim → (s.strip n).trim = 16384) →
          (t.strip n).pan = (s.used n).pan ∧ t.used n = s.used n ∧ t.cells n = s.cells n)) := by
  obtain ⟨strip, queued, ramped⟩ := turned
  have rises := (touched_rises p).mpr rise
  have written : (s.setStrip n { s.strip n with toucher := some p }).strip n = { s.strip n with toucher := some p } :=
    strip_setStrip_self ..
  have used := used_toucher s n (some p)
  rw [turned_rise rises, written] at strip
  by_cases punches : (s.strip n).writeState = .ready ∧ s.timeline.counting = true
  · have loaded : t.strip n = (s.setStrip n { s.strip n with toucher := some p }).punchedIn n :=
      strip.trans (if_pos punches)
    rw [turnRecords_punchIn rises (by rw [written]; exact punches), written, ← loaded] at queued
    refine ⟨?_, fun h => absurd punches h, fun _ _ => ⟨?_, ?_, ?_, fun entry fits unity => ?_⟩⟩
    · rw [loaded, punches.1, punches.2]
      rfl
    · exact queued
    · rw [loaded, ← used]
      rfl
    · rw [loaded, ← used]
      rfl
    · have pan : (t.strip n).pan = (s.used n).pan := by
        rw [loaded, ← used]
        refine punchedIn_pan (by rw [used]; exact entry) ?_
        rw [written, used]
        exact fits
      have open_s := armed_open rise.1
      have same : t.used n = s.used n := by
        rw [← used]
        refine used_punchedIn loaded open_s (by rw [playback]; exact open_s) ?_ (by rw [pan, used]) ?_
        · rw [written]; exact rise.2.1
        · rw [written]; exact unity
      exact ⟨pan, same, cells_of_ramped ramped same⟩
  · have moved : t.strip n =
        { s.strip n with toucher := some p, writeState := afterRise s.timeline.counting (s.strip n).writeState } :=
      strip.trans (if_neg punches)
    rw [turnRecords_rise rises (by rw [written]; exact punches)] at queued
    refine ⟨by rw [moved], fun _ => ⟨moved, writing_of_queued queued, cells_of_ramped ramped ?_⟩,
      fun ready counting => absurd ⟨ready, counting⟩ punches⟩
    rw [State.used, moved, playback]
    exact used_writeState (r := { s.strip n with toucher := some p }) (afterRise_punched punches) _

/-- The end of a touch that is no fall of the trigger changes the toucher alone. -/
theorem untouched_still (turned : Turned n { s.strip n with toucher := none } s t) (playback : t.playback = s.playback)
    (touched : (s.strip n).toucher ≠ none)
    (still : ¬(s.armed n = true ∧ (s.strip n).mode.triggered ∧ ¬s.linePunched n)) :
    t.strip n = { s.strip n with toucher := none } ∧ t.writing = s.writing ∧ t.cells n = s.cells n := by
  obtain ⟨strip, queued, ramped⟩ := turned
  have falls := mt (untouched_falls touched).mp still
  rw [turned_still (untouched_rises touched) falls, strip_setStrip_self] at strip
  rw [turnRecords_still (untouched_rises touched) falls] at queued
  refine ⟨strip, writing_of_queued queued, cells_of_ramped ramped ?_⟩
  rw [State.used, strip, playback]
  rfl

/-- The end of a touch that is a fall of the trigger (R133). -/
theorem untouched_fall (turned : Turned n { s.strip n with toucher := none } s t) (touched : (s.strip n).toucher ≠ none)
    (fall : s.armed n = true ∧ (s.strip n).mode.triggered ∧ ¬s.linePunched n) :
    t.strip n =
        { s.strip n with
          toucher := none, writeState := afterFall (s.strip n).mode (s.strip n).writeState,
          trim := if (s.strip n).mode = .trim ∧ (s.strip n).writeState = .writing then 16384 else (s.strip n).trim } ∧
      Queued (if (s.strip n).writeState = .writing ∧ (s.strip n).mode ≠ .latch then
        [.punchOut s.timeline.counter n .release] else []) s t ∧ Ramped n s t := by
  obtain ⟨strip, queued, ramped⟩ := turned
  have falls := (untouched_falls touched).mpr fall
  have written : (s.setStrip n { s.strip n with toucher := none }).strip n = { s.strip n with toucher := none } :=
    strip_setStrip_self ..
  rw [turned_fall falls, written] at strip
  refine ⟨strip, ?_, ramped⟩
  rw [turnRecords_fall falls, written] at queued
  exact queued

end Outcome

/-- Settles O45: a touch is the turn of a trigger. -/
theorem touchAndUntouchDriveTheWriteState : Obligations.TouchAndUntouchDriveTheWriteState := by
  intro p surface n s h
  refine ⟨fun reached opened => ?_, fun reached => ⟨exec_untouch_other h reached, fun touched => ?_⟩⟩
  · have turn := turnsTo_changeToucher p n (some p) (s.modPort p PortState.transacted)
    obtain ⟨turned, unreported, only, replied⟩ := turned_concluded h turn 0x23
      (wWriteState (changeToucher n (some p) (s.modPort p PortState.transacted)) n)
    have playback := turn.only.playback
    exact ⟨_, exec_touch_ok h reached opened, turned, unreported, only, replied, touched_still turned playback,
      touched_rise turned playback⟩
  · have turn := turnsTo_changeToucher p n none (s.modPort p PortState.transacted)
    obtain ⟨turned, unreported, only, replied⟩ := turned_concluded h turn 0x24
      (wWriteState (changeToucher n none (s.modPort p PortState.transacted)) n)
    have some_toucher : (s.strip n).toucher ≠ none := by rw [touched]; simp
    have playback := turn.only.playback
    exact ⟨_, exec_untouch_own h reached touched, turned, unreported, only, replied,
      untouched_still turned playback some_toucher, untouched_fall turned some_toucher⟩

end Sys2Proof.Machine

/-!
PROOFS. SAVE and RECALL (R88 to R91).
-/
namespace Sys2Proof.Machine

theorem exec_recall_arm (p : PortId) (s : State) : exec (.recallStrip p) s = execRecall p s := rfl

/-! ### A change to the record held -/

theorem commit_same (p : PortId) (n : StripNo) (s : State) : commit p n (s.strip n) [] false s = s := by
  have stays : s.setStrip n (s.strip n) = s := by
    rw [← setStrip_eq_modStrip s n fun r => r]
    simp [State.modStrip, upd]
  have retargeted : handRetarget s n s = s := if_pos rfl
  have written : changed p n (s.strip n) [] false s = s := by
    unfold changed
    dsimp only
    rw [stays, retargeted]
    exact ite_self _
  have turned : writeChange p n (s.strip n) [] false s = s := by
    rw [writeChange_eq, written]
    exact triggerChange_same (.inr rfl)
  rw [commit, turned]
  exact handCut_steady ((routeChanged_iff ..).mpr ⟨rfl, rfl, rfl⟩)

section Stack
variable {p : PortId} {surface : Byte} {n : StripNo} {k : Snapshot} {rest : List Snapshot} {s : State}

theorem exec_save_ok (h : (s.port p).takes = true) (reached : reachForChange (s.port p) surface.toNat = .ok n) :
    exec (.save p surface) s =
      .next ((s.modPort p fun qs =>
        { qs with recallStack := (snapshotOf n (s.strip n) :: qs.recallStack).take 8 }).leaves p
          (reply 0x2A .ok [BitVec.ofNat 8 (min 8 ((s.port p).recallStack.length + 1))])) := by
  have stack : ((s.modPort p PortState.transacted).port p).recallStack = (s.port p).recallStack := by
    rw [port_transacted h]
  rw [exec_save_arm, execSave, request_taken h]
  dsimp only
  rw [reachForChange_transacted h, reached]
  dsimp only
  rw [stack, List.length_take, List.length_cons]
  refine congrArg Host.Outcome.next ?_
  refine (modPort_modPort ..).trans (Eq.trans ?_ (modPort_modPort ..).symm)
  refine (modPort_modPort ..).trans (modPort_congr ?_)
  rw [transacted_taken h]
  rfl

/-! ### RECALL -/

/-- The request state with the top snapshot removed is the request of the port without it. -/
theorem setRecall_transacted (h : (s.port p).takes = true) (rest : List Snapshot) :
    ((s.modPort p fun qs => { qs with recallStack := rest }).port p).takes = true ∧
      setRecall p rest (s.modPort p PortState.transacted) =
        (s.modPort p fun qs => { qs with recallStack := rest }).modPort p PortState.transacted := by
  have takes : ((s.modPort p fun qs => { qs with recallStack := rest }).port p).takes = true := by
    rw [port_modPort_self]
    exact h
  refine ⟨takes, (modPort_modPort ..).trans (Eq.trans ?_ (modPort_modPort ..).symm)⟩
  refine modPort_congr ?_
  rw [port_modPort_self] at takes
  rw [transacted_taken h, transacted_taken takes]

theorem exec_recall_refused (h : (s.port p).takes = true) (stack : (s.port p).recallStack = k :: rest) {st : Status}
    (failed : recallFailure p k s = some st) :
    exec (.recallStrip p) s =
      .next (s.leaves p (reply 0x2B st [BitVec.ofNat 8 k.strip.val, BitVec.ofNat 8 (rest.length + 1)])) := by
  have stack' : ((s.modPort p PortState.transacted).port p).recallStack = k :: rest := by
    rw [port_transacted h]
    exact stack
  have failed' : recallFailure p k (s.modPort p PortState.transacted) = some st := failed
  rw [exec_recall_arm, execRecall]
  refine request_leaves h rfl ?_
  rw [stack']
  dsimp only
  rw [failed']
  rfl

theorem exec_recall_empty (h : (s.port p).takes = true) (stack : (s.port p).recallStack = []) :
    exec (.recallStrip p) s = .next (s.leaves p (reply 0x2B .empty [0xFF, 0])) := by
  have stack' : ((s.modPort p PortState.transacted).port p).recallStack = [] := by
    rw [port_transacted h]
    exact stack
  rw [exec_recall_arm, execRecall]
  refine request_leaves h rfl ?_
  rw [stack']

/-- A snapshot put back is a change of its strip, reported where a field differs (R91). -/
theorem recallApply_eq (p : PortId) (k : Snapshot) (s : State) :
    recallApply p k s =
      commit p k.strip ((s.strip k.strip).recalled k) (snapshotWrites k (s.strip k.strip))
        ((s.strip k.strip).recalled k != s.strip k.strip) s := by
  rw [recallApply]
  by_cases same : (s.strip k.strip).recalled k = s.strip k.strip
  · have fields : snapshotWrites k (s.strip k.strip) = [] := by
      unfold Strip.recalled at same
      rw [snapshotWrites, if_pos (congrArg Strip.fader same), if_pos (congrArg Strip.mute same),
        if_pos (congrArg Strip.pan same)]
      rfl
    rw [if_pos same, fields, same, bne_self_eq_false, commit_same]
  · rw [if_neg same, bne_iff_ne.mpr same]

theorem exec_recall_ok (h : (s.port p).takes = true) (stack : (s.port p).recallStack = k :: rest)
    (passes : recallFailure p k s = none) :
    exec (.recallStrip p) s =
      .next (concluded false p 0x2B .ok [BitVec.ofNat 8 k.strip.val, BitVec.ofNat 8 rest.length]
        (commit p k.strip ((s.strip k.strip).recalled k) (snapshotWrites k (s.strip k.strip))
          ((s.strip k.strip).recalled k != s.strip k.strip)
          ((s.modPort p fun qs => { qs with recallStack := rest }).modPort p PortState.transacted))) := by
  have stack' : ((s.modPort p PortState.transacted).port p).recallStack = k :: rest := by
    rw [port_transacted h]
    exact stack
  have passes' : recallFailure p k (s.modPort p PortState.transacted) = none := passes
  rw [exec_recall_arm, execRecall, request_taken h, stack']
  dsimp only
  rw [passes', recallApply_eq, (setRecall_transacted h rest).2]
  rfl

/-! ### The checks of RECALL (R90) -/

theorem snapshotWrites_nil_iff (k : Snapshot) (r : Strip) :
    snapshotWrites k r = [] ↔ k.fader = r.fader ∧ k.mute = r.mute ∧ k.pan = r.pan := by
  unfold snapshotWrites
  by_cases f : k.fader = r.fader <;> by_cases m : k.mute = r.mute <;> by_cases q : k.pan = r.pan <;> simp [f, m, q]

theorem recallFailure_open (opened : (s.strip k.strip).openTo p) :
    recallFailure p k s = firstFailure
      [failIf (!(snapshotWrites k (s.strip k.strip)).isEmpty && !liveOpen s.playback.passOpen (s.strip k.strip)) .automated,
        failIf (!s.busTable.panFits (s.strip k.strip).dest k.pan) .shape] := by
  rw [recallFailure]
  rw [handFailure_open opened, firstFailure_none_cons]

theorem recall_permitted
    (live : s.writesLive k.strip ∨
      (k.fader = (s.strip k.strip).fader ∧ k.mute = (s.strip k.strip).mute ∧ k.pan = (s.strip k.strip).pan)) :
    (!(snapshotWrites k (s.strip k.strip)).isEmpty && !liveOpen s.playback.passOpen (s.strip k.strip)) = false := by
  rcases live with live | same
  · rw [(liveOpen_iff s k.strip).mpr live]
    exact Bool.and_false _
  · rw [(snapshotWrites_nil_iff ..).mpr same]
    rfl

end Stack

/-- Settles O47. -/
theorem saveAndRecallWorkTheStack : Obligations.SaveAndRecallWorkTheStack := by
  intro p surface n k rest s h
  refine ⟨exec_save_ok h, exec_recall_empty h, fun stack => ⟨fun held => ?_, fun free touched => ?_,
    fun opened closed differs => ?_, fun opened live => ⟨fun unfit => ?_, fun fits => ?_⟩⟩⟩
  · refine exec_recall_refused h stack ?_
    rw [recallFailure]
    rw [handFailure_held held, firstFailure_some]
  · refine exec_recall_refused h stack ?_
    rw [recallFailure]
    rw [handFailure_touched free touched, firstFailure_some]
  · refine exec_recall_refused h stack ?_
    have shut : liveOpen s.playback.passOpen (s.strip k.strip) = false := by
      rw [← Bool.not_eq_true, liveOpen_iff]
      exact closed
    have writes : (snapshotWrites k (s.strip k.strip)).isEmpty = false := by
      rw [← Bool.not_eq_true, List.isEmpty_iff, snapshotWrites_nil_iff]
      tauto
    rw [recallFailure_open opened, writes, shut]
    exact firstFailure_failIf_true ..
  · refine exec_recall_refused h stack ?_
    rw [recallFailure_open opened, recall_permitted live, firstFailure_failIf_false, unfit]
    exact firstFailure_failIf_true ..
  · have passes : recallFailure p k s = none := by
      rw [recallFailure_open opened, recall_permitted live, firstFailure_failIf_false, fits]
      rfl
    obtain ⟨takes, -⟩ := setRecall_transacted h rest
    obtain ⟨shown, changed⟩ := changed_concluded (posted := false) (n := k.strip)
      (r := (s.strip k.strip).recalled k) (written := snapshotWrites k (s.strip k.strip))
      (reported := (s.strip k.strip).recalled k != s.strip k.strip) takes rfl rfl rfl 0x2B .ok
      [BitVec.ofNat 8 k.strip.val, BitVec.ofNat 8 rest.length]
    have reported := shown.reported
    have before : ∀ {hit : StripNo → Bool} {t : State},
        ReportedOf p hit (s.modPort p fun qs => { qs with recallStack := rest }) t → ReportedOf p hit s t := by
      intro hit t r q other
      have at_q := r q other
      unfold raisedWhen at *
      rw [port_modPort_ne _ _ other] at at_q
      exact at_q
    have same_iff : (s.strip k.strip).recalled k = s.strip k.strip ↔
        k.fader = (s.strip k.strip).fader ∧ k.mute = (s.strip k.strip).mute ∧
          k.pan = (s.strip k.strip).pan ∧ k.inverted = (s.strip k.strip).inverted := by
      generalize s.strip k.strip = r
      obtain ⟨source, inverted, dest, fader, mute, pan⟩ := r
      simp only [Strip.recalled, Strip.mk.injEq]
      tauto
    refine ⟨_, exec_recall_ok h stack passes, changed, ?_, shown.replied⟩
    split
    · next same => exact before (reported.unhit (bne_eq_false_iff_eq.mpr (same_iff.mpr same)))
    · next differs => exact before (reported.hit (bne_iff_ne.mpr (mt same_iff.mp differs)))

end Sys2Proof.Machine

/-!
PROOFS. RELEASE (R77): what becomes unheld, and how many.
-/
namespace Sys2Proof.Machine

theorem exec_release_arm (p : PortId) (kind first count : Byte) (s : State) :
    exec (.release p kind first count) s = execRelease p kind first count s := rfl

/-! ### The objects of a run that translate -/

theorem mem_reachable {q : PortState} {kind : ObjectKind} {l : List Nat} {o : Object} :
    o ∈ reachable q kind l ↔ ∃ k ∈ l, reachObject q kind false k = .ok o := by
  induction l with
  | nil => simp [reachable]
  | cons k rest ih =>
    rw [reachable]
    cases reached : reachObject q kind false k with
    | error st => simp [ih, reached]
    | ok o' => simp [ih, reached, eq_comm]

theorem reachObject_strip_read {q : PortState} {k : Nat} {o : Object} :
    reachObject q .strip false k = .ok o ↔ ∃ m, o = .strip m ∧ reach q k = .ok m := by
  rw [reachObject]
  simp only [Bool.false_eq_true, if_false]
  cases reach q k with
  | error st => simp
  | ok m => simp [eq_comm]

theorem strip_mem_reachable {q : PortState} {first count : Byte} (most : count.toNat ≤ 16) {m : StripNo} :
    .strip m ∈ reachable q .strip (runNumbers first count) ↔
      ∃ j : Fin 16, j.val < count.toNat ∧ reach q (first.toNat + j.val) = .ok m := by
  rw [mem_reachable]
  constructor
  · rintro ⟨k, mem, reached⟩
    obtain ⟨j, hj, rfl⟩ := mem_runNumbers.mp mem
    obtain ⟨m', e, reached'⟩ := reachObject_strip_read.mp reached
    cases e
    exact ⟨⟨j, by omega⟩, hj, reached'⟩
  · rintro ⟨j, hj, reached⟩
    exact ⟨_, mem_runNumbers.mpr ⟨j.val, hj, rfl⟩, reachObject_strip_read.mpr ⟨m, rfl, reached⟩⟩

theorem bus_mem_reachable {q : PortState} {first count : Byte} {a : BusNo} :
    .bus a ∈ reachable q .bus (runNumbers first count) ↔
      first.toNat ≤ a.val ∧ a.val < first.toNat + count.toNat := by
  rw [mem_reachable]
  constructor
  · rintro ⟨k, mem, reached⟩
    obtain ⟨j, hj, rfl⟩ := mem_runNumbers.mp mem
    obtain ⟨b, e, number⟩ := reachObject_bus.mp reached
    cases e
    omega
  · rintro ⟨low, high⟩
    exact ⟨a.val, mem_runNumbers.mpr ⟨a.val - first.toNat, by omega, by omega⟩, reachObject_bus.mpr ⟨a, rfl, rfl⟩⟩

/-! ### What a run releases -/

theorem strip_setHolder (h : Option PortId) (o : Object) (s : State) (m : StripNo) :
    (setHolder h o s).strip m = { s.strip m with holder := (setHolder h o s).holderOf (.strip m) } := by
  cases o with
  | strip n =>
    rw [holderOf_setHolder, setHolder, strip_modStrip]
    by_cases e : n = m
    · simp [e]
    · simp [e, Ne.symm e, State.holderOf]
  | bus b => rfl

theorem bus_setHolder (h : Option PortId) (o : Object) (s : State) (a : BusNo) :
    (setHolder h o s).bus a = { s.bus a with holder := (setHolder h o s).holderOf (.bus a) } := by
  cases o with
  | strip n => rfl
  | bus b =>
    rw [holderOf_setHolder, setHolder, bus_modBus]
    by_cases e : b = a
    · simp [e]
    · simp [e, Ne.symm e, State.holderOf]

section Run
variable (p : PortId)

theorem releaseRun_cons (o : Object) (rest : List Object) (k : Nat) (s : State) :
    releaseRun p (o :: rest) k s =
      if s.holderOf o = some p then releaseRun p rest (k + 1) (setHolder none o s) else releaseRun p rest k s := rfl

theorem holderOf_releaseRun (os : List Object) (k : Nat) (s : State) (o : Object) :
    (releaseRun p os k s).2.holderOf o = if s.holderOf o = some p ∧ o ∈ os then none else s.holderOf o := by
  induction os generalizing k s with
  | nil => simp [releaseRun]
  | cons o' rest ih =>
    rw [releaseRun_cons]
    by_cases held : s.holderOf o' = some p
    · rw [if_pos held, ih, holderOf_setHolder]
      by_cases e : o' = o
      · subst e; simp [held]
      · simp [Ne.symm e]
    · rw [if_neg held, ih]
      by_cases e : o = o'
      · subst e; simp [held]
      · simp [e]

theorem strip_releaseRun (os : List Object) (k : Nat) (s : State) (m : StripNo) :
    (releaseRun p os k s).2.strip m =
      { s.strip m with holder := (releaseRun p os k s).2.holderOf (.strip m) } := by
  induction os generalizing k s with
  | nil => rfl
  | cons o rest ih =>
    rw [releaseRun_cons]
    split
    · rw [ih, strip_setHolder]
    · exact ih ..

theorem bus_releaseRun (os : List Object) (k : Nat) (s : State) (a : BusNo) :
    (releaseRun p os k s).2.bus a = { s.bus a with holder := (releaseRun p os k s).2.holderOf (.bus a) } := by
  induction os generalizing k s with
  | nil => rfl
  | cons o rest ih =>
    rw [releaseRun_cons]
    split
    · rw [ih, bus_setHolder]
    · exact ih ..

theorem releaseRun_strips {os : List Object} (kind : ∀ o ∈ os, ∃ n, o = .strip n) (k : Nat) (s : State) :
    (releaseRun p os k s).2 = { s with strips := (releaseRun p os k s).2.strips } := by
  induction os generalizing k s with
  | nil => rfl
  | cons o rest ih =>
    obtain ⟨n, rfl⟩ := kind o (by simp)
    have others := ih fun o ho => kind o (List.mem_cons_of_mem _ ho)
    rw [releaseRun_cons]
    split
    · exact others (k + 1) (setHolder none (.strip n) s)
    · exact others k s

theorem releaseRun_buses {os : List Object} (kind : ∀ o ∈ os, ∃ b, o = .bus b) (k : Nat) (s : State) :
    (releaseRun p os k s).2 =
      { s with busTable := { s.busTable with buses := (releaseRun p os k s).2.busTable.buses } } := by
  induction os generalizing k s with
  | nil => rfl
  | cons o rest ih =>
    obtain ⟨b, rfl⟩ := kind o (by simp)
    have others := ih fun o ho => kind o (List.mem_cons_of_mem _ ho)
    rw [releaseRun_cons]
    split
    · exact others (k + 1) (setHolder none (.bus b) s)
    · exact others k s

/-- One more object that a predicate holds of is one more in the count. -/
theorem countP_insert {α : Type} [DecidableEq α] {l : List α} (distinct : l.Nodup) {a : α} (mem : a ∈ l) {f g : α → Bool}
    (here : f a = false) (here' : g a = true) (others : ∀ b, b ≠ a → g b = f b) : l.countP g = l.countP f + 1 := by
  have split := List.perm_cons_erase mem
  rw [split.countP_eq, split.countP_eq, List.countP_cons, List.countP_cons, here, here']
  have same : (l.erase a).countP g = (l.erase a).countP f :=
    List.countP_congr fun b hb => by rw [others b fun e => (List.Nodup.not_mem_erase distinct) (e ▸ hb)]
  rw [same]
  simp

/-- The objects released are counted once each (R77). -/
theorem count_releaseRun {N : Nat} {named : Fin N → Object} (apart : Function.Injective named) {os : List Object}
    (kind : ∀ o ∈ os, ∃ i, o = named i) (k : Nat) (s : State) :
    (releaseRun p os k s).1 =
      k + (List.finRange N).countP fun i => decide (s.holderOf (named i) = some p ∧ named i ∈ os) := by
  induction os generalizing k s with
  | nil => simp [releaseRun]
  | cons o rest ih =>
    obtain ⟨a, rfl⟩ := kind o (by simp)
    have others := ih fun o ho => kind o (List.mem_cons_of_mem _ ho)
    rw [releaseRun_cons]
    by_cases held : s.holderOf (named a) = some p
    · rw [if_pos held, others, Nat.add_assoc, Nat.add_comm 1]
      refine congrArg (k + ·) (countP_insert (List.nodup_finRange N) (List.mem_finRange a) ?_ ?_ fun b ne => ?_).symm
      · simp [holderOf_setHolder]
      · simp [held]
      · have apart' : named a ≠ named b := fun e => ne (apart e).symm
        simp [holderOf_setHolder, apart'.symm]
    · rw [if_neg held, others]
      refine congrArg (k + ·) (List.countP_congr fun b _ => ?_)
      by_cases e : named b = named a
      · simp [e, held]
      · simp [e]

end Run

/-! ### RELEASE -/

section Release
variable {p : PortId} {kind first count : Byte} {s : State}

theorem exec_release_range (h : (s.port p).takes = true) (bad : runFailure (readObjectKind kind) first count = true) :
    exec (.release p kind first count) s = .next (s.leaves p (reply 0x21 .range [])) := by
  have done : releaseDone p kind first count (s.modPort p PortState.transacted) = .error .range := by
    rw [releaseDone, if_pos bad]
  rw [exec_release_arm, execRelease]
  refine request_leaves h rfl ?_
  rw [done]

theorem exec_release (h : (s.port p).takes = true) {k : ObjectKind} (named : readObjectKind kind = some k)
    (run : runFailure (some k) first count = false) :
    exec (.release p kind first count) s =
      .next (({ (releaseRun p (reachable (s.port p) k (runNumbers first count)) 0
          (s.modPort p PortState.transacted)).2 with ports := s.ports } : State).leaves p
        (reply 0x21 .ok [BitVec.ofNat 8 (releaseRun p (reachable (s.port p) k (runNumbers first count)) 0
          (s.modPort p PortState.transacted)).1])) := by
  have objects : reachable ((s.modPort p PortState.transacted).port p) k (runNumbers first count) =
      reachable (s.port p) k (runNumbers first count) := by
    induction runNumbers first count with
    | nil => rfl
    | cons n rest ih => simp only [reachable, reachObject_transacted h, ih]
  have done : releaseDone p kind first count (s.modPort p PortState.transacted) =
      .ok (releaseRun p (reachable (s.port p) k (runNumbers first count)) 0 (s.modPort p PortState.transacted)) := by
    rw [releaseDone, named, if_neg (by rw [run]; simp)]
    dsimp only
    rw [objects]
  have ports : ∀ (os : List Object) (k : Nat) (s : State), (releaseRun p os k s).2.ports = s.ports := by
    intro os
    induction os with
    | nil => intro _ _; rfl
    | cons o rest ih =>
      intro k s
      rw [releaseRun_cons]
      split
      · rw [ih]; cases o <;> rfl
      · exact ih ..
  rw [exec_release_arm, execRelease]
  refine request_leaves_answered h (ports ..) ?_
  rw [done]
  rfl

end Release

end Sys2Proof.Machine

/-!
PROOFS. YIELD (R78): the touch it ends, the holder it writes, and the reason it raises.
-/
namespace Sys2Proof.Machine

theorem exec_yield_arm (p : PortId) (kind number target : Byte) (s : State) :
    exec (.yield p kind number target) s = execYield p kind number target s := rfl

/-! ### The holder takes no part in a turn -/

section Holder
variable {n : StripNo} {old s : State}

theorem turned_punchIn (rises : s.triggerRises old n)
    (punches : (s.strip n).writeState = .ready ∧ s.timeline.counting = true) : s.turned old n = s.punchedIn n := by
  rw [turned_rise rises, if_pos punches]

theorem turned_moved (rises : s.triggerRises old n)
    (still : ¬((s.strip n).writeState = .ready ∧ s.timeline.counting = true)) :
    s.turned old n =
      { s.strip n with writeState := afterRise s.timeline.counting (s.strip n).writeState } := by
  rw [turned_rise rises, if_neg still]

theorem turned_holder (r : Strip) (o : Option PortId) :
    (s.setStrip n { r with holder := o }).turned old n = { (s.setStrip n r).turned old n with holder := o } ∧
      (s.setStrip n { r with holder := o }).turnRecords old n = (s.setStrip n r).turnRecords old n := by
  have strip : (s.setStrip n r).strip n = r := strip_setStrip_self ..
  have strip' : (s.setStrip n { r with holder := o }).strip n = { r with holder := o } := strip_setStrip_self ..
  have armed : (s.setStrip n { r with holder := o }).armed n = (s.setStrip n r).armed n := by
    rw [State.armed, State.armed, strip, strip']
    rfl
  have pressing : (s.setStrip n { r with holder := o }).pressing n ↔ (s.setStrip n r).pressing n := by
    unfold State.pressing State.linePunched
    rw [strip, strip']
    rfl
  have rises : (s.setStrip n { r with holder := o }).triggerRises old n ↔ (s.setStrip n r).triggerRises old n := by
    unfold State.triggerRises
    rw [armed, pressing, strip, strip']
  have falls : (s.setStrip n { r with holder := o }).triggerFalls old n ↔ (s.setStrip n r).triggerFalls old n := by
    unfold State.triggerFalls
    rw [armed, pressing, strip, strip']
  have loaded : (s.setStrip n { r with holder := o }).punchedIn n =
      { (s.setStrip n r).punchedIn n with holder := o } := by
    unfold State.punchedIn State.used
    rw [strip, strip']
    rfl
  by_cases rise : (s.setStrip n r).triggerRises old n
  · have rise' := rises.mpr rise
    constructor
    · by_cases punches : r.writeState = .ready ∧ s.timeline.counting = true
      · rw [turned_punchIn rise (by rw [strip]; exact punches), turned_punchIn rise' (by rw [strip']; exact punches), loaded]
      · rw [turned_moved rise (by rw [strip]; exact punches), turned_moved rise' (by rw [strip']; exact punches), strip,
          strip']
        rfl
    · by_cases punches : r.writeState = .ready ∧ s.timeline.counting = true
      · rw [turnRecords_punchIn rise (by rw [strip]; exact punches), turnRecords_punchIn rise' (by rw [strip']; exact punches),
          strip, strip', loaded]
        rfl
      · rw [turnRecords_rise rise (by rw [strip]; exact punches), turnRecords_rise rise' (by rw [strip']; exact punches)]
  · by_cases fall : (s.setStrip n r).triggerFalls old n
    · have fall' := falls.mpr fall
      rw [turned_fall fall, turned_fall fall', turnRecords_fall fall, turnRecords_fall fall', strip, strip']
      exact ⟨rfl, rfl⟩
    · have rise' := mt rises.mp rise
      have fall' := mt falls.mp fall
      rw [turned_still rise fall, turned_still rise' fall', turnRecords_still rise fall, turnRecords_still rise' fall',
        strip, strip']
      exact ⟨rfl, rfl⟩

end Holder

/-! ### The end of the requester's touch -/

theorem turnsTo_endTouch (p : PortId) (n : StripNo) (s : State) :
    TurnsTo p n
      ((s.setStrip n
        { s.strip n with toucher := if (s.strip n).toucher = some p then none else (s.strip n).toucher }).turned s n)
      ((s.setStrip n
        { s.strip n with toucher := if (s.strip n).toucher = some p then none else (s.strip n).toucher }).turnRecords s n)
      s (endTouch p (.strip n) s) := by
  by_cases own : (s.strip n).toucher = some p
  · have ends : endTouch p (.strip n) s = changeToucher n none s := if_pos own
    rw [if_pos own, ends]
    exact turnsTo_changeToucher p n none s
  · have stays : endTouch p (.strip n) s = s := if_neg own
    rw [if_neg own, stays]
    obtain ⟨turned, records⟩ := turned_untriggered (s := s) (n := n) (r := s.strip n) rfl rfl
    have same : ({ s.strip n with toucher := (s.strip n).toucher } : Strip) = s.strip n := rfl
    rw [same, turned, records]
    exact turnsTo_refl p n s

/-- The touch ended and the holder written. -/
theorem turnsTo_yield (p : PortId) (n : StripNo) (o : Option PortId) (s : State) :
    TurnsTo p n
      ((s.setStrip n
        { s.strip n with
          holder := o, toucher := if (s.strip n).toucher = some p then none else (s.strip n).toucher }).turned s n)
      ((s.setStrip n
        { s.strip n with
          holder := o, toucher := if (s.strip n).toucher = some p then none else (s.strip n).toucher }).turnRecords s n)
      s (setHolder o (.strip n) (endTouch p (.strip n) s)) := by
  have turn := turnsTo_endTouch p n s
  obtain ⟨turned, records⟩ := turned_holder (n := n) (old := s) (s := s)
    { s.strip n with toucher := if (s.strip n).toucher = some p then none else (s.strip n).toucher } o
  have strip : (setHolder o (.strip n) (endTouch p (.strip n) s)).strip n =
      { (endTouch p (.strip n) s).strip n with holder := o } := strip_modStrip_self ..
  have used : (setHolder o (.strip n) (endTouch p (.strip n) s)).used n = (endTouch p (.strip n) s).used n := by
    rw [State.used, strip]
    rfl
  refine ⟨turn.only.trans (.modStrip n _ _), ?_, ?_, fun c => ?_⟩
  · rw [strip, turn.strip]
    exact turned.symm
  · have handed := turn.handed.then (u := setHolder o (.strip n) (endTouch p (.strip n) s)) (fun _ => rfl) rfl rfl
    rw [← records] at handed
    exact handed
  · refine (turn.ramped c).trans ?_
    refine (rampedCell_congr rfl rfl used ?_ _).symm
    exact target_of_used used (by rw [strip]) rfl rfl c

/-! ### CLAIM raised at the new holder (R78) -/

section Claim
variable {p q : PortId} {n : StripNo} {s t : State}

theorem pendingSet_claimed (on : (t.port q).attached = true) :
    ((raiseAt .claim q t).port q) = { t.port q with pendingSet := (t.port q).pendingSet ||| 0x004#12 } := by
  rw [raiseAt, port_modPort_self, raised_eq, if_pos on]
  rfl

theorem port_claimed_ne {q' : PortId} (other : q' ≠ q) : (raiseAt .claim q t).port q' = t.port q' :=
  port_modPort_ne _ _ other

theorem pendingBit_claimed (on : (t.port q).attached = true) (q' : PortId) {b : Nat} (other : b ≠ 2) :
    ((raiseAt .claim q t).port q').pendingSet.getLsbD b = (t.port q').pendingSet.getLsbD b := by
  by_cases e : q' = q
  · have bit : (0x004#12).getLsbD b = false := by
      rw [show (0x004#12) = BitVec.twoPow 12 2 from rfl, BitVec.getLsbD_twoPow]
      simp [other.symm]
    rw [e, pendingSet_claimed on, BitVec.getLsbD_or, bit, Bool.or_false]
  · rw [port_claimed_ne e]

theorem watches_claimed (on : (t.port q).attached = true) (q' : PortId) :
    ((raiseAt .claim q t).port q').watches = (t.port q').watches := by
  by_cases e : q' = q
  · rw [e, pendingSet_claimed on]
  · rw [port_claimed_ne e]

theorem queued_claimed {rs : List TakeRecord} (on : (t.port q).attached = true) (h : Queued rs s t) :
    Queued rs s (raiseAt .claim q t) := by
  obtain ⟨writing, reasons⟩ := h
  refine ⟨writing, fun q' => ?_⟩
  obtain ⟨high, lost⟩ := reasons q'
  unfold raisedWhen at *
  rw [pendingBit_claimed on q' (by decide), pendingBit_claimed on q' (by decide)]
  exact ⟨high, lost⟩

theorem unreported_claimed (on : (t.port q).attached = true) (h : Unreported p s t) :
    Unreported p s (raiseAt .claim q t) := fun q' other => by
  have at_q := h q' other
  unfold raisedWhen at *
  rw [watches_claimed on, pendingBit_claimed on q' (by decide)]
  exact at_q

theorem onlyStrip_claimed (apart : q ≠ p) (on : (t.port q).attached = true) (h : OnlyStrip p n s t) :
    OnlyStrip p n (s.modPort q fun qs => { qs with pendingSet := qs.pendingSet ||| 0x004#12 }) (raiseAt .claim q t) := by
  obtain ⟨strips, cells, gains, length, sums, busTable, timeline, playback, audio, pending, takePort, own, kept, others⟩ := h
  refine ⟨strips, cells, gains, length, sums, busTable, timeline, playback, audio, pending, takePort, ?_, ?_,
    fun q' other => ?_⟩
  · rw [ownPortKept, port_claimed_ne apart.symm, port_modPort_ne _ _ apart.symm]
    exact own
  · rw [pendingKept, port_claimed_ne apart.symm, port_modPort_ne _ _ apart.symm]
    exact kept
  · obtain ⟨kept', port⟩ := others q' other
    by_cases e : q' = q
    · subst e
      refine ⟨pendingKept_iff.mpr fun b hb out => ?_, ?_⟩
      · rw [pendingSet_claimed on, port_modPort_self]
        dsimp only
        rw [BitVec.getLsbD_or, BitVec.getLsbD_or, pendingKept_iff.mp kept' b hb out]
      · rw [pendingSet_claimed on, port_modPort_self, port]
    · rw [pendingKept, port_claimed_ne e, port_modPort_ne _ _ e]
      exact ⟨kept', port⟩

end Claim

end Sys2Proof.Machine

/-!
PROOFS. RELEASE and YIELD, settled.
-/
namespace Sys2Proof.Machine

section Yield
variable {p q : PortId} {kind number target : Byte} {n : StripNo} {b : BusNo} {s : State}

theorem exec_yield_refused (h : (s.port p).takes = true) {st : Status} {items : List Byte}
    (failed : yieldChecked p kind number target (s.modPort p PortState.transacted) = .error (st, items)) :
    exec (.yield p kind number target) s = .next (s.leaves p (reply 0x22 st items)) := by
  rw [exec_yield_arm, execYield]
  refine request_leaves h rfl ?_
  rw [failed]

/-- The checks of a YIELD of an object that its number reaches (R78). -/
theorem yieldChecked_reached (h : (s.port p).takes = true) {k : ObjectKind} {o : Object}
    (named : readObjectKind kind = some k) (reached : reachObject (s.port p) k true number.toNat = .ok o) :
    yieldChecked p kind number target (s.modPort p PortState.transacted) = match readIndex 4 target with
      | none => .error (.range, [])
      | some q =>
        if s.holderOf o = some p then
          if !(s.port q).attached then .error (.absent, [])
          else if q = p then .error (.self, [])
          else .ok (o, q)
        else .error (.held, [wPort (s.holderOf o)]) := by
  have reached' := (reachObject_transacted h k true number.toNat).trans reached
  rw [yieldChecked, named]
  dsimp only
  rw [reached', holderOf_modPort]
  cases readIndex 4 target with
  | none => rfl
  | some q =>
    dsimp only
    rw [(sameSignals_transacted h).attached q]

theorem yieldChecked_target (h : (s.port p).takes = true) {k : ObjectKind} {o : Object}
    (named : readObjectKind kind = some k) (reached : reachObject (s.port p) k true number.toNat = .ok o) (q : PortId) :
    yieldChecked p kind number (BitVec.ofNat 8 q.val) (s.modPort p PortState.transacted) =
      if s.holderOf o = some p then
        if !(s.port q).attached then .error (.absent, [])
        else if q = p then .error (.self, [])
        else .ok (o, q)
      else .error (.held, [wPort (s.holderOf o)]) := by
  rw [yieldChecked_reached h named reached, readIndex_portId]

/-- What refuses a YIELD of an object that its number reaches, in order. -/
theorem yield_refusals (h : (s.port p).takes = true) {k : ObjectKind} {o : Object}
    (named : readObjectKind kind = some k) (reached : reachObject (s.port p) k true number.toNat = .ok o) :
    (3 < target.toNat → exec (.yield p kind number target) s = .next (s.leaves p (reply 0x22 .range []))) ∧
      (s.holderOf o ≠ some p →
        exec (.yield p kind number (BitVec.ofNat 8 q.val)) s =
          .next (s.leaves p (reply 0x22 .held [wPort (s.holderOf o)]))) ∧
      (s.holderOf o = some p → (s.port q).attached = false →
        exec (.yield p kind number (BitVec.ofNat 8 q.val)) s = .next (s.leaves p (reply 0x22 .absent []))) ∧
      (s.holderOf o = some p →
        exec (.yield p kind number (BitVec.ofNat 8 p.val)) s = .next (s.leaves p (reply 0x22 .self []))) := by
  refine ⟨fun far => exec_yield_refused h ?_, fun other => exec_yield_refused h ?_, fun own off => exec_yield_refused h ?_,
    fun own => exec_yield_refused h ?_⟩
  · rw [yieldChecked_reached h named reached, readIndex_none far]
  · rw [yieldChecked_target h named reached, if_neg other]
  · rw [yieldChecked_target h named reached, if_pos own, if_pos (by rw [off]; rfl)]
  · have on : (s.port p).attached = true := (Bool.and_eq_true_iff.mp h).1
    rw [yieldChecked_target h named reached, if_pos own, if_neg (by rw [on]; simp), if_pos rfl]

/-- A YIELD that passes its checks. -/
theorem exec_yield_ok (h : (s.port p).takes = true) {k : ObjectKind} {o : Object}
    (named : readObjectKind kind = some k) (reached : reachObject (s.port p) k true number.toNat = .ok o)
    (own : s.holderOf o = some p) (on : (s.port q).attached = true) (apart : q ≠ p) :
    exec (.yield p kind number (BitVec.ofNat 8 q.val)) s =
      .next (raiseAt .claim q (concluded false p 0x22 .ok []
        (setHolder (some q) o (endTouch p o (s.modPort p PortState.transacted))))) := by
  have checked := yieldChecked_target h named reached q
  rw [if_pos own, if_neg (by rw [on]; simp), if_neg apart] at checked
  rw [exec_yield_arm, execYield, request_taken h, checked]
  exact congrArg Host.Outcome.next (modPort_comm apart _ _ _).symm

theorem exec_yield_unread (h : (s.port p).takes = true) (unread : readObjectKind kind = none) :
    exec (.yield p kind number target) s = .next (s.leaves p (reply 0x22 .range [])) := by
  refine exec_yield_refused h ?_
  rw [yieldChecked, unread]

/-- A YIELD of a strip that passes its checks. -/
theorem yield_strip (h : (s.port p).takes = true) (reached : reachForChange (s.port p) number.toNat = .ok n)
    (own : (s.strip n).holder = some p) (on : (s.port q).attached = true) (apart : q ≠ p) :
    ∃ t, exec (.yield p 0 number (BitVec.ofNat 8 q.val)) s = .next t ∧
      Turned n
        { s.strip n with
          holder := some q, toucher := if (s.strip n).toucher = some p then none else (s.strip n).toucher } s t ∧
      Unreported p s t ∧
      OnlyStrip p n (s.modPort q fun qs => { qs with pendingSet := qs.pendingSet ||| 0x004#12 }) t ∧
      (t.port p).replySlot = reply 0x22 .ok [] := by
  have object : reachObject (s.port p) .strip true number.toNat = .ok (.strip n) := reachObject_strip.mpr ⟨n, rfl, reached⟩
  have turn := turnsTo_yield p n (some q) (s.modPort p PortState.transacted)
  obtain ⟨⟨strip, queued, ramped⟩, unreported, only, replied⟩ := turned_concluded h turn 0x22 []
  have on' : ((concluded false p 0x22 .ok [] (setHolder (some q) (.strip n)
      (endTouch p (.strip n) (s.modPort p PortState.transacted)))).port q).attached = true := by
    have port := (only.2.2.2.2.2.2.2.2.2.2.2.2.2 q apart).2
    rw [port]
    exact on
  refine ⟨_, exec_yield_ok h (by rfl) object own on apart, ⟨strip, queued_claimed on' queued, ramped⟩,
    unreported_claimed on' unreported, onlyStrip_claimed apart on' only, ?_⟩
  rw [port_claimed_ne apart.symm]
  exact replied

/-- A YIELD of a bus that passes its checks. -/
theorem yield_bus (h : (s.port p).takes = true) (number_eq : number.toNat = b.val) (own : (s.bus b).holder = some p)
    (on : (s.port q).attached = true) (apart : q ≠ p) :
    ∃ t, exec (.yield p 1 number (BitVec.ofNat 8 q.val)) s = .next t ∧
      t.bus b = { s.bus b with holder := some q } ∧ (∀ a, a ≠ b → t.bus a = s.bus a) ∧
      t = (({ s with busTable := { s.busTable with buses := t.busTable.buses } }).modPort q fun qs =>
        { qs with pendingSet := qs.pendingSet ||| 0x004#12 }).leaves p (reply 0x22 .ok []) := by
  have object : reachObject (s.port p) .bus true number.toNat = .ok (.bus b) := reachObject_bus.mpr ⟨b, rfl, number_eq.symm⟩
  have outcome := exec_yield_ok (kind := 1) h rfl object own on apart
  have answered : concluded false p 0x22 .ok []
      (setHolder (some q) (.bus b) (endTouch p (.bus b) (s.modPort p PortState.transacted))) =
      (setHolder (some q) (.bus b) s).leaves p (reply 0x22 .ok []) :=
    answer_transacted (s := setHolder (some q) (.bus b) s) h 0x22 .ok []
  have claimed : raiseAt .claim q ((setHolder (some q) (.bus b) s).leaves p (reply 0x22 .ok [])) =
      ((setHolder (some q) (.bus b) s).modPort q fun qs =>
        { qs with pendingSet := qs.pendingSet ||| 0x004#12 }).leaves p (reply 0x22 .ok []) := by
    refine (modPort_comm apart _ _ _).trans ?_
    refine congrArg (fun v : State => v.leaves p (reply 0x22 .ok [])) (modPort_congr ?_)
    have on' : ((setHolder (some q) (.bus b) s).port q).attached = true := on
    rw [raised_eq, if_pos on']
    rfl
  rw [answered, claimed] at outcome
  refine ⟨_, outcome, ?_, fun a other => ?_, rfl⟩
  · have bus := bus_setHolder (some q) (.bus b) s b
    rw [holderOf_setHolder, if_pos rfl] at bus
    exact bus
  · have bus := bus_setHolder (some q) (.bus b) s a
    rw [holderOf_setHolder, if_neg (by simpa using other)] at bus
    exact bus

end Yield

section Release
variable {p : PortId} {first count : Byte} {s : State}

theorem release_strips (h : (s.port p).takes = true) (small : 1 ≤ count.toNat ∧ count.toNat ≤ 16) :
    ∃ t, exec (.release p 0 first count) s = .next t ∧
      (∀ m, t.strip m = { s.strip m with
        holder :=
          if (s.strip m).holder = some p ∧ ∃ j : Fin 16, j.val < count.toNat ∧ reach (s.port p) (first.toNat + j.val) = .ok m
          then none else (s.strip m).holder }) ∧
      t = { s with strips := t.strips, ports := t.ports } ∧ otherPortsKept p s t ∧ ownPortKept p s t ∧
      (t.port p).pendingSet = (s.port p).pendingSet ∧
      (t.port p).replySlot = reply 0x21 .ok [BitVec.ofNat 8 ((List.finRange 160).countP fun m =>
        decide ((s.strip m).holder = some p ∧
          ∃ j : Fin 16, j.val < count.toNat ∧ reach (s.port p) (first.toNat + j.val) = .ok m))] := by
  have outcome := exec_release (kind := 0) h rfl (runFailure_strip (first := first) small)
  have kind : ∀ o ∈ reachable (s.port p) .strip (runNumbers first count), ∃ n, o = .strip n := fun o mem => by
    obtain ⟨k, -, reached⟩ := mem_reachable.mp mem
    obtain ⟨m, e, -⟩ := reachObject_strip_read.mp reached
    exact ⟨m, e⟩
  have released := fun m : StripNo => and_congr_right (a := (s.strip m).holder = some p) fun _ =>
    strip_mem_reachable (q := s.port p) (first := first) small.2 (m := m)
  have strips := releaseRun_strips p kind 0 (s.modPort p PortState.transacted)
  have counted := count_releaseRun p (named := Object.strip) (fun _ _ e => Object.strip.inj e) kind 0
    (s.modPort p PortState.transacted)
  rw [Nat.zero_add] at counted
  have number : (List.finRange 160).countP (fun m => decide ((s.strip m).holder = some p ∧
        .strip m ∈ reachable (s.port p) .strip (runNumbers first count))) =
      (List.finRange 160).countP fun m => decide ((s.strip m).holder = some p ∧
        ∃ j : Fin 16, j.val < count.toNat ∧ reach (s.port p) (first.toNat + j.val) = .ok m) :=
    List.countP_congr fun m _ => by rw [decide_eq_true_iff, decide_eq_true_iff, released]
  refine ⟨_, outcome, fun m => ?_, ?_, otherPortsKept_leaves rfl _ _, ownPortKept_leaves rfl _ _, pendingSet_leaves rfl _ _,
    (replySlot_leaves ..).trans ?_⟩
  · have record := strip_releaseRun p (reachable (s.port p) .strip (runNumbers first count)) 0
      (s.modPort p PortState.transacted) m
    rw [holderOf_releaseRun] at record
    exact record.trans (congrArg (fun h => { s.strip m with holder := h }) (if_congr (released m) rfl rfl))
  · rw [strips]
    rfl
  · rw [counted]
    exact congrArg (fun k => reply 0x21 .ok [BitVec.ofNat 8 k]) number

theorem release_buses (h : (s.port p).takes = true) (small : 1 ≤ count.toNat ∧ count.toNat ≤ 16)
    (inside : first.toNat + count.toNat ≤ 24) :
    ∃ t, exec (.release p 1 first count) s = .next t ∧
      (∀ a, t.bus a = { s.bus a with
        holder :=
          if (s.bus a).holder = some p ∧ first.toNat ≤ a.val ∧ a.val < first.toNat + count.toNat then none
          else (s.bus a).holder }) ∧
      t = { s with busTable := { s.busTable with buses := t.busTable.buses }, ports := t.ports } ∧
      otherPortsKept p s t ∧ ownPortKept p s t ∧ (t.port p).pendingSet = (s.port p).pendingSet ∧
      (t.port p).replySlot = reply 0x21 .ok [BitVec.ofNat 8 ((List.finRange 24).countP fun a =>
        decide ((s.bus a).holder = some p ∧ first.toNat ≤ a.val ∧ a.val < first.toNat + count.toNat))] := by
  have outcome := exec_release (kind := 1) h rfl (runFailure_bus small inside)
  have kind : ∀ o ∈ reachable (s.port p) .bus (runNumbers first count), ∃ b, o = .bus b := fun o mem => by
    obtain ⟨k, -, reached⟩ := mem_reachable.mp mem
    obtain ⟨b, e, -⟩ := reachObject_bus.mp reached
    exact ⟨b, e⟩
  have released := fun a : BusNo => and_congr_right (a := (s.bus a).holder = some p) fun _ =>
    bus_mem_reachable (q := s.port p) (first := first) (count := count) (a := a)
  have buses := releaseRun_buses p kind 0 (s.modPort p PortState.transacted)
  have counted := count_releaseRun p (named := Object.bus) (fun _ _ e => Object.bus.inj e) kind 0
    (s.modPort p PortState.transacted)
  rw [Nat.zero_add] at counted
  have number : (List.finRange 24).countP (fun a => decide ((s.bus a).holder = some p ∧
        .bus a ∈ reachable (s.port p) .bus (runNumbers first count))) =
      (List.finRange 24).countP fun a => decide ((s.bus a).holder = some p ∧
        first.toNat ≤ a.val ∧ a.val < first.toNat + count.toNat) :=
    List.countP_congr fun a _ => by rw [decide_eq_true_iff, decide_eq_true_iff, released]
  refine ⟨_, outcome, fun a => ?_, ?_, otherPortsKept_leaves rfl _ _, ownPortKept_leaves rfl _ _, pendingSet_leaves rfl _ _,
    (replySlot_leaves ..).trans ?_⟩
  · have record := bus_releaseRun p (reachable (s.port p) .bus (runNumbers first count)) 0
      (s.modPort p PortState.transacted) a
    rw [holderOf_releaseRun] at record
    exact record.trans (congrArg (fun h => { s.bus a with holder := h }) (if_congr (released a) rfl rfl))
  · rw [buses]
    rfl
  · rw [counted]
    exact congrArg (fun k => reply 0x21 .ok [BitVec.ofNat 8 k]) number

end Release

/-- Settles O44. -/
theorem releaseAndYieldMoveTheHolder : Obligations.ReleaseAndYieldMoveTheHolder := by
  intro p q kind first count target n b s h
  refine ⟨fun unknown => ⟨exec_release_range h ?_, exec_yield_unread h (readObjectKind_none unknown)⟩,
    fun one most => ⟨?_, fun inside => ?_⟩, fun bad => ⟨exec_release_range h (runFailure_count bad .strip),
      exec_release_range h (runFailure_count bad .bus)⟩,
    fun beyond => exec_release_range h (runFailure_beyond beyond), fun far => ⟨fun reached => ?_, fun number => ?_⟩,
    fun reached => ⟨fun other => ?_, fun own off => ?_, fun own => ?_, yield_strip h reached⟩,
    fun number other => ?_, fun number own off => ?_, fun number own => ?_, fun beyond => ?_, fun number => yield_bus h number⟩
  · rw [readObjectKind_none unknown]; rfl
  · exact release_strips h ⟨one, most⟩
  · exact release_buses h ⟨one, most⟩ inside
  · exact (yield_refusals (q := q) h (by rfl) (reachObject_strip.mpr ⟨n, rfl, reached⟩)).1 far
  · exact (yield_refusals (q := q) h (by rfl) (reachObject_bus.mpr ⟨b, rfl, number.symm⟩)).1 far
  · have refused := (yield_refusals (q := q) (target := target) h (kind := 0) (by rfl)
      (reachObject_strip.mpr ⟨n, rfl, reached⟩)).2.1 other
    rw [refused]
    rfl
  · exact (yield_refusals (target := target) h (by rfl) (reachObject_strip.mpr ⟨n, rfl, reached⟩)).2.2.1 own off
  · exact (yield_refusals (q := q) (target := target) h (by rfl) (reachObject_strip.mpr ⟨n, rfl, reached⟩)).2.2.2 own
  · have refused := (yield_refusals (q := q) (target := target) h (kind := 1) (by rfl)
      (reachObject_bus.mpr ⟨b, rfl, number.symm⟩)).2.1 other
    rw [refused]
    rfl
  · exact (yield_refusals (target := target) h (by rfl) (reachObject_bus.mpr ⟨b, rfl, number.symm⟩)).2.2.1 own off
  · exact (yield_refusals (q := q) (target := target) h (by rfl) (reachObject_bus.mpr ⟨b, rfl, number.symm⟩)).2.2.2 own
  · refine exec_yield_refused h ?_
    have named : readObjectKind 1 = some .bus := rfl
    have unreached : reachObject ((s.modPort p PortState.transacted).port p) .bus true first.toNat = .error .range :=
      dif_neg (by omega)
    rw [yieldChecked, named]
    dsimp only
    rw [unreached]

end Sys2Proof.Machine

/-!
PROOFS. What a walk over the strips, in strip number order, makes of them, of their cells and of the take queue (R135),
from what the turn of one strip does.
-/
namespace Sys2Proof.Machine

/-! ### A walk -/

/-- Every strip `m` becomes `r m`, these records reach the take queue, and the cells of each take a retarget where a used
value changed. -/
structure StripsTurn (r : StripNo → Strip) (rs : List TakeRecord) (s t : State) : Prop where
  only : OnlyStrips s t
  strip : ∀ m, t.strip m = r m
  handed : ∀ p, HandedOn p (fun _ => false) rs s t
  ramped : ∀ m, Ramped m s t

section Walk
variable {f : StripNo → State → State} {r : StripNo → Strip} {rs : StripNo → List TakeRecord} {s : State}

/-- The records of the turns of these strips, each taken in a state that differs from `s` in strips before it alone. -/
theorem handedOn_walk (only : ∀ n t, OnlyAt n t (f n t))
    (turns : ∀ n t, OnlyStrips s t → t.strip n = s.strip n → ∀ p, HandedOn p (fun _ => false) (rs n) t (f n t))
    (p : PortId) : ∀ (l : List StripNo) (t : State), l.Nodup → OnlyStrips s t → (∀ n ∈ l, t.strip n = s.strip n) →
      HandedOn p (fun _ => false) (l.flatMap rs) t (l.foldl (fun u n => f n u) t)
  | [], t, _, _, _ => handedOn_nothing (fun _ => rfl) rfl rfl
  | n :: rest, t, distinct, before, same => by
    obtain ⟨apart, distinct⟩ := List.nodup_cons.mp distinct
    have turn := turns n t before (same n (by simp)) p
    refine turn.trans (handedOn_walk only turns p rest (f n t) distinct (before.trans (only n t).onlyStrips) fun m mem => ?_)
    rw [(only n t).strips m fun e => apart (e ▸ mem), same m (by simp [mem])]

/-- The take records of a walk are those of its turns, in strip number order (R135). -/
theorem handedOn_eachStrip (only : ∀ n t, OnlyAt n t (f n t))
    (turns : ∀ n t, OnlyStrips s t → t.strip n = s.strip n → ∀ p, HandedOn p (fun _ => false) (rs n) t (f n t))
    (p : PortId) : HandedOn p (fun _ => false) ((List.finRange 160).flatMap rs) s (eachStrip f s) :=
  handedOn_walk only turns p (List.finRange 160) s (List.nodup_finRange 160) (.refl s) fun _ _ => rfl

theorem stripsTurn_eachStrip (only : ∀ n t, OnlyAt n t (f n t))
    (turns : ∀ n t, OnlyStrips s t → t.strip n = s.strip n → ∀ p, TurnsTo p n (r n) (rs n) t (f n t)) :
    StripsTurn r ((List.finRange 160).flatMap rs) s (eachStrip f s) where
  only := eachStrip_onlyStrips only s
  strip m := by
    obtain ⟨t, before, strip, -, now, -⟩ := eachStrip_turn only m s
    exact now.trans (turns m t before strip 0).strip
  handed := handedOn_eachStrip only fun n t before strip p => (turns n t before strip p).handed
  ramped m := fun c => by
    obtain ⟨t, before, strip, cells, now, nowCells⟩ := eachStrip_turn only m s
    have turn := turns m t before strip 0
    have walked := eachStrip_onlyStrips only s
    have after := before.trans turn.only.onlyStrips
    have playback : (eachStrip f s).playback = (f m t).playback := walked.playback.trans after.playback.symm
    have busTable : (eachStrip f s).busTable = (f m t).busTable := walked.busTable.trans after.busTable.symm
    rw [nowCells, turn.ramped c, cells]
    exact (rampedCell_congr (before.used strip).symm before.rampLength.symm (used_congr now (by rw [playback]))
      (target_congr now (by rw [playback]) (by rw [busTable]) (by rw [busTable]) c) _).symm

end Walk

theorem StripsTurn.queued {r : StripNo → Strip} {rs : List TakeRecord} {s t : State} (h : StripsTurn r rs s t) :
    Queued rs s t := (h.handed 0).queued

/-- Of every port a walk changes the pending set alone, and of that HIGH and LOST alone. -/
theorem StripsTurn.port {r : StripNo → Strip} {rs : List TakeRecord} {s t : State} (h : StripsTurn r rs s t) (q : PortId) :
    t.port q = { s.port q with pendingSet := (t.port q).pendingSet } := (h.handed q).own

theorem StripsTurn.kept {r : StripNo → Strip} {rs : List TakeRecord} {s t : State} (h : StripsTurn r rs s t) (q : PortId) :
    pendingKept 0x300#12 q s t := (h.handed q).kept_own

theorem flatMap_singletons {α β : Type} (c : α → Bool) (g : α → β) (l : List α) :
    (l.flatMap fun a => if c a then [g a] else []) = (l.filter c).map g := by
  induction l with
  | nil => rfl
  | cons a rest ih =>
    rw [List.flatMap_cons, ih]
    cases h : c a <;> simp [h]

/-! ### A fall of counting (R134, R135, R139) -/

section Fall
variable {s t : State} {n : StripNo}

theorem fallen_unarmed (h : s.armed n = false) : s.fallen n = s.strip n := by simp [State.fallen, h]

theorem fallen_punched (armed : s.armed n = true) (punched : (s.strip n).writeState.punched = true) :
    s.fallen n =
      { s.strip n with
        writeState := if (s.strip n).mode = .write then .ready
          else if (s.strip n).toucher ≠ none ∨ s.linePunched n then .wait else .ready,
        trim := if (s.strip n).mode = .trim then 16384 else (s.strip n).trim } := by
  unfold State.fallen
  rw [if_pos armed]
  rcases punched_iff.mp punched with h | h <;> rw [h]

theorem fallen_waiting (armed : s.armed n = true) (wait : (s.strip n).writeState = .wait) :
    s.fallen n = if (s.strip n).mode = .write then { s.strip n with writeState := .ready } else s.strip n := by
  unfold State.fallen
  rw [if_pos armed, wait]

theorem fallen_idle (idle : (s.strip n).writeState = .off ∨ (s.strip n).writeState = .ready) : s.fallen n = s.strip n := by
  unfold State.fallen
  split
  · rcases idle with h | h <;> rw [h]
  · rfl

/-- What a fall depends on. -/
theorem fallen_congr (strip : t.strip n = s.strip n) (playback : t.playback.passOpen = s.playback.passOpen)
    (line : t.timeline.punch.filtered = s.timeline.punch.filtered) : t.fallen n = s.fallen n := by
  have armed : t.armed n = s.armed n := by simp only [State.armed, strip, playback]
  unfold State.fallen
  simp only [State.linePunched, armed, strip, line]

theorem armedState_still (armed : s.armed n = true) (still : s.timeline.counting = false) :
    s.armedState n = if (s.strip n).mode = .write then .ready
      else if (s.strip n).toucher ≠ none ∨ s.linePunched n then .wait else .ready := by
  unfold State.armedState
  by_cases write : (s.strip n).mode = .write
  · rw [if_pos write, if_neg (by simp [State.trigger, write, still])]
  · rw [if_neg write]
    exact if_congr (trigger_iff (triggered_of_writes (armed_mode armed) write)) rfl rfl

/-- The turn of strip `n` at a fall of counting. -/
theorem turnsTo_fallStrip (p : PortId) (reason : PunchReason) (still : s.timeline.counting = false) :
    TurnsTo p n (s.fallen n)
      (if s.armed n && (s.strip n).writeState.punched then [.punchOut s.timeline.counter n reason] else []) s
      (fallStrip reason n s) := by
  unfold fallStrip
  cases armed : s.armed n with
  | false =>
    rw [fallen_unarmed armed]
    exact turnsTo_refl p n s
  | true =>
    have out (punched : (s.strip n).writeState.punched = true) :
        TurnsTo p n (s.fallen n) [.punchOut s.timeline.counter n reason] s (punchOut reason n (s.armedState n) s) := by
      have turn := turnsTo_punchOut p n reason (s.armedState n) s
      rw [armedState_still armed still] at turn ⊢
      rw [fallen_punched armed punched]
      exact turn
    cases state : (s.strip n).writeState with
    | off =>
      rw [fallen_idle (.inl state)]
      exact turnsTo_refl p n s
    | ready =>
      rw [fallen_idle (.inr state)]
      exact turnsTo_refl p n s
    | wait =>
      rw [fallen_waiting armed state]
      by_cases write : (s.strip n).mode = .write
      · rw [if_pos write]
        simp only [if_pos write]
        exact turnsTo_setWriteState p n (w := .ready) (s := s) (by rw [state]; rfl)
      · rw [if_neg write]
        simp only [if_neg write]
        exact turnsTo_refl p n s
    | writing => exact out (by rw [state]; rfl)
    | latched => exact out (by rw [state]; rfl)

theorem stripsTurn_fall (reason : PunchReason) (still : s.timeline.counting = false) :
    StripsTurn s.fallen (s.punchOuts s.timeline.counter reason) s (eachStrip (fallStrip reason) s) := by
  have turn := stripsTurn_eachStrip (s := s) (f := fallStrip reason) (r := s.fallen)
    (rs := fun n => if s.armed n && (s.strip n).writeState.punched then [.punchOut s.timeline.counter n reason] else [])
    (fun n t => .fallStrip reason n t) fun n t only strip p => by
      have turn := turnsTo_fallStrip (n := n) (s := t) p reason (by rw [only.timeline, still])
      rw [only.armed strip, only.timeline, strip, fallen_congr strip (by rw [only.playback]) (by rw [only.timeline])] at turn
      exact turn
  rw [flatMap_singletons] at turn
  exact turn

end Fall

/-! ### A rise of counting (R134 to R137) -/

section Rise
variable {s t : State} {n : StripNo}

theorem risen_congr (strip : t.strip n = s.strip n) (playback : t.playback = s.playback) (busTable : t.busTable = s.busTable) :
    t.risen n = s.risen n := by
  have armed : t.armed n = s.armed n := by simp only [State.armed, strip, playback]
  have loaded := punchedIn_congr strip playback busTable
  unfold State.risen
  exact if_congr (by rw [State.risesIn, State.risesIn, armed, strip]) loaded strip

/-- The PUNCH-IN record of strip `n` at a rise of counting. -/
def State.riseRecord (s : State) (n : StripNo) : TakeRecord :=
  .punchIn s.timeline.counter n none .write (s.risen n).fader (s.risen n).mute (s.risen n).pan none

/-- The turn of strip `n` at a rise of counting. -/
theorem turnsTo_riseStrip (p : PortId) :
    TurnsTo p n (s.risen n) (if s.risesIn n then [s.riseRecord n] else []) s (riseStrip n s) := by
  unfold riseStrip
  by_cases rises : s.risesIn n
  · have ⟨armed, write, ready⟩ := rises
    have risen : s.risen n = s.loaded n := (if_pos rises).trans (loaded_eq s n).symm
    have mode : (s.loaded n).mode = .write := write
    have record : s.riseRecord n = punchInRecord s.timeline.counter n (s.loaded n) := by
      rw [State.riseRecord, risen, punchInRecord, mode]
      rfl
    rw [if_pos rises, record, risen, if_pos (by simp [armed, write, ready])]
    exact turnsTo_punchIn p n s
  · have stays : s.risen n = s.strip n := if_neg rises
    rw [if_neg rises, stays, if_neg (by simpa [State.risesIn, and_assoc] using rises)]
    exact turnsTo_refl p n s

theorem punchIns_eq (s : State) :
    s.punchIns = ((List.finRange 160).filter fun m => decide (s.risesIn m)).map s.riseRecord := rfl

theorem stripsTurn_rise (s : State) : StripsTurn s.risen s.punchIns s (eachStrip riseStrip s) := by
  have turn := stripsTurn_eachStrip (s := s) (f := riseStrip) (r := s.risen)
    (rs := fun n => if decide (s.risesIn n) then [s.riseRecord n] else [])
    (fun n t => .riseStrip n t) fun n t only strip p => by
      have turn := turnsTo_riseStrip (n := n) (s := t) p
      have risen := risen_congr strip only.playback only.busTable
      have rises : t.risesIn n ↔ s.risesIn n := by rw [State.risesIn, State.risesIn, only.armed strip, strip]
      have record : t.riseRecord n = s.riseRecord n := by rw [State.riseRecord, State.riseRecord, risen, only.timeline]
      rw [risen, record, if_congr rises rfl rfl] at turn
      simpa using turn
  rw [flatMap_singletons, ← punchIns_eq] at turn
  exact turn

end Rise

/-! ### A change of filtered PUNCH (R95, R127) -/

section Punch
variable {s before : State}

/-- The turn of strip `n` when filtered PUNCH changed. -/
theorem turnsTo_punchLineStrip (p : PortId) (n : StripNo) {old : Timeline} (t : State)
    (before' : before.timeline = old) :
    TurnsTo p n (t.turned { t with timeline := old } n) (t.turnRecords { t with timeline := old } n) t
      (punchLineStrip before n t) := by
  unfold punchLineStrip
  rw [before']
  by_cases acts : (t.strip n).linePunch = true ∧ (t.strip n).mode ≠ .write
  · rw [if_pos (by simpa using acts)]
    exact turnsTo_triggerChange rfl fun write => absurd write acts.2
  · have rises : ¬t.triggerRises { t with timeline := old } n := fun ⟨_, mode, was, now⟩ => by
      have line : ¬t.linePunched n := fun h => acts ⟨h.1, triggered_ne_write mode⟩
      exact was (.inl (now.resolve_right line))
    have falls : ¬t.triggerFalls { t with timeline := old } n := fun ⟨_, mode, was, now⟩ => by
      have line : ¬({ t with timeline := old } : State).linePunched n := fun h => acts ⟨h.1, triggered_ne_write mode⟩
      exact now (.inl (was.resolve_right line))
    rw [if_neg (by simpa using acts), turned_still rises falls, turnRecords_still rises falls]
    exact turnsTo_refl p n t

theorem stripsTurn_punch (before s : State) (strips : before.strips = s.strips) :
    StripsTurn (s.turned before) ((List.finRange 160).flatMap (s.turnRecords before)) s
      (eachStrip (punchLineStrip before) s) :=
  stripsTurn_eachStrip (fun n t => .punchLineStrip before n t) fun n t only strip p => by
    have turn := turnsTo_punchLineStrip (before := before) p n t rfl
    have same : before.strip n = s.strip n := by simp only [State.strip, strips]
    have was : ({ t with timeline := before.timeline } : State).pressing n ↔ before.pressing n :=
      pressing_congr (t := { t with timeline := before.timeline }) (strip.trans same.symm) rfl
    rw [turned_congr strip only.timeline only.playback only.busTable was,
      turnRecords_congr strip only.timeline only.playback only.busTable was] at turn
    exact turn

end Punch

end Sys2Proof.Machine

/-!
PROOFS. What the timeline's operations make of counting, of the frame counter and of the strips (R97 to R104): the words
`Counted` and `Located` of a sample period, and LOCATE.
-/
namespace Sys2Proof.Machine

/-! ### Steps that strips and take queue do not see -/

/-- From `s` to `t` nothing changes of what a ramp, a punch or a take record reads. -/
structure Quiet (s t : State) : Prop where
  strips : t.strips = s.strips
  engine : t.engine = s.engine
  busTable : t.busTable = s.busTable
  writing : t.writing = s.writing
  playback : t.playback = { s.playback with cues := t.playback.cues, stale := t.playback.stale }
  attached : ∀ q, (t.port q).attached = (s.port q).attached
  reasons : ∀ q, ∀ b, b = 8 ∨ b = 9 → (t.port q).pendingSet.getLsbD b = (s.port q).pendingSet.getLsbD b
  line : t.timeline.punch.filtered = s.timeline.punch.filtered

section Quiet
variable {s s' t t' : State} {rs : List TakeRecord}

theorem Quiet.strip (h : Quiet s s') (m : StripNo) : s'.strip m = s.strip m := by simp only [State.strip, h.strips]

theorem Quiet.passOpen (h : Quiet s s') : s'.playback.passOpen = s.playback.passOpen := by rw [h.playback]

theorem Quiet.used (h : Quiet s s') (m : StripNo) : s'.used m = s.used m := used_congr (h.strip m) h.passOpen

theorem Quiet.target (h : Quiet s s') (m : StripNo) (c : Channel) : s'.target m c = s.target m c :=
  target_congr (h.strip m) h.passOpen (by rw [h.busTable]) (by rw [h.busTable]) c

theorem Quiet.cells (h : Quiet s s') (m : StripNo) : s'.cells m = s.cells m := by simp only [State.cells, h.engine]

theorem Quiet.trans (h : Quiet s t) (k : Quiet t t') : Quiet s t' where
  strips := k.strips.trans h.strips
  engine := k.engine.trans h.engine
  busTable := k.busTable.trans h.busTable
  writing := k.writing.trans h.writing
  playback := by rw [k.playback, h.playback]
  attached q := (k.attached q).trans (h.attached q)
  reasons q b hb := (k.reasons q b hb).trans (h.reasons q b hb)
  line := k.line.trans h.line

theorem queued_quiet (before : Quiet s s') (after : Quiet t t') (h : Queued rs s' t) : Queued rs s t' := by
  obtain ⟨writing, reasons⟩ := h
  refine ⟨by rw [after.writing, writing, before.writing], fun q => ?_⟩
  have at_q := reasons q
  have mark : s'.playback.highMark = s.playback.highMark := by rw [before.playback]
  simp only [raisedWhen, before.writing, mark, before.attached, before.reasons q 8 (.inl rfl),
    before.reasons q 9 (.inr rfl)] at at_q
  simp only [raisedWhen, after.reasons q 8 (.inl rfl), after.reasons q 9 (.inr rfl)]
  exact at_q

theorem ramped_quiet (before : Quiet s s') (after : Quiet t t') {m : StripNo} (h : Ramped m s' t) : Ramped m s t' := fun c => by
  rw [after.cells m, h c, before.cells m]
  exact (rampedCell_congr (before.used m).symm (by rw [before.engine]) (after.used m) (after.target m c) _).symm

theorem fallen_quiet (h : Quiet s s') (m : StripNo) : s'.fallen m = s.fallen m := fallen_congr (h.strip m) h.passOpen h.line

theorem punchOuts_quiet (h : Quiet s s') (frame : Nat) (reason : PunchReason) :
    s'.punchOuts frame reason = s.punchOuts frame reason := by
  simp only [State.punchOuts, State.armed, h.strip, h.passOpen]

theorem Fallen.quiet {frame : Nat} {reason : PunchReason} (before : Quiet s s') (after : Quiet t t')
    (h : Fallen frame reason s' t) : Fallen frame reason s t' := by
  obtain ⟨strips, queued, ramped⟩ := h
  refine ⟨fun m => ?_, ?_, fun m => ramped_quiet before after (ramped m)⟩
  · rw [after.strip, strips, fallen_quiet before]
  · rw [punchOuts_quiet before] at queued
    exact queued_quiet before after queued

theorem risen_quiet (h : Quiet s s') (m : StripNo) : s'.risen m = s.risen m := by
  have armed : s'.armed m = s.armed m := by simp only [State.armed, h.strip, h.passOpen]
  unfold State.risen State.risesIn State.punchedIn
  rw [armed, h.strip, h.used, h.busTable]

theorem Risen.quiet (before : Quiet s s') (after : Quiet t t') (counter : s'.timeline.counter = s.timeline.counter)
    (h : Risen s' t) : Risen s t' := by
  obtain ⟨strips, queued, ramped⟩ := h
  have armed (m : StripNo) : s'.armed m = s.armed m := by simp only [State.armed, before.strip, before.passOpen]
  have records : s'.punchIns = s.punchIns := by
    simp only [State.punchIns, State.risesIn, risen_quiet before, counter, before.strip, armed]
  refine ⟨fun m => ?_, ?_, fun m => ramped_quiet before after (ramped m)⟩
  · rw [after.strip, strips, risen_quiet before]
  · rw [records] at queued
    exact queued_quiet before after queued

theorem Quiet.refl (s : State) : Quiet s s := ⟨rfl, rfl, rfl, rfl, rfl, fun _ => rfl, fun _ _ _ => rfl, rfl⟩

theorem quiet_timeline {f : Timeline → Timeline} (line : (f s.timeline).punch.filtered = s.timeline.punch.filtered) :
    Quiet s (s.modTimeline f) := ⟨rfl, rfl, rfl, rfl, rfl, fun _ => rfl, fun _ _ _ => rfl, line⟩

theorem quiet_placed {tl : Timeline} (line : tl.punch.filtered = s.timeline.punch.filtered) :
    Quiet s { s with timeline := tl } := quiet_timeline (f := fun _ => tl) line

theorem quiet_withCues (q : List Cue) (s : State) : Quiet s (s.withCues q) :=
  ⟨rfl, rfl, rfl, rfl, rfl, fun _ => rfl, fun _ _ _ => rfl, rfl⟩

end Quiet

/-! ### What an event of the timeline leaves -/

section Frame
variable {may more : BitVec 12} {s t u : State}

theorem TimelineFrame.trans (h : TimelineFrame may s t) (k : TimelineFrame may t u) : TimelineFrame may s u := by
  obtain ⟨busTable, audio, engine, takePort, playback, pending, ports⟩ := h
  obtain ⟨busTable', audio', engine', takePort', playback', pending', ports'⟩ := k
  refine ⟨busTable'.trans busTable, audio'.trans audio, by rw [engine', engine], takePort'.trans takePort,
    by rw [playback', playback], pending'.trans pending,
    fun q => ⟨pendingKept_trans (ports q).1 (ports' q).1, by rw [(ports' q).2, (ports q).2]⟩⟩

theorem TimelineFrame.mono (h : TimelineFrame may s t) (wider : ∀ b < 12, more.getLsbD b = false → may.getLsbD b = false) :
    TimelineFrame more s t := by
  obtain ⟨busTable, audio, engine, takePort, playback, pending, ports⟩ := h
  exact ⟨busTable, audio, engine, takePort, playback, pending, fun q => ⟨pendingKept_mono (ports q).1 wider, (ports q).2⟩⟩

theorem timelineFrame_timeline (f : Timeline → Timeline) (s : State) : TimelineFrame may s (s.modTimeline f) :=
  ⟨rfl, rfl, rfl, rfl, rfl, rfl, fun _ => ⟨rfl, rfl⟩⟩

theorem timelineFrame_placed (tl : Timeline) (s : State) : TimelineFrame may s { s with timeline := tl } :=
  timelineFrame_timeline (fun _ => tl) s

theorem timelineFrame_withCues (q : List Cue) (s : State) : TimelineFrame may s (s.withCues q) :=
  ⟨rfl, rfl, rfl, rfl, rfl, rfl, fun _ => ⟨rfl, rfl⟩⟩

theorem StripsTurn.frame {r : StripNo → Strip} {rs : List TakeRecord} (h : StripsTurn r rs s t) :
    TimelineFrame 0x300#12 s t :=
  ⟨h.only.busTable, h.only.audio, h.only.engine, by rw [h.only.writing], by rw [h.only.playback], h.only.pending,
    fun q => ⟨h.kept q, h.port q⟩⟩

theorem mask_left (a b : BitVec 12) : ∀ i < 12, (a ||| b).getLsbD i = false → a.getLsbD i = false := by
  intro i _ h
  rw [BitVec.getLsbD_or] at h
  exact (Bool.or_eq_false_iff.mp h).1

theorem bit_no_take {r : Reason} (other : r ≠ .high ∧ r ≠ .lost) : r.bit ≠ 8 ∧ r.bit ≠ 9 := by
  cases r <;> simp_all [Reason.bit]

/-- A reason of `may` raised at some ports. -/
theorem timelineFrame_raised {r : Reason} {why : PortId → Prop} [∀ q, Decidable (why q)] (ports : ∀ q,
      t.port q = if why q then (s.port q).raised r else s.port q) (rest : t = { s with ports := t.ports })
    (member : may.getLsbD r.bit = true) : TimelineFrame may s t := by
  refine ⟨by rw [rest], by rw [rest], by rw [rest], by rw [rest], by rw [rest], by rw [rest], fun q => ⟨?_, ?_⟩⟩
  · exact pendingKept_raised (why := why q) (by rw [ports]) member
  · rw [ports]
    split
    · rw [raised_eq]
    · rfl

theorem quiet_raised {r : Reason} {why : PortId → Prop} [∀ q, Decidable (why q)] (ports : ∀ q,
      t.port q = if why q then (s.port q).raised r else s.port q) (rest : t = { s with ports := t.ports })
    (other : r ≠ .high ∧ r ≠ .lost) : Quiet s t := by
  have bits := bit_no_take other
  refine ⟨by rw [rest], by rw [rest], by rw [rest], by rw [rest], by rw [rest], fun q => ?_, fun q b hb => ?_, by rw [rest]⟩
  · rw [ports]
    split
    · rw [raised_eq]
    · rfl
  · have apart : b ≠ r.bit := by rcases hb with rfl | rfl <;> [exact bits.1.symm; exact bits.2.symm]
    rw [ports]
    split
    · rw [raised_bit]
      simp [apart]
    · rfl

end Frame

/-! ### Counting (R97, R134) -/

theorem counted_recount (reason : PunchReason) (s : State) :
    Counted (s.timeline.roll.filtered && s.timeline.settle == 0) reason s (recount reason s) := by
  unfold Counted
  split
  · next same => exact recount_same same.symm
  · next differs =>
    cases now : (s.timeline.roll.filtered && s.timeline.settle == 0) with
    | true =>
      have was : s.timeline.counting = false := by simpa [now] using differs
      have turn := stripsTurn_rise (s.modTimeline fun tl => { tl with counting := true })
      have quiet : Quiet s (s.modTimeline fun tl => { tl with counting := true }) := quiet_timeline rfl
      rw [recount_rise was now]
      refine ⟨turn.only.timeline, turn.only.playback, (timelineFrame_timeline _ s).trans turn.frame, ?_⟩
      rw [if_pos rfl]
      have risen : Risen (s.modTimeline fun tl => { tl with counting := true }) _ := ⟨turn.strip, turn.queued, turn.ramped⟩
      exact risen.quiet quiet (.refl _) rfl
    | false =>
      have was : s.timeline.counting = true := by simpa [now] using differs
      have turn := stripsTurn_fall (s := s.modTimeline fun tl => { tl with counting := false }) reason rfl
      have quiet : Quiet s (s.modTimeline fun tl => { tl with counting := false }) := quiet_timeline rfl
      rw [recount_fall was now]
      refine ⟨turn.only.timeline, turn.only.playback, (timelineFrame_timeline _ s).trans turn.frame, ?_⟩
      rw [if_neg Bool.false_ne_true]
      have fallen : Fallen s.timeline.counter reason (s.modTimeline fun tl => { tl with counting := false }) _ :=
        ⟨turn.strip, turn.queued, turn.ramped⟩
      exact fallen.quiet quiet (.refl _)

/-! ### A locate (R100, R102, R104, R122) -/

section Locate
variable {s : State}

theorem port_flush (s : State) (q : PortId) :
    (flushFromTimeline s).port q =
      if s.playback.passOpen = true ∧ s.playback.passPort = some q then (s.port q).raised .stream else s.port q := by
  unfold flushFromTimeline
  dsimp only
  cases s.playback.passOpen with
  | false => rw [if_neg Bool.false_ne_true, if_neg (by simp)]; rfl
  | true =>
    rw [if_pos rfl, raiseAtRole_port]
    exact if_congr (by simp) rfl rfl

theorem flush_ports (s : State) : flushFromTimeline s = { s.withCues [] with ports := (flushFromTimeline s).ports } :=
  flushFromTimeline_eq s

theorem quiet_flush (s : State) : Quiet s (flushFromTimeline s) :=
  (quiet_withCues [] s).trans (quiet_raised (r := .stream)
    (why := fun q => s.playback.passOpen = true ∧ s.playback.passPort = some q) (port_flush s) (flush_ports s) (by simp))

theorem timelineFrame_flush (s : State) : TimelineFrame 0x040#12 s (flushFromTimeline s) :=
  (timelineFrame_withCues [] s).trans (timelineFrame_raised (r := .stream)
    (why := fun q => s.playback.passOpen = true ∧ s.playback.passPort = some q) (port_flush s) (flush_ports s) rfl)

theorem raised_flush (s : State) (q : PortId) :
    raisedWhen 6 q (s.playback.passOpen = true ∧ s.playback.passPort = some q) s (flushFromTimeline s) :=
  raisedWhen_congr (raisedWhen_raised (r := .stream) (by rw [port_flush])) (by simp [Reason.bit])

/-- What raises a reason, and then leaves it as it is. -/
theorem raisedWhen_kept {b : Nat} {q : PortId} {why : Prop} {may : BitVec 12} {s t u : State} (h : raisedWhen b q why s t)
    (kept : pendingKept may q t u) (range : b < 12) (out : may.getLsbD b = false) : raisedWhen b q why s u := by
  unfold raisedWhen at *
  rw [pendingKept_iff.mp kept b range out, h]

/-- A locate before counting follows it: the counter placed, the settle started and the cues flushed (R102, R122). -/
def locating (frame : Nat) (s : State) : State :=
  flushFromTimeline (s.modTimeline fun tl => { tl with counter := frame, phase := 0, settle := 2 * s.spf })

theorem locateTo_eq (frame : Nat) (reason : PunchReason) (s : State) :
    locateTo frame reason s = recount reason (locating frame s) := rfl

theorem locating_timeline (frame : Nat) (s : State) :
    (locating frame s).timeline = { s.timeline with counter := frame, phase := 0, settle := 2 * s.spf } :=
  flushFromTimeline_timeline _

theorem quiet_locating (frame : Nat) (s : State) : Quiet s (locating frame s) :=
  Quiet.trans (quiet_timeline rfl) (quiet_flush _)

theorem timelineFrame_locating (frame : Nat) (s : State) : TimelineFrame 0x040#12 s (locating frame s) :=
  (timelineFrame_timeline _ s).trans (timelineFrame_flush _)

theorem raised_locating (frame : Nat) (s : State) (q : PortId) :
    raisedWhen 6 q (s.playback.passOpen = true ∧ s.playback.passPort = some q) s (locating frame s) :=
  raised_flush (s.modTimeline fun tl => { tl with counter := frame, phase := 0, settle := 2 * s.spf }) q

theorem located_locateTo (frame : Nat) (reason : PunchReason) (also : BitVec 12) (s : State) :
    Located frame reason also s (locateTo frame reason s) := by
  have timeline : (locateTo frame reason s).timeline = { s.timeline with
      counter := frame, phase := 0, settle := 2 * framePeriods s.audio.rate s.timeline.rate, counting := false } :=
    locateTo_timeline frame reason s
  have playback := locateTo_playback frame reason s
  have quiet := quiet_locating frame s
  have frame_flush := timelineFrame_locating frame s
  have stream := raised_locating frame s
  have after := locating_timeline frame s
  rw [locateTo_eq] at timeline playback ⊢
  generalize locating frame s = u at *
  have counted := counted_recount reason u
  have settling : (u.timeline.roll.filtered && u.timeline.settle == 0) = false := by
    have := spf_pos s
    rw [after]
    simp
    omega
  rw [settling, Counted] at counted
  have counting : u.timeline.counting = s.timeline.counting := by rw [after]
  have counter : u.timeline.counter = frame := by rw [after]
  rw [counting, counter] at counted
  cases was : s.timeline.counting with
  | false =>
    rw [was, if_pos rfl] at counted
    rw [Located, was, if_neg Bool.false_ne_true]
    refine ⟨timeline, playback, ?_, ?_, ?_⟩ <;> rw [counted]
    · exact frame_flush.mono fun b hb out =>
        (by decide : ∀ b < 12, (0x340#12).getLsbD b = false → (0x040#12).getLsbD b = false) b hb (mask_left _ _ b hb out)
    · exact stream
    · exact ⟨quiet.strips, quiet.writing, quiet.engine, frame_flush.mono fun b hb out => mask_left _ _ b hb out⟩
  | true =>
    rw [was, if_neg (by simp), if_neg Bool.false_ne_true] at counted
    obtain ⟨-, -, frame_fall, fallen⟩ := counted
    have both : TimelineFrame 0x340#12 s (recount reason u) :=
      (frame_flush.mono (by decide)).trans (frame_fall.mono (by decide))
    rw [Located, was, if_pos rfl]
    refine ⟨timeline, playback, both.mono fun b hb out => mask_left _ _ b hb out, fun q => ?_, fallen.quiet quiet (.refl _)⟩
    exact raisedWhen_kept (stream q) (frame_fall.2.2.2.2.2.2 q).1 (by decide) (by decide)

end Locate

end Sys2Proof.Machine

/-!
PROOFS. LOCATE (R102, R122, R134).
-/
namespace Sys2Proof.Machine

/-- A pending set in which nothing but one reason can have changed. -/
theorem pendingSet_raised {b : Nat} {q : PortId} {why : Prop} {set : BitVec 12} [Decidable why] {s t : State}
    (one : ∀ i < 12, set.getLsbD i = decide (i = b)) (kept : pendingKept set q s t) (raised : raisedWhen b q why s t) :
    (t.port q).pendingSet =
      if why ∧ (s.port q).attached = true then (s.port q).pendingSet ||| set else (s.port q).pendingSet := by
  refine BitVec.eq_of_getLsbD_eq fun i hi => ?_
  by_cases same : i = b
  · subst same
    have bit : (t.port q).pendingSet.getLsbD i = true ↔ _ := raised
    rw [Bool.eq_iff_iff, bit]
    split
    · next h => simp [BitVec.getLsbD_or, one i hi, h.1, h.2]
    · next h => tauto
  · rw [pendingKept_iff.mp kept i hi (by rw [one i hi]; simp [same])]
    split
    · rw [BitVec.getLsbD_or, one i hi, decide_eq_false same, Bool.or_false]
    · rfl

section Request
variable {p : PortId} {s : State} (h : (s.port p).takes = true)
include h

theorem quiet_transacted : Quiet s (s.modPort p PortState.transacted) :=
  have same := sameSignals_transacted h
  ⟨rfl, rfl, rfl, rfl, rfl, same.attached, fun q b _ => by rw [same.pendingSet], rfl⟩

omit h in
theorem quiet_concluded (posted : Bool) (p : PortId) (code : Byte) (st : Status) (items : List Byte) (v : State) :
    Quiet v (concluded posted p code st items v) := by
  have same := sameSignals_concluded posted p code st items v
  refine ⟨?_, ?_, ?_, ?_, ?_, same.attached, fun q b _ => by rw [same.pendingSet], ?_⟩
  all_goals cases posted <;> rfl

/-- What the ports show after a request of port `p` whose effect is an event of the timeline or the pass. -/
theorem ports_concluded {may : BitVec 12} {v : State}
    (ports : ∀ q, pendingKept may q (s.modPort p PortState.transacted) v ∧
      v.port q = { (s.modPort p PortState.transacted).port q with pendingSet := (v.port q).pendingSet })
    (code : Byte) (st : Status) (items : List Byte) :
    (∀ q, pendingKept may q s (concluded false p code st items v)) ∧
      otherPortsRaised p s (concluded false p code st items v) ∧
      ownPortKept p s (concluded false p code st items v) ∧
      ((concluded false p code st items v).port p).replySlot = reply code st items := by
  refine ⟨fun q => ?_, fun q other => ?_, ?_, ?_⟩
  · exact pendingKept_signals (sameSignals_transacted h) (sameSignals_concluded ..) (ports q).1
  · rw [port_concluded_ne other, (ports q).2, port_modPort_ne _ _ other]
  · rw [ownPortKept, port_concluded, (ports p).2, port_transacted h]
  · rw [port_concluded]
    rfl

omit h in
theorem exec_locate_arm (p : PortId) (frame : BitVec 32) (s : State) : exec (.locate p frame) s = execLocate p frame s := rfl

theorem exec_locate_range {frame : BitVec 32} (far : 16777215 < frame.toNat) :
    exec (.locate p frame) s = .next (s.leaves p (reply 0x31 .range [])) := by
  rw [exec_locate_arm, execLocate]
  refine request_leaves h rfl (if_neg ?_)
  exact Nat.not_le.mpr far

theorem exec_locate_ok {frame : BitVec 32} (near : frame.toNat ≤ 16777215) :
    exec (.locate p frame) s =
      .next (concluded false p 0x31 .ok (wTimeline (locateTo frame.toNat .locate (s.modPort p PortState.transacted)))
        (locateTo frame.toNat .locate (s.modPort p PortState.transacted))) := by
  rw [exec_locate_arm, execLocate, request_taken h]
  exact congrArg _ (if_pos near)

end Request

/-- Settles O50. -/
theorem locatePlacesTheFrameAndEndsPunches : Obligations.LocatePlacesTheFrameAndEndsPunches := by
  intro p frame s h
  refine ⟨exec_locate_range h, fun near => ⟨_, exec_locate_ok h near, ?_⟩⟩
  have located := located_locateTo frame.toNat .locate 0 (s.modPort p PortState.transacted)
  have before := quiet_transacted h
  have same := sameSignals_transacted h
  generalize locateTo frame.toNat .locate (s.modPort p PortState.transacted) = v at *
  have after := quiet_concluded false p 0x31 .ok (wTimeline v) v
  have signals := sameSignals_concluded false p 0x31 .ok (wTimeline v) v
  obtain ⟨timeline, playback, frame_kept, stream, punches⟩ := located
  obtain ⟨busTable, audio, engine, takePort, -, pending, ports⟩ := frame_kept
  obtain ⟨kept, others, own, replied⟩ := ports_concluded h ports 0x31 .ok (wTimeline v)
  have raised (q : PortId) : raisedWhen 6 q (s.playback.passOpen = true ∧ s.playback.passPort = some q) s
      (concluded false p 0x31 .ok (wTimeline v) v) := by
    have at_q := stream q
    simp only [raisedWhen, same.attached, same.pendingSet] at at_q
    simp only [raisedWhen, signals.pendingSet]
    exact at_q
  refine ⟨timeline, playback, fun counting => ?_, fun counting => ?_, fun q => ⟨kept q, raised q⟩, busTable, audio, engine,
    takePort, pending, others, own, replied⟩
  · have counting' : (s.modPort p PortState.transacted).timeline.counting = true := counting
    rw [if_pos counting'] at punches
    exact Fallen.quiet before after punches
  · have counting' : ¬(s.modPort p PortState.transacted).timeline.counting = true := by
      rw [Bool.not_eq_true]
      exact counting
    rw [if_neg counting'] at punches
    obtain ⟨strips, writing, engine, -, -, -, -, -, -, ports⟩ := punches
    obtain ⟨alone, -, -, -⟩ := ports_concluded h ports 0x31 .ok (wTimeline v)
    refine ⟨strips, writing, engine, fun q => ?_⟩
    rw [pendingSet_raised (by decide) (alone q) (raised q)]
    exact if_congr and_assoc rfl rfl

end Sys2Proof.Machine

/-!
PROOFS. Cues applied in order, and the frame boundary at which they are (R99, R118 to R120): the word `BoundaryMoved` of a
sample period.
-/
namespace Sys2Proof.Machine

/-! ### The record of a cued strip (R118) -/

theorem cued_nil (m : StripNo) (r : Strip) : r.cued m [] = r := rfl

theorem cued_append (m : StripNo) (l k : List Cue) (r : Strip) : r.cued m (l ++ k) = (r.cued m l).cued m k := by
  simp only [Strip.cued, cuedFaders, cuedMutes, cuedPans, List.filterMap_append, List.getLast?_append, Option.or_assoc]

theorem cued_other {m : StripNo} {c : Cue} (other : c.strip ≠ m) (r : Strip) : r.cued m [c] = r := by
  simp [Strip.cued, cuedFaders, cuedMutes, cuedPans, other]

theorem cued_own (c : Cue) (r : Strip) : r.cued c.strip [c] = r.setShadow c.value := by
  unfold Strip.cued cuedFaders cuedMutes cuedPans
  cases value : c.value <;> simp [value, Strip.setShadow]

theorem cued_untouched {m : StripNo} {l : List Cue} (none : (l.countP fun c => c.strip = m) = 0) (r : Strip) :
    r.cued m l = r := by
  induction l generalizing r with
  | nil => rfl
  | cons c rest ih =>
    obtain ⟨other, later⟩ : ¬c.strip = m ∧ (rest.countP fun c => c.strip = m) = 0 := by
      rw [List.countP_cons] at none
      by_cases e : c.strip = m
      · simp [e] at none
      · exact ⟨e, by simpa [e] using none⟩
    rw [show c :: rest = [c] ++ rest from rfl, cued_append, cued_other other, ih later]

/-! ### A cell on its way (R36, R37) -/

/-- What retargets of strip `m` may have made of its cell for channel `c` (R36, R37). -/
def CellRamped (s t : State) (m : StripNo) (c : Channel) : Prop :=
  ((t.cells m)[c]).current = ((s.cells m)[c]).current ∧
  ((t.cells m)[c] = (s.cells m)[c] ∨
    (t.cells m)[c] =
      { current := ((s.cells m)[c]).current, start := ((s.cells m)[c]).current, target := t.target m c,
        length := s.engine.rampLength, step := 0 }) ∧
  (((s.cells m)[c]).target = s.target m c → ((t.cells m)[c]).target = t.target m c)

section CellRamped
variable {s t u : State} {m : StripNo} {c : Channel}

theorem cellRamped_same (cells : t.cells m = s.cells m) (target : t.target m c = s.target m c) : CellRamped s t m c := by
  refine ⟨by rw [cells], .inl (by rw [cells]), fun h => ?_⟩
  rw [cells, h, target]

theorem CellRamped.trans (h : CellRamped s t m c) (k : CellRamped t u m c)
    (length : t.engine.rampLength = s.engine.rampLength) : CellRamped s u m c := by
  obtain ⟨current, cell, target⟩ := h
  obtain ⟨current', cell', target'⟩ := k
  refine ⟨current'.trans current, ?_, fun own => target' (target own)⟩
  rcases cell' with kept | ramp
  · rcases cell with kept' | ramp'
    · exact .inl (kept.trans kept')
    · have own : ((t.cells m)[c]).target = t.target m c := by rw [ramp']
      have now := target' own
      rw [kept, own] at now
      exact .inr (by rw [kept, ramp', now])
  · exact .inr (by rw [ramp, current, length])

/-- A retarget moves no cell, and leaves it on the way to its target. -/
theorem cellRamped_of_ramped (ramped : Ramped m s t) (dest : (t.strip m).dest = (s.strip m).dest)
    (busTable : t.busTable = s.busTable) : CellRamped s t m c := by
  by_cases used : t.used m = s.used m
  · have target : t.target m c = s.target m c :=
      target_of_used used dest (by rw [busTable]) (by rw [busTable]) c
    have cell := ramped c
    rw [rampedCell_same used] at cell
    exact ⟨by rw [cell], .inl cell, fun own => by rw [cell, own, target]⟩
  · have cell := ramped c
    rw [rampedCell_retarget used] at cell
    refine ⟨by rw [cell, retarget_current], ?_, fun _ => by rw [cell, retarget_target]⟩
    by_cases kept : ((s.cells m)[c]).target = t.target m c
    · exact .inl (by rw [cell, retarget_same kept])
    · exact .inr (by rw [cell, retarget_new kept])

end CellRamped

theorem cellRamped_quiet {s s' t t' : State} {m : StripNo} {c : Channel} (before : Quiet s s') (after : Quiet t t')
    (h : CellRamped s' t m c) : CellRamped s t' m c := by
  unfold CellRamped at *
  rw [before.cells, before.engine, before.target] at h
  rw [after.cells, after.target]
  exact h

/-! ### Cues applied -/

/-- These cues, applied in order. -/
def applyCues (l : List Cue) (s : State) : State := l.foldl (fun t c => applyCue c t) s

/-- What the application of these cues does: each strip takes the shadows that they carry for it, and its cells the
retargets that follow. -/
structure CuesApplied (l : List Cue) (s t : State) : Prop where
  only : OnlyStrips s t
  writing : t.writing = s.writing
  ports : ∀ q, t.port q = s.port q
  strip : ∀ m, t.strip m = (s.strip m).cued m l
  untouched : ∀ m, (l.countP fun c => c.strip = m) = 0 → t.cells m = s.cells m
  once : ∀ m, (l.countP fun c => c.strip = m) ≤ 1 → Ramped m s t
  ramps : ∀ m c, CellRamped s t m c

theorem turnsTo_applyCue (p : PortId) (c : Cue) (s : State) :
    TurnsTo p c.strip ((s.strip c.strip).setShadow c.value) [] s (applyCue c s) :=
  turnsTo_handRetarget p c.strip (OnlyAt.modStrip c.strip _ s) (by rw [strip_modStrip_self])
    (handedOn_nothing (fun _ => rfl) rfl rfl) (by simp)

theorem applyCue_writing (c : Cue) (s : State) : (applyCue c s).writing = s.writing :=
  (handRetarget_onlyCells s c.strip _).writing

theorem applyCue_port (c : Cue) (s : State) (q : PortId) : (applyCue c s).port q = s.port q :=
  (handRetarget_onlyCells s c.strip _).port q

theorem cuesApplied_nil (s : State) : CuesApplied [] s s :=
  ⟨.refl s, rfl, fun _ => rfl, fun _ => rfl, fun _ _ => rfl, fun _ _ => ramped_of_same rfl rfl,
    fun _ _ => cellRamped_same rfl rfl⟩

theorem cuesApplied_one (c : Cue) (s : State) : CuesApplied [c] s (applyCue c s) where
  only := (OnlyAt.applyCue c s).onlyStrips
  writing := applyCue_writing c s
  ports := applyCue_port c s
  strip m := by
    by_cases e : c.strip = m
    · subst e
      rw [cued_own, (turnsTo_applyCue 0 c s).strip]
    · rw [cued_other e, (OnlyAt.applyCue c s).strips m (Ne.symm e)]
  untouched m none := (OnlyAt.applyCue c s).cells m fun e => by simp [e] at none
  once m _ := by
    by_cases e : c.strip = m
    · exact e ▸ (turnsTo_applyCue 0 c s).ramped
    · have only := OnlyAt.applyCue c s
      exact ramped_of_same (only.cells m (Ne.symm e)) (used_congr (only.strips m (Ne.symm e)) (by rw [only.playback]))
  ramps m ch := by
    have only := OnlyAt.applyCue c s
    by_cases e : c.strip = m
    · subst e
      have turn := turnsTo_applyCue 0 c s
      exact cellRamped_of_ramped turn.ramped (by rw [turn.strip, setShadow_dest]) only.busTable
    · exact cellRamped_same (only.cells m (Ne.symm e))
        (target_congr (only.strips m (Ne.symm e)) (by rw [only.playback]) (by rw [only.busTable]) (by rw [only.busTable]) ch)

theorem countP_zero {l k : List Cue} {m : StripNo} (none : ((l ++ k).countP fun c => c.strip = m) = 0) :
    (l.countP fun c => c.strip = m) = 0 ∧ (k.countP fun c => c.strip = m) = 0 := by
  rw [List.countP_append] at none
  omega

theorem CuesApplied.trans {l k : List Cue} {s t u : State} (h : CuesApplied l s t) (j : CuesApplied k t u) :
    CuesApplied (l ++ k) s u where
  only := h.only.trans j.only
  writing := j.writing.trans h.writing
  ports q := (j.ports q).trans (h.ports q)
  strip m := by rw [j.strip, h.strip, cued_append]
  untouched m none := (j.untouched m (countP_zero none).2).trans (h.untouched m (countP_zero none).1)
  once m one := fun c => by
    rw [List.countP_append] at one
    rcases Nat.eq_zero_or_pos (l.countP fun c => c.strip = m) with first | later
    · have strip : t.strip m = s.strip m := by rw [h.strip, cued_untouched first]
      rw [j.once m (by omega) c, h.untouched m first]
      exact rampedCell_congr (h.only.used strip) h.only.rampLength rfl rfl _
    · have rest : (k.countP fun c => c.strip = m) = 0 := by omega
      have strip : u.strip m = t.strip m := by rw [j.strip, cued_untouched rest]
      rw [j.untouched m rest, h.once m (by omega) c]
      exact (rampedCell_congr rfl rfl (j.only.used strip) (j.only.target strip c) _).symm
  ramps m c := (h.ramps m c).trans (j.ramps m c) h.only.rampLength

theorem cuesApplied (l : List Cue) (s : State) : CuesApplied l s (applyCues l s) := by
  induction l generalizing s with
  | nil => exact cuesApplied_nil s
  | cons c rest ih => exact (cuesApplied_one c s).trans (ih (applyCue c s))

/-- The arrival scan applies the heads at the counter's frame (R117). -/
theorem arrivalScan_eq (q : List Cue) (s : State) :
    arrivalScan q s =
      (applyCues (q.takeWhile fun c => c.frame = s.timeline.counter) s).withCues
        (q.dropWhile fun c => c.frame = s.timeline.counter) := by
  induction q generalizing s with
  | nil => rfl
  | cons c rest ih =>
    unfold arrivalScan
    by_cases now : c.frame = s.timeline.counter
    · rw [if_pos now, ih, (OnlyAt.applyCue c s).timeline, List.takeWhile_cons_of_pos (by simpa using now),
        List.dropWhile_cons_of_pos (by simpa using now)]
      rfl
    · rw [if_neg now, List.takeWhile_cons_of_neg (by simpa using now), List.dropWhile_cons_of_neg (by simpa using now)]
      rfl

/-- With no cue behind the counter the boundary scan is an arrival scan (R119). -/
theorem boundaryHeads_eq (q : List Cue) (s : State)
    (fresh : ∀ c ∈ q, behind s.timeline.reverse c.frame s.timeline.counter = false) :
    boundaryHeads q s = arrivalScan q s := by
  induction q generalizing s with
  | nil => rfl
  | cons c rest ih =>
    have head := fresh c (by simp)
    have tail := ih (applyCue c s) fun d hd => by
      rw [(OnlyAt.applyCue c s).timeline]
      exact fresh d (by simp [hd])
    rw [boundaryHeads, arrivalScan, if_neg (by rw [head]; exact Bool.false_ne_true), tail]

/-! ### A frame boundary that is not a wrap (R99) -/

/-- Every queued cue lies ahead of the frame counter. -/
abbrev State.cuesAhead (s : State) : Prop :=
  ∀ c ∈ s.playback.cues, if s.timeline.reverse then c.frame < s.timeline.counter else s.timeline.counter < c.frame

/-- The counter one frame on, held at its ends. -/
abbrev State.frameOn (s : State) : Nat :=
  if s.timeline.reverse then s.timeline.counter - 1
  else if s.timeline.counter < 16777215 then s.timeline.counter + 1 else s.timeline.counter

theorem nextFrame_eq {s : State} (range : s.timeline.counter ≤ 16777215) :
    nextFrame s.timeline.reverse s.timeline.counter = s.frameOn := by
  have top : Config.maxFrame = 16777215 := rfl
  unfold nextFrame State.frameOn
  rw [top]
  split
  · rfl
  · split <;> omega

theorem fresh_frameOn {s : State} (ahead : s.cuesAhead) : ∀ c ∈ s.playback.cues, behind s.timeline.reverse c.frame s.frameOn = false := by
  intro c mem
  have now := ahead c mem
  unfold behind
  unfold State.frameOn
  split at now
  · next h => simp only [h, if_true, decide_eq_false_iff_not]; omega
  · next h =>
    simp only [h, if_false, decide_eq_false_iff_not, Bool.false_eq_true]
    split <;> omega

theorem port_boundaryScan (s : State) (q : PortId) :
    (boundaryScan s).port q =
      if s.playback.passPort = some q ∧ s.playback.lowMark ≤ s.playback.cues.length ∧
          (boundaryHeads s.playback.cues s).playback.cues.length < s.playback.lowMark then
        ((boundaryHeads s.playback.cues s).port q).raised .low
      else (boundaryHeads s.playback.cues s).port q := by
  unfold boundaryScan
  dsimp only
  by_cases crossed : s.playback.lowMark ≤ s.playback.cues.length ∧
      (boundaryHeads s.playback.cues s).playback.cues.length < s.playback.lowMark
  · rw [if_pos crossed, raiseAtRole_port]
    simp only [crossed, and_true]
  · rw [if_neg crossed, if_neg fun h => crossed h.2]

theorem boundaryScan_ports (s : State) :
    boundaryScan s = { boundaryHeads s.playback.cues s with ports := (boundaryScan s).ports } := by
  unfold boundaryScan
  dsimp only
  split
  · rw [raiseAtRole_eq]
  · rfl

theorem timelineFrame_cues {l : List Cue} {s t : State} (h : CuesApplied l s t) : TimelineFrame 0x080#12 s t :=
  ⟨h.only.busTable, h.only.audio, h.only.engine, by rw [h.writing], by rw [h.only.playback], h.only.pending,
    fun q => ⟨pendingKept_refl (by rw [h.ports]), by rw [h.ports]⟩⟩

/-- The state at the new frame, the cue queue not yet scanned (R99). -/
def framed (s : State) : State :=
  s.modTimeline fun tl => { tl with phase := 0, counter := nextFrame tl.reverse tl.counter }

/-- The boundary scan of a queue that lies ahead applies the heads at the new frame. -/
theorem boundaryHeads_framed {s : State} (ahead : s.cuesAhead) (range : s.timeline.counter ≤ 16777215) :
    boundaryHeads s.playback.cues (framed s) =
      (applyCues (s.playback.cues.takeWhile fun c => c.frame = s.frameOn) (framed s)).withCues
        (s.playback.cues.dropWhile fun c => c.frame = s.frameOn) := by
  have counter : (framed s).timeline.counter = s.frameOn := nextFrame_eq range
  have fresh : ∀ c ∈ s.playback.cues,
      behind (framed s).timeline.reverse c.frame (framed s).timeline.counter = false := by
    rw [counter]
    exact fresh_frameOn ahead
  rw [boundaryHeads_eq _ _ fresh, arrivalScan_eq, counter]

theorem boundaryMoved_boundary {s : State} (ahead : s.cuesAhead) (range : s.timeline.counter ≤ 16777215)
    (moves : s.timeline.wraps = false) : BoundaryMoved s.frameOn s (boundary s) := by
  have placed : boundary s = boundaryScan (framed s) := if_neg (by rw [moves]; exact Bool.false_ne_true)
  have timeline : (boundaryScan (framed s)).timeline = { s.timeline with counter := s.frameOn, phase := 0 } := by
    rw [boundaryScan_timeline, ← nextFrame_eq range]
    rfl
  have heads := boundaryHeads_framed ahead range
  have applied := cuesApplied (s.playback.cues.takeWhile fun c => c.frame = s.frameOn) (framed s)
  have ports := port_boundaryScan (framed s)
  have rest := boundaryScan_ports (framed s)
  rw [placed]
  generalize boundaryScan (framed s) = t at *
  have cues : (framed s).playback = s.playback := rfl
  rw [cues, heads] at ports rest
  generalize applyCues (s.playback.cues.takeWhile fun c => c.frame = s.frameOn) (framed s) = v at *
  have quiet : Quiet s (framed s) := quiet_timeline rfl
  have after : Quiet v t := (quiet_withCues _ v).trans (quiet_raised ports rest (by simp))
  have playback : t.playback =
      { s.playback with cues := s.playback.cues.dropWhile fun c => c.frame = s.frameOn } := by
    rw [rest, State.withCues, applied.only.playback]
    rfl
  have raised : ∀ q, raisedWhen 7 q (s.playback.passPort = some q ∧ s.playback.lowMark ≤ s.playback.cues.length ∧
      t.playback.cues.length < s.playback.lowMark) s t := fun q => by
    have at_v := raisedWhen_raised (b := 7) (s := v) (t := t) (r := .low) (congrArg PortState.pendingSet (ports q))
    have at_s : (v.port q) = s.port q := applied.ports q
    rw [raisedWhen, at_s] at at_v
    refine raisedWhen_congr at_v ?_
    rw [playback]
    simp [Reason.bit, State.withCues]
  refine ⟨timeline, playback, ?_, after.writing.trans applied.writing, raised, fun m => ?_, fun m none => ?_,
    fun m one => ramped_quiet quiet after (applied.once m one), fun m c => cellRamped_quiet quiet after (applied.ramps m c)⟩
  · have frame_v : TimelineFrame 0x080#12 s v := (timelineFrame_timeline _ s).trans (timelineFrame_cues applied)
    exact (frame_v.trans (timelineFrame_withCues _ v)).trans (timelineFrame_raised ports rest rfl)
  · rw [after.strip, applied.strip]
    rfl
  · rw [after.cells, applied.untouched m none]
    rfl

end Sys2Proof.Machine

/-!
PROOFS. The stages of the timeline's sample period (R98): the words `Advanced` and `Pressed`, the lines filtered, and the
period as those stages in order.
-/
namespace Sys2Proof.Machine

/-! ### Lines (R92, R93) -/

theorem sample_eq_stepped (level : Bool) (l : LineRecord) : l.sample level = l.stepped level := by
  unfold LineRecord.sample LineRecord.stepped LineRecord.sensed
  by_cases same : (level != l.activeLow) = l.filtered
  · rw [if_pos same, if_pos (.inl same)]
    simp only [same, ite_self]
  · rw [if_neg same]
    by_cases few : l.count + 1 < l.filter
    · rw [if_pos few, if_neg fun h => h.elim same (by omega), if_neg (by omega)]
    · rw [if_neg few, if_pos (.inr (by omega)), if_pos (by omega)]

theorem linesSampled_eq (v : LineLevels) (s : State) : s.modTimeline (filterLines v) = s.linesSampled v := by
  simp only [State.modTimeline, filterLines, State.linesSampled, sample_eq_stepped]

theorem stepped_steady {l : LineRecord} {level : Bool} (steady : l.changes level = false) :
    (l.stepped level).filtered = l.filtered := by
  rw [← sample_eq_stepped]
  exact sample_filtered_of_steady steady

theorem stepped_change {l : LineRecord} {level : Bool} (change : l.changes level = true) :
    (l.stepped level).filtered = !l.filtered := by
  rw [← sample_eq_stepped]
  exact sample_filtered_of_change change

theorem stepped_eq_of_steady {l : LineRecord} {level : Bool} (steady : l.changes level = false) :
    l.stepped level = { l with
      raw := level,
      count := if (level != l.activeLow) = l.filtered then 0 else l.count + 1 } := by
  have filtered := stepped_steady steady
  unfold LineRecord.stepped at *
  dsimp only at filtered
  rw [filtered]
  by_cases same : (level != l.activeLow) = l.filtered
  · rw [if_pos same, if_pos (.inl same)]
  · have few : ¬l.filter ≤ l.count + 1 := fun enough => same (by rw [if_pos enough] at filtered; exact filtered)
    rw [if_neg same, if_neg fun h => h.elim same few]

section Sampled
variable (v : LineLevels) (s : State)

theorem quiet_linesSampled : Quiet s (s.linesSampled v) := quiet_placed rfl

theorem timelineFrame_linesSampled {may : BitVec 12} : TimelineFrame may s (s.linesSampled v) :=
  timelineFrame_placed _ s

end Sampled

/-- The records of the lines are the same. -/
def Timeline.KeepsLines (t u : Timeline) : Prop := ∀ l, u.line l = t.line l

theorem keepsLines_placed {t : Timeline} {reverse counting : Bool} {counter phase settle : Nat} :
    t.KeepsLines { t with reverse, counting, counter, phase, settle } := fun l => by cases l <;> rfl

theorem keepsLines_turn (s : State) : s.timeline.KeepsLines (turn s).timeline := by
  rw [turn_timeline]
  exact keepsLines_placed

theorem keepsLines_recount (reason : PunchReason) (s : State) : s.timeline.KeepsLines (recount reason s).timeline := by
  rw [recount_timeline]
  exact fun l => by cases l <;> rfl

theorem keepsLines_boundary (s : State) : s.timeline.KeepsLines (boundary s).timeline := by
  rw [boundary_timeline]
  split
  · exact keepsLines_placed
  · exact keepsLines_placed

theorem keepsLines_advance (s : State) : s.timeline.KeepsLines (advanceTimeline s).timeline := by
  rw [advanceTimeline_timeline]
  split
  · exact fun l => by cases l <;> rfl
  · split
    · split
      · exact keepsLines_boundary s
      · exact keepsLines_placed
    · exact fun _ => rfl

theorem Timeline.KeepsLines.trans {t u w : Timeline} (h : t.KeepsLines u) (k : u.KeepsLines w) : t.KeepsLines w :=
  fun l => (k l).trans (h l)

/-- The lines after the stages that follow their filtering, filtered PUNCH apart. -/
theorem keepsLines_stages (v : LineLevels) (old : Timeline) (s : State) :
    s.timeline.KeepsLines (advanceStage v old (rollStage v old (turnStage v old s))).timeline := by
  have turned : s.timeline.KeepsLines (turnStage v old s).timeline := by
    unfold turnStage
    split
    · exact keepsLines_turn s
    · exact fun _ => rfl
  have counted : (turnStage v old s).timeline.KeepsLines (rollStage v old (turnStage v old s)).timeline := by
    unfold rollStage
    split
    · exact keepsLines_recount _ _
    · exact fun _ => rfl
  have advanced : (rollStage v old (turnStage v old s)).timeline.KeepsLines
      (advanceStage v old (rollStage v old (turnStage v old s))).timeline := by
    unfold advanceStage
    split
    · exact fun _ => rfl
    · exact keepsLines_advance _
  exact (turned.trans counted).trans advanced

theorem linesStepped_period (v : LineLevels) (s : State) : LinesStepped v s (timelinePeriod v s) := by
  have stages := keepsLines_stages v s.timeline (s.linesSampled v)
  rw [timelinePeriod_eq, linesSampled_eq]
  generalize advanceStage v s.timeline (rollStage v s.timeline (turnStage v s.timeline (s.linesSampled v))) = c at *
  have roll : c.timeline.roll = s.timeline.roll.stepped v.roll := stages .roll
  have rev : c.timeline.rev = s.timeline.rev.stepped v.rev := stages .rev
  have punch : c.timeline.punch = { s.timeline.punch.stepped v.punch with filtered := s.timeline.punch.filtered } :=
    stages .punch
  unfold punchStage
  cases changes : s.timeline.punch.changes v.punch with
  | true =>
    rw [if_pos rfl]
    intro l
    rw [handPunch_timeline]
    cases l with
    | roll => exact roll
    | rev => exact rev
    | punch =>
      simp only [Timeline.line, punch, sample_eq_stepped]
      rfl
  | false =>
    rw [if_neg Bool.false_ne_true]
    intro l
    cases l with
    | roll => exact roll
    | rev => exact rev
    | punch =>
      have same := stepped_steady changes
      simp only [Timeline.line, punch, ← same]
      rfl

/-! ### Step 4: the timeline advances -/

section Advance
variable {s : State}

theorem advance_settle (settling : 0 < s.timeline.settle) :
    Counted (s.timeline.roll.filtered && s.timeline.settle == 1) .rollStop
      { s with timeline := { s.timeline with settle := s.timeline.settle - 1 } } (advanceTimeline s) := by
  have counted := counted_recount .rollStop (s.modTimeline fun tl => { tl with settle := tl.settle - 1 })
  have last : (s.timeline.settle - 1 == 0) = (s.timeline.settle == 1) := by
    rw [Bool.eq_iff_iff, beq_iff_eq, beq_iff_eq]
    omega
  rw [advanceTimeline, if_pos settling]
  rw [modTimeline_timeline] at counted
  dsimp only at counted
  rw [last] at counted
  exact counted

theorem advance_stopped (settled : s.timeline.settle = 0) (stopped : s.timeline.roll.filtered = false) :
    advanceTimeline s = s := by
  rw [advanceTimeline, if_neg (by omega), if_neg (by rw [stopped]; exact Bool.false_ne_true)]

theorem advance_rolling (settled : s.timeline.settle = 0) (rolling : s.timeline.roll.filtered = true)
    (within : s.timeline.phase + 1 < framePeriods s.audio.rate s.timeline.rate) :
    advanceTimeline s = { s with timeline := { s.timeline with phase := s.timeline.phase + 1 } } := by
  have spf : s.spf = framePeriods s.audio.rate s.timeline.rate := rfl
  rw [advanceTimeline, if_neg (by omega), if_pos rolling, if_neg (by omega)]
  rfl

theorem advance_boundary (settled : s.timeline.settle = 0) (rolling : s.timeline.roll.filtered = true)
    (reached : framePeriods s.audio.rate s.timeline.rate ≤ s.timeline.phase + 1) : advanceTimeline s = boundary s := by
  have spf : s.spf = framePeriods s.audio.rate s.timeline.rate := rfl
  rw [advanceTimeline, if_neg (by omega), if_pos rolling, if_pos (by omega)]

theorem wraps_iff : s.timeline.wraps = true ↔
    s.timeline.reverse = false ∧ s.timeline.loopEnabled = true ∧ s.timeline.counter = s.timeline.loopEnd := by
  simp [Timeline.wraps, and_assoc]

/-- A loop wrap: a locate to the loop start, and LOOP at every attached port (R100). -/
theorem located_wrap (wraps : s.timeline.wraps = true) :
    Located s.timeline.loopStart .loop 0x800#12 s (boundary s) ∧ ∀ q, raisedWhen 11 q True s (boundary s) := by
  have wrapped : boundary s = raiseEverywhere .loop (locateTo s.timeline.loopStart .loop s) := if_pos wraps
  obtain ⟨timeline, playback, frame, stream, punches⟩ := located_locateTo s.timeline.loopStart .loop 0x800#12 s
  obtain ⟨-, -, quietly, -, -⟩ := located_locateTo s.timeline.loopStart .loop 0 s
  rw [wrapped]
  generalize locateTo s.timeline.loopStart .loop s = u at *
  have ports : ∀ q, (raiseEverywhere .loop u).port q = if True then (u.port q).raised .loop else u.port q := fun q => by
    rw [if_pos trivial, raiseEverywhere, port_mapPorts]
  have rest : raiseEverywhere .loop u = { u with ports := (raiseEverywhere .loop u).ports } := rfl
  have after := quiet_raised ports rest (by simp)
  have raising {may : BitVec 12} (member : may.getLsbD Reason.loop.bit = true) := timelineFrame_raised ports rest member
  have attached (q : PortId) : (u.port q).attached = (s.port q).attached := by rw [(quietly.2.2.2.2.2.2 q).2]
  refine ⟨⟨timeline, playback, frame.trans (raising rfl), fun q => ?_, ?_⟩, fun q => ?_⟩
  · exact raisedWhen_kept (stream q) ((raising (may := 0x800#12) rfl).2.2.2.2.2.2 q).1 (by decide) (by decide)
  · split at punches
    · next counting =>
      rw [if_pos counting]
      exact Fallen.quiet (.refl s) after punches
    · next still =>
      rw [if_neg still]
      obtain ⟨strips, writing, engine, frame⟩ := punches
      exact ⟨strips, writing, engine, frame.trans (raising rfl)⟩
  · have loop := raisedWhen_raised (b := 11) (congrArg PortState.pendingSet (ports q))
    rw [raisedWhen, attached, pendingKept_iff.mp (quietly.2.2.2.2.2.2 q).1 11 (by decide) (by decide)] at loop
    exact raisedWhen_congr loop (by simp [Reason.bit])

theorem advanced_advanceTimeline (ahead : s.cuesAhead) (range : s.timeline.counter ≤ 16777215) :
    Advanced s (advanceTimeline s) := by
  unfold Advanced
  split
  · next settling => exact advance_settle settling
  · next settled =>
    have settled : s.timeline.settle = 0 := by omega
    split
    · next stopped => exact advance_stopped settled stopped
    · next rolling =>
      have rolling : s.timeline.roll.filtered = true := by simpa using rolling
      split
      · next within => exact advance_rolling settled rolling within
      · next reached =>
        rw [advance_boundary settled rolling (by omega)]
        split
        · next wraps => exact located_wrap (wraps_iff.mpr wraps)
        · next moves =>
          exact boundaryMoved_boundary ahead range (by rw [← Bool.not_eq_true]; exact mt wraps_iff.mp moves)

end Advance

/-! ### Step 5: filtered PUNCH -/

theorem pressed_handPunch (filtered : Bool) (s : State) :
    (handPunch filtered s).timeline = { s.timeline with punch := { s.timeline.punch with filtered } } ∧
      (handPunch filtered s).playback = s.playback ∧ Pressed s (handPunch filtered s) ∧
      TimelineFrame 0x300#12 s (handPunch filtered s) := by
  have timeline := handPunch_timeline filtered s
  have turn := stripsTurn_punch s (s.modTimeline fun tl => { tl with punch := { tl.punch with filtered } }) rfl
  have handed : handPunch filtered s = eachStrip (punchLineStrip s)
      (s.modTimeline fun tl => { tl with punch := { tl.punch with filtered } }) := rfl
  have now : ({ s with timeline := (handPunch filtered s).timeline } : State) =
      s.modTimeline fun tl => { tl with punch := { tl.punch with filtered } } := by
    rw [timeline]
    rfl
  have frame : TimelineFrame 0x300#12 s (handPunch filtered s) := (timelineFrame_timeline _ s).trans turn.frame
  refine ⟨timeline, turn.only.playback, ⟨fun m => ?_, ?_, fun m => ?_⟩, frame⟩
  · rw [now]
    exact turn.strip m
  · rw [now]
    exact turn.queued
  · exact turn.ramped m

/-! ### The period -/

theorem counting_turn (s : State) :
    (turn s).timeline.counting = ((turn s).timeline.roll.filtered && (turn s).timeline.settle == 0) := by
  rw [turn_timeline]
  exact counts_located (spf_pos s)

/-- Counting follows filtered ROLL and the settle at step 3, whether or not ROLL changed (R97). -/
theorem counted_rollStage {v : LineLevels} {old : Timeline} {s : State}
    (steady : old.roll.changes v.roll = false →
      s.timeline.counting = (s.timeline.roll.filtered && s.timeline.settle == 0)) :
    Counted (s.timeline.roll.filtered && s.timeline.settle == 0) .rollStop s (rollStage v old s) := by
  unfold rollStage
  cases changes : old.roll.changes v.roll with
  | true =>
    rw [if_pos rfl]
    exact counted_recount .rollStop s
  | false =>
    rw [if_neg Bool.false_ne_true, Counted, if_pos (steady changes).symm]

theorem counting_turnStage {v : LineLevels} {s : State}
    (counting : s.timeline.counting = (s.timeline.roll.filtered && s.timeline.settle == 0))
    (steady : s.timeline.roll.changes v.roll = false) :
    (turnStage v s.timeline (s.linesSampled v)).timeline.counting =
      ((turnStage v s.timeline (s.linesSampled v)).timeline.roll.filtered &&
        (turnStage v s.timeline (s.linesSampled v)).timeline.settle == 0) := by
  unfold turnStage
  split
  · exact counting_turn _
  · refine counting.trans ?_
    rw [← stepped_steady steady]
    rfl

theorem located_turn {v : LineLevels} {s : State} (changes : s.timeline.rev.changes v.rev = true) :
    Located s.timeline.counter .direction 0
      { s.linesSampled v with
        timeline := { (s.linesSampled v).timeline with reverse := !s.timeline.rev.filtered } }
      (turn (s.linesSampled v)) := by
  have filtered : (s.linesSampled v).timeline.rev.filtered = !s.timeline.rev.filtered := stepped_change changes
  have located := located_locateTo s.timeline.counter .direction 0
    ((s.linesSampled v).modTimeline fun tl => { tl with reverse := tl.rev.filtered })
  rw [State.modTimeline, filtered] at located
  rw [turn, State.modTimeline, filtered]
  exact located

theorem cuesAhead_congr {s t : State} (ahead : s.cuesAhead) (playback : t.playback = s.playback)
    (reverse : t.timeline.reverse = s.timeline.reverse) (counter : t.timeline.counter = s.timeline.counter) :
    t.cuesAhead := by
  unfold State.cuesAhead
  rw [playback, reverse, counter]
  exact ahead

theorem rollStage_playback (v : LineLevels) (old : Timeline) (s : State) : (rollStage v old s).playback = s.playback := by
  unfold rollStage
  split
  · exact recount_playback ..
  · rfl

theorem rollStage_placed (v : LineLevels) (old : Timeline) (s : State) :
    (rollStage v old s).timeline.reverse = s.timeline.reverse ∧ (rollStage v old s).timeline.counter = s.timeline.counter := by
  unfold rollStage
  split
  · rw [recount_timeline]
    exact ⟨rfl, rfl⟩
  · exact ⟨rfl, rfl⟩

theorem periodStages_period {v : LineLevels} {s : State}
    (counting : s.timeline.counting = (s.timeline.roll.filtered && s.timeline.settle == 0)) (ahead : s.cuesAhead)
    (range : s.timeline.counter ≤ 16777215) : ∃ a b c, PeriodStages v s a b c (timelinePeriod v s) := by
  rw [timelinePeriod_eq, linesSampled_eq]
  have counted := counted_rollStage (v := v) (old := s.timeline) (counting_turnStage (v := v) counting)
  refine ⟨turnStage v s.timeline (s.linesSampled v),
    rollStage v s.timeline (turnStage v s.timeline (s.linesSampled v)),
    advanceStage v s.timeline (rollStage v s.timeline (turnStage v s.timeline (s.linesSampled v))), ?_, counted, ?_, ?_⟩
  · unfold turnStage
    cases changes : s.timeline.rev.changes v.rev with
    | true => exact located_turn changes
    | false => rfl
  · unfold advanceStage turnStage
    cases changes : s.timeline.rev.changes v.rev with
    | true => rfl
    | false =>
      have placed := rollStage_placed v s.timeline (s.linesSampled v)
      refine advanced_advanceTimeline (s := rollStage v s.timeline (s.linesSampled v))
        (cuesAhead_congr ahead (rollStage_playback ..) placed.1 placed.2) ?_
      rw [placed.2]
      exact range
  · generalize advanceStage v s.timeline (rollStage v s.timeline (turnStage v s.timeline (s.linesSampled v))) = c
    unfold punchStage
    cases changes : s.timeline.punch.changes v.punch with
    | true =>
      rw [if_pos rfl, if_pos rfl, sample_filtered_of_change changes]
      exact pressed_handPunch _ c
    | false => rfl

end Sys2Proof.Machine

/-!
PROOFS. A sample period at which no line changes: it filters, settles, counts the phase, or reaches a frame boundary
(R98 to R100, R103).
-/
namespace Sys2Proof.Machine

section Arms
variable (v : LineLevels) (s : State)

theorem exec_timelineSamplePeriod_arm : exec (.timelineSamplePeriod v) s = .next (timelinePeriod v s) := rfl

theorem exec_settleEnd_arm : exec (.settleEnd v) s = execSettleEnd v s := rfl

theorem exec_frameBoundary_arm : exec (.frameBoundary v) s = execFrameBoundary v s := rfl

theorem exec_lineChange_arm (l : Line) : exec (.lineChange l v) s = execLineChange l v s := rfl

end Arms

section Steady
variable {v : LineLevels} {s : State}

/-- SETTLE_END is the sample period at which the settle ends (R103). -/
theorem exec_settleEnd (rev : s.timeline.rev.changes v.rev = false) (last : s.timeline.settle = 1) :
    exec (.settleEnd v) s = .next (timelinePeriod v s) := by
  rw [exec_settleEnd_arm, execSettleEnd, if_pos (by simp [settleEnds, rev, last])]

/-- FRAME_BOUNDARY is the sample period that reaches a frame boundary (R99). -/
theorem exec_frameBoundary (rev : s.timeline.rev.changes v.rev = false) (roll : s.timeline.roll.changes v.roll = false)
    (settled : s.timeline.settle = 0) (rolling : s.timeline.roll.filtered = true)
    (reached : framePeriods s.audio.rate s.timeline.rate ≤ s.timeline.phase + 1) :
    exec (.frameBoundary v) s = .next (timelinePeriod v s) := by
  have spf : s.spf = framePeriods s.audio.rate s.timeline.rate := rfl
  have filtered := (sample_filtered_of_steady roll).trans rolling
  rw [exec_frameBoundary_arm, execFrameBoundary,
    if_pos (by simp only [reachesBoundary, rev, settled, filtered, spf]; simpa using reached)]

/-- LINE_CHANGE is the sample period at which the line changes (R93). -/
theorem exec_lineChange {l : Line} (changes : (s.timeline.line l).changes (levelOf v l) = true) :
    exec (.lineChange l v) s = .next (timelinePeriod v s) := by
  rw [exec_lineChange_arm, execLineChange, if_pos changes]

/-- The timeline with its lines filtered, and these of its other fields placed. -/
theorem lines_apart {t : Timeline} {reverse counting : Bool} {counter phase settle : Nat}
    (h : t = { (s.linesSampled v).timeline with reverse, counting, counter, phase, settle }) :
    t = { s.timeline with
      roll := t.roll, rev := t.rev, punch := t.punch, reverse, counting, counter, phase, settle } := by
  rw [h]
  rfl

variable (roll : s.timeline.roll.changes v.roll = false) (rev : s.timeline.rev.changes v.rev = false)
  (punch : s.timeline.punch.changes v.punch = false)

theorem period_steady (roll : s.timeline.roll.changes v.roll = false) (rev : s.timeline.rev.changes v.rev = false)
    (punch : s.timeline.punch.changes v.punch = false) : timelinePeriod v s = advanceTimeline (s.linesSampled v) := by
  rw [timelinePeriod_eq, linesSampled_eq, punchStage, punch, advanceStage, rev, rollStage, roll, turnStage, rev]
  rfl

include roll in
theorem sampled_roll : (s.linesSampled v).timeline.roll.filtered = s.timeline.roll.filtered := stepped_steady roll

include roll

/-- In a settle that goes on, of a stopped timeline, or within a frame, the timeline alone moves. -/
theorem advance_within (within : s.timeline.settle = 0 → s.timeline.roll.filtered = true →
      s.timeline.phase + 1 < framePeriods s.audio.rate s.timeline.rate)
    (counting : s.timeline.counting = (s.timeline.roll.filtered && s.timeline.settle == 0))
    (goes_on : ¬(s.timeline.settle = 1 ∧ s.timeline.roll.filtered = true)) :
    advanceTimeline (s.linesSampled v) = { s with timeline := { (s.linesSampled v).timeline with
      settle := s.timeline.settle - 1,
      phase := if s.timeline.settle = 0 ∧ s.timeline.roll.filtered = true then s.timeline.phase + 1
        else s.timeline.phase,
      counting := decide (s.timeline.settle ≤ 1) && s.timeline.roll.filtered } } := by
  have rolling : (s.linesSampled v).timeline.roll.filtered = s.timeline.roll.filtered := sampled_roll roll
  rcases Nat.eq_zero_or_pos s.timeline.settle with settled | settling
  · have counts : (decide (s.timeline.settle ≤ 1) && s.timeline.roll.filtered) = s.timeline.counting := by
      rw [counting, settled]
      simp
    rw [counts, show s.timeline.settle - 1 = s.timeline.settle by omega]
    cases roll_state : s.timeline.roll.filtered with
    | false =>
      rw [advance_stopped (s := s.linesSampled v) settled (rolling.trans roll_state), if_neg (by simp)]
      rfl
    | true =>
      rw [advance_rolling (s := s.linesSampled v) settled (rolling.trans roll_state) (within settled roll_state),
        if_pos ⟨settled, rfl⟩]
      rfl
  · have counted := advance_settle (s := s.linesSampled v) settling
    have still : s.timeline.counting = false := by
      rw [counting]
      simp
      omega
    have last : (s.timeline.roll.filtered && s.timeline.settle == 1) = false := by
      rw [← Bool.not_eq_true, Bool.and_eq_true, beq_iff_eq]
      tauto
    have counts : (decide (s.timeline.settle ≤ 1) && s.timeline.roll.filtered) = s.timeline.counting := by
      rw [still, ← Bool.not_eq_true, Bool.and_eq_true, decide_eq_true_iff]
      exact fun ⟨few, on⟩ => goes_on ⟨by omega, on⟩
    rw [rolling] at counted
    have same : (s.timeline.roll.filtered && (s.linesSampled v).timeline.settle == 1) =
      (s.linesSampled v).timeline.counting := last.trans still.symm
    rw [Counted, if_pos same] at counted
    rw [counted, counts, if_neg (by omega)]
    rfl

include rev punch

/-- The last period of a settle with ROLL active: counting rises (R103, R134). -/
theorem period_settled (last : s.timeline.settle = 1) (rolling : s.timeline.roll.filtered = true)
    (counting : s.timeline.counting = (s.timeline.roll.filtered && s.timeline.settle == 0)) :
    (timelinePeriod v s).timeline = { (s.linesSampled v).timeline with settle := 0, counting := true } ∧
      (timelinePeriod v s).playback = s.playback ∧ TimelineFrame 0x300#12 s (timelinePeriod v s) ∧
      Risen s (timelinePeriod v s) := by
  have settling : 0 < (s.linesSampled v).timeline.settle := by
    have : (s.linesSampled v).timeline.settle = 1 := last
    omega
  have counted := advance_settle settling
  have ends : ((s.linesSampled v).timeline.roll.filtered && (s.linesSampled v).timeline.settle == 1) = true := by
    rw [sampled_roll roll, rolling, show (s.linesSampled v).timeline.settle = 1 from last]
    rfl
  have still : s.timeline.counting = false := by
    rw [counting, last]
    simp
  rw [period_steady roll rev punch]
  rw [ends, Counted, if_neg (by rw [show (s.linesSampled v).timeline.counting = false from still]; simp)] at counted
  obtain ⟨timeline, playback, frame, risen⟩ := counted
  rw [if_pos rfl] at risen
  refine ⟨?_, playback, (timelineFrame_linesSampled v s).trans ((timelineFrame_placed _ _).trans frame),
    Risen.quiet (Quiet.trans (quiet_linesSampled v s) (quiet_placed rfl)) (.refl _) rfl risen⟩
  rw [timeline, show (s.linesSampled v).timeline.settle = 1 from last]

end Steady

/-- Settles O51. -/
theorem steadyPeriodFiltersSettlesAndCounts : Obligations.SteadyPeriodFiltersSettlesAndCounts := by
  intro v s roll rev punch within counting
  refine ⟨timelinePeriod v s, exec_timelineSamplePeriod_arm v s, fun l => ?_, ?_⟩
  · rw [linesStepped_period v s l]
    cases l with
    | roll => exact stepped_eq_of_steady roll
    | rev => exact stepped_eq_of_steady rev
    | punch => exact stepped_eq_of_steady punch
  · by_cases ends : s.timeline.settle = 1 ∧ s.timeline.roll.filtered = true
    · have ⟨last, rolling⟩ := ends
      obtain ⟨timeline, playback, frame, risen⟩ := period_settled roll rev punch last rolling counting
      refine ⟨?_, frame, playback, fun goes_on => absurd ends goes_on, fun _ _ => risen, exec_settleEnd rev⟩
      have placed := lines_apart timeline
      rw [last, rolling, if_neg (by simp)]
      exact placed
    · have period := (period_steady roll rev punch).trans (advance_within roll within counting ends)
      rw [period]
      refine ⟨lines_apart rfl, timelineFrame_placed _ s, rfl, fun _ => ⟨rfl, rfl, rfl, rfl⟩,
        fun last rolling => absurd ⟨last, rolling⟩ ends, fun last => ?_⟩
      rw [← period]
      exact exec_settleEnd rev last

end Sys2Proof.Machine

/-!
PROOFS. A sample period that reaches a frame boundary (R99, R100, R118 to R120).
-/
namespace Sys2Proof.Machine

section Boundary
variable {v : LineLevels} {s : State} (roll : s.timeline.roll.changes v.roll = false)
  (rev : s.timeline.rev.changes v.rev = false) (punch : s.timeline.punch.changes v.punch = false)
  (settled : s.timeline.settle = 0) (rolling : s.timeline.roll.filtered = true)
  (reached : framePeriods s.audio.rate s.timeline.rate ≤ s.timeline.phase + 1)
include roll rev punch settled rolling reached

theorem period_boundary : timelinePeriod v s = boundary (s.linesSampled v) := by
  rw [period_steady roll rev punch]
  exact advance_boundary settled ((sampled_roll roll).trans rolling) reached

theorem period_moved (ahead : s.cuesAhead) (range : s.timeline.counter ≤ 16777215) (moves : s.timeline.wraps = false) :
    BoundaryMoved s.frameOn (s.linesSampled v) (timelinePeriod v s) := by
  rw [period_boundary roll rev punch settled rolling reached]
  exact boundaryMoved_boundary (s := s.linesSampled v) ahead range moves

theorem period_wrapped (wraps : s.timeline.wraps = true) :
    Located s.timeline.loopStart .loop 0x800#12 (s.linesSampled v) (timelinePeriod v s) ∧
      ∀ q, raisedWhen 11 q True s (timelinePeriod v s) := by
  rw [period_boundary roll rev punch settled rolling reached]
  exact located_wrap (s := s.linesSampled v) wraps

end Boundary

/-- Settles O52. -/
theorem boundaryMovesTheFrameOrWrapsTheLoop : Obligations.BoundaryMovesTheFrameOrWrapsTheLoop := by
  rintro v _ s roll rev punch settled rolling counting reached ahead rfl range
  refine ⟨timelinePeriod v s, exec_timelineSamplePeriod_arm v s, exec_frameBoundary rev roll settled rolling reached,
    linesStepped_period v s, fun moves => ?_, fun reverse looped end_reached => ?_⟩
  · have still : s.timeline.wraps = false := by rw [← Bool.not_eq_true]; exact mt wraps_iff.mp moves
    obtain ⟨timeline, playback, frame, writing, low, strips, untouched, once, ramps⟩ :=
      period_moved roll rev punch settled rolling reached ahead range still
    refine ⟨lines_apart timeline, playback, (timelineFrame_linesSampled v s).trans frame, strips, untouched,
      fun m one => ramped_quiet (quiet_linesSampled v s) (.refl _) (once m one),
      fun m c => cellRamped_quiet (quiet_linesSampled v s) (.refl _) (ramps m c), writing, fun q => ?_⟩
    refine (pendingSet_raised (b := 7) (by decide) (frame.2.2.2.2.2.2 q).1 (low q)).trans (if_congr ?_ rfl rfl)
    exact ⟨fun ⟨⟨port, enough, few⟩, on⟩ => ⟨port, on, enough, few⟩, fun ⟨port, on, enough, few⟩ => ⟨⟨port, enough, few⟩, on⟩⟩
  · obtain ⟨⟨timeline, playback, frame, stream, fallen⟩, loop⟩ :=
      period_wrapped roll rev punch settled rolling reached (wraps_iff.mpr ⟨reverse, looped, end_reached⟩)
    rw [if_pos (show (s.linesSampled v).timeline.counting = true from counting)] at fallen
    refine ⟨lines_apart timeline, playback, Fallen.quiet (quiet_linesSampled v s) (.refl _) fallen,
      ((timelineFrame_linesSampled v s).trans frame).mono (by decide), fun q => ⟨loop q, stream q⟩⟩

end Sys2Proof.Machine

/-!
PROOFS. A sample period at which a line changes: counting, direction and triggers follow it (R95, R97, R98, R104).
-/
namespace Sys2Proof.Machine

/-! ### ROLL (R97, R134) -/

section Roll
variable {v : LineLevels} {s : State} (roll : s.timeline.roll.changes v.roll = true)
  (rev : s.timeline.rev.changes v.rev = false) (punch : s.timeline.punch.changes v.punch = false)
include roll

theorem sampled_rolled : (s.linesSampled v).timeline.roll.filtered = !s.timeline.roll.filtered := stepped_change roll

include rev punch

theorem period_roll : timelinePeriod v s = advanceTimeline (recount .rollStop (s.linesSampled v)) := by
  rw [timelinePeriod_eq, linesSampled_eq, punchStage, punch, advanceStage, rev, rollStage, roll, turnStage, rev]
  rfl

/-- ROLL becomes inactive: counting falls, and the timeline stops. -/
theorem period_rollStops (was : s.timeline.roll.filtered = true) (settled : s.timeline.settle = 0)
    (counting : s.timeline.counting = true) :
    (timelinePeriod v s).timeline = { (s.linesSampled v).timeline with counting := false } ∧
      (timelinePeriod v s).playback = s.playback ∧ Fallen s.timeline.counter .rollStop s (timelinePeriod v s) ∧
      TimelineFrame 0x300#12 s (timelinePeriod v s) := by
  have counted := counted_recount .rollStop (s.linesSampled v)
  have rolled := sampled_rolled roll
  rw [was] at rolled
  rw [rolled, Bool.not_true, Bool.false_and, Counted,
    show (s.linesSampled v).timeline.counting = true from counting, if_neg Bool.false_ne_true,
    if_neg Bool.false_ne_true] at counted
  obtain ⟨timeline, playback, frame, fallen⟩ := counted
  have stops : timelinePeriod v s = recount .rollStop (s.linesSampled v) := by
    rw [period_roll roll rev punch]
    refine advance_stopped ?_ ?_
    · rw [timeline]
      exact settled
    · rw [timeline]
      exact rolled
  rw [stops]
  exact ⟨timeline, playback, fallen.quiet (quiet_linesSampled v s) (.refl _),
    (timelineFrame_linesSampled v s).trans frame⟩

/-- ROLL becomes active: counting rises, and the phase counts up within its frame. -/
theorem period_rollStarts (was : s.timeline.roll.filtered = false) (settled : s.timeline.settle = 0)
    (counting : s.timeline.counting = false)
    (within : s.timeline.phase + 1 < framePeriods s.audio.rate s.timeline.rate) :
    (timelinePeriod v s).timeline =
        { (s.linesSampled v).timeline with counting := true, phase := s.timeline.phase + 1 } ∧
      (timelinePeriod v s).playback = s.playback ∧ Risen s (timelinePeriod v s) ∧
      TimelineFrame 0x300#12 s (timelinePeriod v s) := by
  have counted := counted_recount .rollStop (s.linesSampled v)
  have rolled := sampled_rolled roll
  rw [was] at rolled
  have now : ((s.linesSampled v).timeline.roll.filtered && (s.linesSampled v).timeline.settle == 0) = true := by
    rw [rolled, show (s.linesSampled v).timeline.settle = 0 from settled]
    rfl
  rw [now, Counted, show (s.linesSampled v).timeline.counting = false from counting, if_neg (by simp), if_pos rfl] at counted
  obtain ⟨timeline, playback, frame, risen⟩ := counted
  have rolls : timelinePeriod v s =
      { recount .rollStop (s.linesSampled v) with
        timeline := { (s.linesSampled v).timeline with counting := true, phase := s.timeline.phase + 1 } } := by
    have advanced : advanceTimeline (recount .rollStop (s.linesSampled v)) =
        { recount .rollStop (s.linesSampled v) with
          timeline := { (recount .rollStop (s.linesSampled v)).timeline with
            phase := (recount .rollStop (s.linesSampled v)).timeline.phase + 1 } } := by
      apply advance_rolling <;> rw [timeline]
      · exact settled
      · exact rolled
      · rw [frame.2.1]
        exact within
    rw [period_roll roll rev punch, advanced, timeline]
    rfl
  have line : (recount .rollStop (s.linesSampled v)).timeline.punch.filtered = s.timeline.punch.filtered := by
    rw [timeline]
    rfl
  rw [rolls]
  exact ⟨rfl, playback, risen.quiet (quiet_linesSampled v s) (quiet_placed line.symm) rfl,
    ((timelineFrame_linesSampled v s).trans frame).trans (timelineFrame_placed _ _)⟩

end Roll

/-! ### REV (R104) -/

section Located
variable {frame : Nat} {reason : PunchReason} {also : BitVec 12} {s t : State} (h : Located frame reason also s t)
include h

/-- A locate of a timeline that counts ends the punches. -/
theorem located_counting (counting : s.timeline.counting = true) : Fallen frame reason s t := by
  obtain ⟨-, -, -, -, punches⟩ := h
  rwa [if_pos counting] at punches

theorem located_still (still : s.timeline.counting = false) :
    t.strips = s.strips ∧ t.writing = s.writing ∧ t.engine = s.engine ∧ TimelineFrame (0x040#12 ||| also) s t := by
  obtain ⟨-, -, -, -, punches⟩ := h
  rwa [if_neg (by rw [still]; exact Bool.false_ne_true)] at punches

end Located

theorem period_turns {v : LineLevels} {s : State} (rev : s.timeline.rev.changes v.rev = true)
    (roll : s.timeline.roll.changes v.roll = false) (punch : s.timeline.punch.changes v.punch = false) :
    timelinePeriod v s = turn (s.linesSampled v) := by
  rw [timelinePeriod_eq, linesSampled_eq, punchStage, punch, advanceStage, rev, rollStage, roll, turnStage, rev]
  rfl

/-! ### PUNCH (R95, R127) -/

section Punch
variable {v : LineLevels} {s : State}

theorem period_punch (punch : s.timeline.punch.changes v.punch = true) (roll : s.timeline.roll.changes v.roll = false)
    (rev : s.timeline.rev.changes v.rev = false) :
    timelinePeriod v s = handPunch (!s.timeline.punch.filtered) (advanceTimeline (s.linesSampled v)) := by
  have filtered := sample_filtered_of_change punch
  rw [timelinePeriod_eq, linesSampled_eq, punchStage, punch, advanceStage, rev, rollStage, roll, turnStage, rev, filtered]
  rfl

/-- What a change of filtered PUNCH does counts from the state before, whatever else of the timeline moved. -/
theorem pressed_placed {tl : Timeline} {t : State} (line : tl.punch.filtered = s.timeline.punch.filtered)
    (h : Pressed { s with timeline := tl } t) : Pressed s t := by
  obtain ⟨strips, queued, ramped⟩ := h
  have quiet : Quiet s { s with timeline := tl } := quiet_placed line
  have before (m : StripNo) : ({ s with timeline := tl } : State).pressing m ↔ s.pressing m := by
    rw [State.pressing, State.pressing, State.linePunched, State.linePunched, line]
    rfl
  refine ⟨fun m => (strips m).trans (turned_congr rfl rfl rfl rfl (before m)), ?_,
    fun m => ramped_quiet quiet (.refl t) (ramped m)⟩
  have records : ((List.finRange 160).flatMap fun m => ({ s with timeline := t.timeline } : State).turnRecords
      { s with timeline := tl } m) =
      (List.finRange 160).flatMap fun m => ({ s with timeline := t.timeline } : State).turnRecords s m :=
    List.flatMap_congr fun m _ => turnRecords_congr rfl rfl rfl rfl (before m)
  have queued := queued_quiet quiet (.refl t) queued
  exact records ▸ queued

theorem cells_of_ramped_same {s t : State} {m : StripNo} (ramped : Ramped m s t) (used : t.used m = s.used m) :
    t.cells m = s.cells m :=
  Vector.ext fun i hi => (ramped ⟨i, hi⟩).trans (rampedCell_same used ..)

section Pressed
variable {t : State} {m : StripNo} (pressed : Pressed s t)
include pressed

/-- A change of filtered PUNCH moves no strip whose trigger it is not. -/
theorem pressed_unmoved (playback : t.playback = s.playback)
    (apart : ¬(s.armed m = true ∧ (s.strip m).mode.triggered ∧ (s.strip m).linePunch = true ∧ (s.strip m).toucher = none)) :
    t.strip m = s.strip m ∧ t.cells m = s.cells m := by
  obtain ⟨strips, -, ramped⟩ := pressed
  have rises : ¬({ s with timeline := t.timeline } : State).triggerRises s m := fun ⟨armed, mode, was, now⟩ =>
    apart ⟨armed, mode, (now.resolve_left fun touched => was (.inl touched)).1,
      not_ne_iff.mp fun touched => was (.inl touched)⟩
  have falls : ¬({ s with timeline := t.timeline } : State).triggerFalls s m := fun ⟨armed, mode, was, now⟩ =>
    apart ⟨armed, mode, (was.resolve_left fun touched => now (.inl touched)).1,
      not_ne_iff.mp fun touched => now (.inl touched)⟩
  have strip : t.strip m = s.strip m := (strips m).trans (turned_still rises falls)
  exact ⟨strip, cells_of_ramped_same (ramped m) (used_congr strip (by rw [playback]))⟩

/-- A change of filtered PUNCH moves the write state of a strip whose trigger it is (R132, R133). -/
theorem pressed_writeState (line : t.timeline.punch.filtered = !s.timeline.punch.filtered)
    (counting : t.timeline.counting = s.timeline.counting) (armed : s.armed m = true) (mode : (s.strip m).mode.triggered)
    (linePunch : (s.strip m).linePunch = true) (untouched : (s.strip m).toucher = none) :
    (t.strip m).writeState =
      if s.timeline.punch.filtered then afterFall (s.strip m).mode (s.strip m).writeState
      else afterRise s.timeline.counting (s.strip m).writeState := by
  rw [pressed.1 m]
  have was : s.pressing m ↔ s.timeline.punch.filtered = true := by
    simp [State.pressing, State.linePunched, linePunch, untouched]
  have now : ({ s with timeline := t.timeline } : State).pressing m ↔ t.timeline.punch.filtered = true := by
    unfold State.pressing State.linePunched
    constructor
    · rintro (touched | ⟨-, on⟩)
      · exact absurd untouched touched
      · exact on
    · exact fun on => .inr ⟨linePunch, on⟩
  cases filtered : s.timeline.punch.filtered with
  | true =>
    rw [filtered] at line
    have falls : ({ s with timeline := t.timeline } : State).triggerFalls s m :=
      ⟨armed, mode, was.mpr filtered, by rw [now, line]; simp⟩
    rw [turned_fall falls, if_pos rfl]
    rfl
  | false =>
    rw [filtered] at line
    have rises : ({ s with timeline := t.timeline } : State).triggerRises s m :=
      ⟨armed, mode, by rw [was, filtered]; simp, now.mpr line⟩
    rw [turned_rise rises, if_neg Bool.false_ne_true, ← counting]
    split
    · next punches =>
      obtain ⟨ready, counts⟩ := punches
      have ready : (s.strip m).writeState = .ready := ready
      have counts : t.timeline.counting = true := counts
      rw [ready, counts]
      rfl
    · rfl

end Pressed

end Punch

/-- Settles O53. -/
theorem lineChangeReachesCountingDirectionOrTriggers : Obligations.LineChangeReachesCountingDirectionOrTriggers := by
  intro v s counting
  have stepped := linesStepped_period v s
  refine ⟨fun roll rev punch was settled => ?_, fun roll rev punch was settled within => ?_, fun rev roll punch => ?_,
    fun punch roll rev elsewhere => ?_, fun ahead range => ?_⟩
  · have counts : s.timeline.counting = true := by rw [counting, was, settled]; rfl
    obtain ⟨timeline, playback, fallen, frame⟩ := period_rollStops roll rev punch was settled counts
    refine ⟨timelinePeriod v s, exec_lineChange (l := .roll) roll, exec_timelineSamplePeriod_arm v s, stepped, ?_,
      lines_apart timeline, playback, fallen, frame⟩
    have rolled := sampled_rolled roll
    rw [was] at rolled
    rw [timeline]
    exact rolled
  · have still : s.timeline.counting = false := by rw [counting, was]; rfl
    obtain ⟨timeline, playback, risen, frame⟩ := period_rollStarts roll rev punch was settled still within
    refine ⟨timelinePeriod v s, exec_lineChange (l := .roll) roll, exec_timelineSamplePeriod_arm v s, stepped, ?_,
      lines_apart timeline, playback, risen, frame⟩
    have rolled := sampled_rolled roll
    rw [was] at rolled
    rw [timeline]
    exact rolled
  · have located := located_turn rev
    rw [← period_turns rev roll punch] at located
    have fallen := located_counting located
    have still := located_still located
    obtain ⟨timeline, playback, frame, stream, -⟩ := located
    have quiet : Quiet s { s.linesSampled v with
        timeline := { (s.linesSampled v).timeline with reverse := !s.timeline.rev.filtered } } := quiet_placed rfl
    refine ⟨timelinePeriod v s, exec_lineChange (l := .rev) rev, exec_timelineSamplePeriod_arm v s, stepped, ?_,
      lines_apart timeline, playback, (timelineFrame_placed _ s).trans frame,
      fun counts => Fallen.quiet quiet (.refl _) (fallen counts), fun stopped => ?_, stream⟩
    · rw [timeline]
      exact stepped_change rev
    · obtain ⟨strips, writing, engine, frame⟩ := still stopped
      exact ⟨strips, writing, engine, (timelineFrame_placed _ s).trans frame⟩
  · have goes_on : ¬(s.timeline.settle = 1 ∧ s.timeline.roll.filtered = true) := by omega
    have advanced := advance_within roll (fun settled _ => (elsewhere.resolve_left (by omega)).2) counting goes_on
    have counts : (decide (s.timeline.settle ≤ 1) && s.timeline.roll.filtered) = s.timeline.counting := by
      rw [counting]
      rcases elsewhere with settling | ⟨settled, -⟩
      · simp [show ¬s.timeline.settle ≤ 1 by omega, show s.timeline.settle ≠ 0 by omega]
      · simp [settled]
    have period := period_punch punch roll rev
    rw [advanced, counts] at period
    obtain ⟨timeline, playback, pressed, frame⟩ := pressed_handPunch (!s.timeline.punch.filtered)
      { s with timeline := { (s.linesSampled v).timeline with
        settle := s.timeline.settle - 1,
        phase := if s.timeline.settle = 0 ∧ s.timeline.roll.filtered = true then s.timeline.phase + 1
          else s.timeline.phase,
        counting := s.timeline.counting } }
    rw [← period] at timeline playback pressed frame
    have line : (timelinePeriod v s).timeline.punch.filtered = !s.timeline.punch.filtered := by rw [timeline]
    have counting_kept : (timelinePeriod v s).timeline.counting = s.timeline.counting := by rw [timeline]
    have pressed := pressed_placed rfl pressed
    refine ⟨timelinePeriod v s, exec_lineChange (l := .punch) punch, exec_timelineSamplePeriod_arm v s, stepped, line, ?_,
      playback, pressed, (timelineFrame_placed _ s).trans frame, fun m => ⟨pressed_unmoved pressed playback,
        pressed_writeState pressed line counting_kept⟩⟩
    rw [timeline]
    rfl
  · obtain ⟨a, b, c, stages⟩ := periodStages_period (v := v) counting ahead range
    exact ⟨a, b, c, timelinePeriod v s, exec_timelineSamplePeriod_arm v s, fun l changes => exec_lineChange changes, stages⟩

end Sys2Proof.Machine

/-!
PROOFS. OPEN-PASS and CLOSE-PASS (R109 to R112, R129, R130).
-/
namespace Sys2Proof.Machine

/-! ### The hand-off of every strip -/

theorem OnlyAt.handRetargetOf (before : State) (n : StripNo) (s : State) : OnlyAt n s (Machine.handRetarget before n s) :=
  .handRetarget before n s

theorem cells_handEvery {before s : State} (length : s.engine.rampLength = before.engine.rampLength) (m : StripNo)
    (c : Channel) : ((handEvery before s).cells m)[c] = rampedCell before s m c (s.cells m)[c] := by
  obtain ⟨t, only, strip, cells, -, now⟩ := eachStrip_turn (fun n t => OnlyAt.handRetarget before n t) m s
  have same : t.engine.rampLength = before.engine.rampLength := only.rampLength.trans length
  rw [handEvery, now, cells_handRetarget same, cells]
  exact rampedCell_congr rfl rfl (only.used strip) (only.target strip c) _

/-- Every strip whose used values differ takes a retarget (R110, R111). -/
theorem ramped_handEvery {before s : State} (length : s.engine.rampLength = before.engine.rampLength) {m : StripNo}
    (cells : s.cells m = before.cells m) : Ramped m before (handEvery before s) := fun c => by
  have only := handEvery_onlyCells before s
  rw [cells_handEvery length, cells]
  exact (rampedCell_congr rfl rfl (only.used m) (only.target m c) _).symm

/-! ### OPEN-PASS -/

section Open
variable {p : PortId} {low high : Nat} {s : State}

/-- A strip record after the opening of the pass: a strip whose mode writes is armed afresh (R110, R129). -/
def State.opened (s : State) (m : StripNo) : Strip :=
  { s.strip m with
    writeState :=
      if (s.strip m).mode = .live ∨ (s.strip m).mode = .playback then (s.strip m).writeState
      else if (s.strip m).mode = .write then (if s.timeline.counting then .wait else .ready)
      else if (s.strip m).toucher ≠ none ∨ s.linePunched m then .wait else .ready }

theorem armedState_eq {t : State} {m : StripNo} (armed : t.armed m = true) :
    t.armedState m = if (t.strip m).mode = .write then (if t.timeline.counting then .wait else .ready)
      else if (t.strip m).toucher ≠ none ∨ t.linePunched m then .wait else .ready := by
  unfold State.armedState
  by_cases write : (t.strip m).mode = .write
  · rw [if_pos write]
    exact if_congr (by simp [State.trigger, write]) rfl rfl
  · rw [if_neg write]
    exact if_congr (trigger_iff (triggered_of_writes (armed_mode armed) write)) rfl rfl

theorem strip_armStrip {t : State} {m : StripNo} (isOpen : t.playback.passOpen = true) :
    (armStrip m t).strip m = t.opened m := by
  unfold armStrip State.opened
  cases armed : t.armed m with
  | true =>
    have writes := armed_mode armed
    have idle : ¬((t.strip m).mode = .live ∨ (t.strip m).mode = .playback) := by
      rintro (h | h) <;> rw [h] at writes <;> cases writes
    rw [if_pos rfl, if_neg idle, strip_setWriteState, armedState_eq armed]
  | false =>
    have idle : (t.strip m).mode = .live ∨ (t.strip m).mode = .playback := by
      rw [State.armed, isOpen, Bool.true_and] at armed
      cases mode : (t.strip m).mode <;> simp_all [Mode.writes]
    rw [if_neg Bool.false_ne_true, if_pos idle]

theorem cells_armStrip (m : StripNo) (t : State) : (armStrip m t).cells m = t.cells m := by
  unfold armStrip
  split
  · rfl
  · rfl

theorem ports_eachStrip_armStrip (t : State) : (eachStrip armStrip t).ports = t.ports :=
  eachStrip_keeps (P := fun u => u.ports = t.ports) (fun n u hu => by
    rw [← hu]
    unfold armStrip
    split <;> rfl) rfl

theorem opened_congr {t : State} {m : StripNo} (strip : t.strip m = s.strip m) (timeline : t.timeline = s.timeline) :
    t.opened m = s.opened m := by
  unfold State.opened State.linePunched
  rw [strip, timeline]

theorem strip_openPassBy (m : StripNo) : (openPassBy p low high s).strip m = s.opened m := by
  obtain ⟨t, only, strip, -, now, -⟩ := eachStrip_turn (fun n t => OnlyAt.armStrip n t) m (passOpened p low high s)
  have isOpen : t.playback.passOpen = true := by rw [only.playback]; rfl
  rw [openPassBy_eq, (handEvery_onlyCells s _).strip, now, strip_armStrip isOpen]
  exact opened_congr strip only.timeline

theorem ramped_openPassBy (m : StripNo) : Ramped m s (openPassBy p low high s) := by
  obtain ⟨t, only, -, cells, -, now⟩ := eachStrip_turn (fun n t => OnlyAt.armStrip n t) m (passOpened p low high s)
  rw [openPassBy_eq]
  refine ramped_handEvery ?_ ?_
  · exact (eachStrip_armStrip_onlyStrips _).rampLength
  · rw [now, cells_armStrip, cells]
    rfl

theorem openPassBy_blocks : openPassBy p low high s = { s with
    strips := (openPassBy p low high s).strips,
    engine := { s.engine with stripCells := (openPassBy p low high s).engine.stripCells },
    playback := (openPassBy p low high s).playback, writing := (openPassBy p low high s).writing } := by
  have only := openPassBy_onlyPass p low high s
  have ports : (openPassBy p low high s).ports = s.ports := by
    rw [openPassBy_eq, (handEvery_onlyCells s _).ports, ports_eachStrip_armStrip]
    rfl
  generalize openPassBy p low high s = t at *
  obtain ⟨engine, -, busTable, timeline, audio, pending⟩ := only
  cases t
  simp only at *
  subst ports busTable timeline audio pending
  rw [← engine]

theorem openPassBy_passOpened :
    (openPassBy p low high s).playback = { s.playback with
      passOpen := true, passPort := some p, lowMark := min low 1024, highMark := min high 1024, stale := 0 } :=
  (openPassBy_frame p low high s).playback

end Open

section Requests
variable {p : PortId} {low high : BitVec 16} {s : State}

theorem exec_openPass_arm (p : PortId) (low high : BitVec 16) (s : State) :
    exec (.openPass p low high) s = execOpenPass p low high s := rfl

theorem exec_closePass_arm (p : PortId) (s : State) : exec (.closePass p) s = execClosePass p s := rfl

theorem exec_openPass_refused {st : Status} (h : (s.port p).takes = true) (failure : openPassFailure s = some st) :
    exec (.openPass p low high) s = .next (s.leaves p (reply 0x40 st [])) := by
  rw [exec_openPass_arm, execOpenPass]
  refine request_leaves h rfl ?_
  have same : openPassFailure (s.modPort p PortState.transacted) = openPassFailure s := rfl
  rw [same, failure]

theorem openPassFailure_open (isOpen : s.playback.passOpen = true) : openPassFailure s = some .busy := by
  rw [openPassFailure, isOpen]
  rfl

theorem openPassFailure_undrained (shut : s.playback.passOpen = false) (some_takes : s.writing.takes ≠ []) :
    openPassFailure s = some .undrained := by
  have isEmpty : s.writing.takes.isEmpty = false := by simpa using some_takes
  rw [openPassFailure, shut, isEmpty]
  rfl

theorem openPassFailure_passes (shut : s.playback.passOpen = false) (empty : s.writing.takes = []) :
    openPassFailure s = none := by
  rw [openPassFailure, shut, empty]
  rfl

theorem exec_openPass_ok (h : (s.port p).takes = true) (passes : openPassFailure s = none) :
    exec (.openPass p low high) s =
      .next (({ openPassBy p low.toNat high.toNat (s.modPort p PortState.transacted) with ports := s.ports } :
        State).leaves p (reply 0x40 .ok
          (bytes2 (BitVec.ofNat 16 (min low.toNat 1024)) ++ bytes2 (BitVec.ofNat 16 (min high.toNat 1024))))) := by
  rw [exec_openPass_arm, execOpenPass]
  refine request_leaves_answered h ?_ ?_
  · rw [openPassBy_blocks]
  · have same : openPassFailure (s.modPort p PortState.transacted) = none := passes
    have opened := openPassBy_passOpened (p := p) (low := low.toNat) (high := high.toNat)
      (s := s.modPort p PortState.transacted)
    rw [same]
    generalize openPassBy p low.toNat high.toNat (s.modPort p PortState.transacted) = v at *
    have marks : w2 v.playback.lowMark ++ w2 v.playback.highMark =
        bytes2 (BitVec.ofNat 16 (min low.toNat 1024)) ++ bytes2 (BitVec.ofNat 16 (min high.toNat 1024)) := by
      rw [opened]
      rfl
    exact congrArg (fun l => answer p 0x40 .ok l v) marks

end Requests

/-! ### CLOSE-PASS -/

section Close
variable {p : PortId} {s : State}

/-- A strip record after the close of the pass: an armed strip goes OFF, and a TRIM strip's punch returns its trim
(R111, R130, R139). -/
def State.shut (s : State) (m : StripNo) : Strip :=
  if s.armed m then
    { s.strip m with
      writeState := .off,
      trim := if (s.strip m).mode = .trim ∧ (s.strip m).writeState.punched = true then 16384 else (s.strip m).trim }
  else s.strip m

theorem strip_disarmStrip (m : StripNo) (t : State) : (disarmStrip m t).strip m = t.shut m := by
  unfold disarmStrip State.shut
  cases t.armed m with
  | false => rfl
  | true =>
    rw [if_pos rfl, if_pos rfl]
    by_cases punched : (t.strip m).writeState.punched = true
    · rw [if_pos punched, strip_endPunch]
      simp only [punched, and_true]
    · rw [if_neg punched, strip_setWriteState, if_neg fun h => punched h.2]

theorem cells_disarmStrip (m : StripNo) (t : State) : (disarmStrip m t).cells m = t.cells m := by
  unfold disarmStrip
  split
  · split
    · exact cells_endPunch ..
    · rfl
  · rfl

theorem handedOn_disarmStrip (q : PortId) (m : StripNo) (t : State) :
    HandedOn q (fun _ => false)
      (if t.armed m && (t.strip m).writeState.punched then [.punchOut t.timeline.counter m .passClose] else []) t
      (disarmStrip m t) := by
  unfold disarmStrip
  cases t.armed m with
  | false => exact handedOn_nothing (fun _ => rfl) rfl rfl
  | true =>
    rw [if_pos rfl]
    cases (t.strip m).writeState.punched with
    | true => exact handedOn_endPunch ..
    | false => exact handedOn_nothing (fun _ => rfl) rfl rfl

theorem shut_congr {t : State} {m : StripNo} (strip : t.strip m = s.strip m)
    (passOpen : t.playback.passOpen = s.playback.passOpen) : t.shut m = s.shut m := by
  have armed : t.armed m = s.armed m := by simp only [State.armed, strip, passOpen]
  unfold State.shut
  rw [armed, strip]

/-- Every punch ends with PASS-CLOSE, in strip number order (R111, R135). -/
theorem handedOn_disarmed (q : PortId) (s : State) :
    HandedOn q (fun _ => false) (s.punchOuts s.timeline.counter .passClose) (s.withCues []) (disarmed s) := by
  have walk := handedOn_eachStrip (s := s.withCues []) (f := disarmStrip)
    (rs := fun n => if s.armed n && (s.strip n).writeState.punched then
      [.punchOut s.timeline.counter n .passClose] else []) (fun n t => .disarmStrip n t) (fun n t only strip q => by
        have turn := handedOn_disarmStrip q n t
        rw [only.armed strip, strip, only.timeline] at turn
        exact turn) q
  rw [flatMap_singletons] at walk
  exact walk

theorem strip_disarmed (m : StripNo) : (disarmed s).strip m = s.shut m := by
  obtain ⟨t, only, strip, -, now, -⟩ := eachStrip_turn (fun n t => OnlyAt.disarmStrip n t) m (s.withCues [])
  rw [disarmed, now, strip_disarmStrip]
  exact shut_congr strip (by rw [only.playback]; rfl)

theorem cells_disarmed (m : StripNo) : (disarmed s).cells m = s.cells m := by
  obtain ⟨t, -, -, cells, -, now⟩ := eachStrip_turn (fun n t => OnlyAt.disarmStrip n t) m (s.withCues [])
  rw [disarmed, now, cells_disarmStrip, cells]
  rfl

theorem strip_closePassNow (m : StripNo) : (closePassNow s).strip m = s.shut m := by
  rw [(closePassNow_onlyCells s).strip, passClosed_strip, strip_disarmed]

theorem passClosed_engine (s : State) : (passClosed s).engine = s.engine := rfl

theorem ramped_closePassNow (m : StripNo) : Ramped m s (closePassNow s) := by
  have cells := cells_disarmed (s := s) m
  have length := (disarmed_frame s).rampLength
  have engine := passClosed_engine (disarmed s)
  rw [closePassNow_disarmed]
  refine ramped_handEvery ?_ ?_
  · rw [engine, length]
    rfl
  · rw [State.cells, engine]
    exact cells

theorem passClosed_port (s : State) (q : PortId) : (passClosed s).port q = s.port q := rfl

theorem port_closePassNow (q : PortId) : (closePassNow s).port q = (disarmed s).port q :=
  ((closePassNow_onlyCells s).port q).trans (passClosed_port _ q)

theorem writing_closePassNow (s : State) :
    (closePassNow s).writing = (s.writing.afterRecords (s.punchOuts s.timeline.counter .passClose)).settled := by
  rw [(closePassNow_onlyCells s).writing, passClosed_writing, (handedOn_disarmed 0 s).queued.1]
  rfl

theorem settled_after (w : Writing) (rs : List TakeRecord) :
    (w.afterRecords rs).settled =
      { w.afterRecords rs with takePort := if w.takes ++ rs = [] then none else w.takePort } := by
  have takes : (w.afterRecords rs).takes = w.takes ++ rs.take (1024 - w.takes.length) := rfl
  have empty : (w.afterRecords rs).takes.isEmpty = true ↔ w.takes ++ rs = [] := by
    rw [takes, List.isEmpty_iff, List.append_eq_nil_iff, List.append_eq_nil_iff, List.take_eq_nil_iff]
    constructor
    · rintro ⟨old, full | new⟩
      · rw [old] at full
        cases full
      · exact ⟨old, new⟩
    · exact fun ⟨old, new⟩ => ⟨old, .inr new⟩
  unfold Writing.settled
  by_cases drained : w.takes ++ rs = []
  · rw [if_pos (empty.mpr drained), if_pos drained]
  · rw [if_neg (mt empty.mp drained), if_neg drained]
    rfl

theorem exec_closePass_refused (h : (s.port p).takes = true) (other : s.playback.passPort ≠ some p) :
    exec (.closePass p) s = .next (s.leaves p (reply 0x41 .notPass [])) := by
  rw [exec_closePass_arm, execClosePass]
  exact request_leaves h rfl (if_neg other)

theorem exec_closePass_ok (h : (s.port p).takes = true) (own : s.playback.passPort = some p) :
    exec (.closePass p) s =
      .next (concluded false p 0x41 .ok [] (closePassNow (s.modPort p PortState.transacted))) := by
  rw [exec_closePass_arm, execClosePass, request_taken h]
  exact congrArg _ (if_pos own)

/-- What HIGH and LOST read. -/
theorem takeReasons_signals {rs : List TakeRecord} {s s' t t' : State} (writing : s'.writing = s.writing)
    (mark : s'.playback.highMark = s.playback.highMark) (attached : ∀ q, (s'.port q).attached = (s.port q).attached)
    (before : ∀ q, (s'.port q).pendingSet = (s.port q).pendingSet)
    (after : ∀ q, (t'.port q).pendingSet = (t.port q).pendingSet) (h : TakeReasons rs s' t) : TakeReasons rs s t' :=
  fun q => by
    have at_q := h q
    simp only [raisedWhen, writing, mark, attached, before] at at_q
    simp only [raisedWhen, after]
    exact at_q

/-- What CLOSE-PASS by the pass port leaves. -/
theorem closePass_ok (h : (s.port p).takes = true) (own : s.playback.passPort = some p) :
    ∃ t, exec (.closePass p) s = .next t ∧
      t.playback = { s.playback with passOpen := false, passPort := none, cues := [] } ∧ (∀ m, t.strip m = s.shut m) ∧
      t.writing = { s.writing.afterRecords (s.punchOuts s.timeline.counter .passClose) with
        takePort := if s.writing.takes ++ s.punchOuts s.timeline.counter .passClose = [] then none
          else s.writing.takePort } ∧
      TakeReasons (s.punchOuts s.timeline.counter .passClose) s t ∧ (∀ q, pendingKept 0x300#12 q s t) ∧
      (∀ m, Ramped m s t) ∧ t.busTable = s.busTable ∧ t.timeline = s.timeline ∧ t.audio = s.audio ∧
      t.engine = { s.engine with stripCells := t.engine.stripCells } ∧ t.pending = s.pending ∧
      otherPortsRaised p s t ∧ ownPortKept p s t ∧ (t.port p).replySlot = reply 0x41 .ok [] := by
  have strips := strip_closePassNow (s := s.modPort p PortState.transacted)
  have ramped := ramped_closePassNow (s := s.modPort p PortState.transacted)
  have playback := closePassNow_playback (s.modPort p PortState.transacted)
  have writing := (writing_closePassNow (s.modPort p PortState.transacted)).trans (settled_after _ _)
  have handed (q : PortId) := handedOn_disarmed q (s.modPort p PortState.transacted)
  have port (q : PortId) := port_closePassNow (s := s.modPort p PortState.transacted) q
  have only := closePassNow_onlyPass (s.modPort p PortState.transacted)
  refine ⟨_, exec_closePass_ok h own, ?_⟩
  generalize closePassNow (s.modPort p PortState.transacted) = v at *
  have after := sameSignals_concluded false p 0x41 .ok [] v
  have ports (q : PortId) : pendingKept 0x300#12 q (s.modPort p PortState.transacted) v ∧
      v.port q = { (s.modPort p PortState.transacted).port q with pendingSet := (v.port q).pendingSet } := by
    rw [pendingKept, port]
    exact ⟨(handed q).kept_own, (handed q).own⟩
  obtain ⟨kept, others, own, replied⟩ := ports_concluded h ports 0x41 .ok []
  refine ⟨playback, strips, writing, fun q => ?_, kept, fun m => ?_, only.busTable, only.timeline, only.audio, only.engine,
    only.pending, others, own, replied⟩
  · have before := sameSignals_transacted h
    refine takeReasons_signals (s := s) (s' := (s.modPort p PortState.transacted).withCues []) rfl rfl before.attached before.pendingSet (fun q => ?_) (handed 0).queued.2 q
    rw [after.pendingSet, port]
  · exact ramped_quiet (quiet_transacted h) (quiet_concluded false p 0x41 .ok [] v) (ramped m)

end Close

/-- Settles O54. -/
theorem openAndClosePassArmAndDisarm : Obligations.OpenAndClosePassArmAndDisarm := by
  intro p low high s h
  refine ⟨fun isOpen => exec_openPass_refused h (openPassFailure_open isOpen),
    fun shut some_takes => exec_openPass_refused h (openPassFailure_undrained shut some_takes), fun shut empty => ?_,
    exec_closePass_refused h, closePass_ok h⟩
  have passes := openPassFailure_passes shut empty
  have strips (m : StripNo) := strip_openPassBy (p := p) (low := low.toNat) (high := high.toNat)
    (s := s.modPort p PortState.transacted) m
  have ramped (m : StripNo) := ramped_openPassBy (p := p) (low := low.toNat) (high := high.toNat)
    (s := s.modPort p PortState.transacted) m
  have playback := openPassBy_passOpened (p := p) (low := low.toNat) (high := high.toNat)
    (s := s.modPort p PortState.transacted)
  have writing := openPassBy_writing p low.toNat high.toNat (s.modPort p PortState.transacted)
  have blocks := openPassBy_blocks (p := p) (low := low.toNat) (high := high.toNat) (s := s.modPort p PortState.transacted)
  refine ⟨_, exec_openPass_ok h passes, ?_⟩
  generalize openPassBy p low.toNat high.toNat (s.modPort p PortState.transacted) = v at *
  refine ⟨playback, ?_, strips, ramped, ?_, otherPortsKept_leaves rfl _ _, ownPortKept_leaves rfl _ _,
    pendingSet_leaves rfl _ _, replySlot_leaves ..⟩
  · refine writing.trans ?_
    rw [← empty]
    rfl
  · rw [blocks]
    rfl

end Sys2Proof.Machine

/-!
PROOFS. CUE (R115 to R118): what the examination of a cue answers, and a CUE of several as its cues in turn.
-/
namespace Sys2Proof.Machine

/-! ### Cues and ports -/

section Ports
variable (p : PortId) (g : PortState → PortState)

theorem applyCue_modPort (c : Cue) (s : State) : applyCue c (s.modPort p g) = (applyCue c s).modPort p g := by
  have same : (s.modPort p g).used c.strip = s.used c.strip := rfl
  have after : ((s.modPort p g).modStrip c.strip (Strip.setShadow c.value)).used c.strip =
      (s.modStrip c.strip (Strip.setShadow c.value)).used c.strip := rfl
  unfold applyCue handRetarget
  rw [same, after]
  split <;> rfl

theorem arrivalScan_modPort (q : List Cue) (s : State) :
    arrivalScan q (s.modPort p g) = (arrivalScan q s).modPort p g := by
  induction q generalizing s with
  | nil => rfl
  | cons c rest ih =>
    have counter : (s.modPort p g).timeline.counter = s.timeline.counter := rfl
    unfold arrivalScan
    rw [counter, applyCue_modPort]
    split
    · exact ih _
    · rfl

theorem queueCue_modPort (c : Cue) (s : State) : queueCue c (s.modPort p g) = (queueCue c s).modPort p g :=
  arrivalScan_modPort p g _ s

end Ports

theorem applyCue_ports (c : Cue) (s : State) : (applyCue c s).ports = s.ports := (handRetarget_onlyCells s c.strip _).ports

theorem arrivalScan_ports (q : List Cue) (s : State) : (arrivalScan q s).ports = s.ports := by
  induction q generalizing s with
  | nil => rfl
  | cons c rest ih =>
    unfold arrivalScan
    split
    · rw [ih, applyCue_ports]
    · rfl

theorem queueCue_ports (c : Cue) (s : State) : (queueCue c s).ports = s.ports := arrivalScan_ports _ s

/-! ### The examination of a cue (R116) -/

section Examine
variable {field : CueField} {cue : Cue} {shaped : Bool} {s : State}

theorem behind_iff {reverse : Bool} {f g : Nat} : behind reverse f g = true ↔ if reverse then g < f else f < g := by
  unfold behind
  split <;> simp

theorem not_behind_iff {reverse : Bool} {f g : Nat} :
    behind reverse f g = false ↔ ¬if reverse then g < f else f < g := by
  rw [← behind_iff, Bool.not_eq_true]

theorem examineCue_unread (read : readCue field = none) : examineCue field s = some .range := by
  rw [examineCue, read]

variable (read : readCue field = some { cue, shaped })
include read

theorem examineCue_order {last : Cue} (tail : s.playback.cues.getLast? = some last)
    (late : behind s.timeline.reverse cue.frame last.frame = true) : examineCue field s = some .order := by
  rw [examineCue, read]
  dsimp only
  rw [tail]
  simp only [late, firstFailure_failIf_true]

theorem examineCue_late (empty : s.playback.cues = [])
    (late : behind s.timeline.reverse cue.frame s.timeline.counter = true) : examineCue field s = some .late := by
  rw [examineCue, read]
  dsimp only
  rw [empty]
  simp only [List.getLast?_nil, List.isEmpty_nil, Bool.true_and, late, firstFailure_failIf_false,
    firstFailure_failIf_true]

/-- The steps of R116 that follow those of the play order and of the frame counter. -/
theorem examineCue_fresh (order : ∀ last, s.playback.cues.getLast? = some last →
      behind s.timeline.reverse cue.frame last.frame = false)
    (fresh : s.playback.cues = [] → behind s.timeline.reverse cue.frame s.timeline.counter = false) :
    examineCue field s =
      firstFailure [failIf (!shaped) .shape, failIf (decide (1024 ≤ s.playback.cues.length)) .full] := by
  rw [examineCue, read]
  dsimp only
  have room : Config.queueSize = 1024 := rfl
  have passed : (s.playback.cues.isEmpty && behind s.timeline.reverse cue.frame s.timeline.counter) = false := by
    cases empty : s.playback.cues with
    | nil => exact fresh empty
    | cons c rest => rfl
  rw [room, passed]
  cases tail : s.playback.cues.getLast? with
  | none => simp only [firstFailure_failIf_false]
  | some last => simp only [order last tail, firstFailure_failIf_false]

omit read in
theorem examineCue_ne_ok (field : CueField) (s : State) : examineCue field s ≠ some .ok := by
  cases read : readCue field with
  | none => rw [examineCue_unread read]; simp
  | some rc =>
    unfold examineCue
    rw [read]
    dsimp only
    have no (b : Bool) {st : Status} (other : st ≠ .ok) (l : List (Option Status)) (rest : firstFailure l ≠ some .ok) :
        firstFailure (failIf b st :: l) ≠ some .ok := by
      cases b with
      | true => simpa using other
      | false => exact rest
    exact no _ (by simp) _ (no _ (by simp) _ (no _ (by simp) _ (no _ (by simp) _ (by simp))))

end Examine

/-! ### The cues of a request in turn (R115) -/

section Take
variable {c : CueField} {rest : List CueField} {k : Nat} {s : State}

theorem takeCues_taken {rc : ReadCue} (passed : examineCue c s = none) (read : readCue c = some rc) :
    takeCues (c :: rest) k s = takeCues rest (k + 1) (queueCue rc.cue s) := by
  rw [takeCues, passed, read]

theorem takeCues_late (late : examineCue c s = some .late) : takeCues (c :: rest) k s = (.late, k, countStale s) := by
  rw [takeCues, late]

theorem takeCues_refused {st : Status} (refused : examineCue c s = some st) (other : st ≠ .late) :
    takeCues (c :: rest) k s = (st, k, s) := by
  rw [takeCues, refused]
  cases st with
  | late => exact absurd rfl other
  | _ => rfl

/-- A cue is taken, or it ends the request with its status. -/
theorem takeCues_head (c : CueField) (s : State) :
    (∃ rc, examineCue c s = none ∧ readCue c = some rc) ∨
      ∃ st u, st ≠ .ok ∧ u.ports = s.ports ∧ u.playback.passPort = s.playback.passPort ∧
        ∀ (p : PortId) (g : PortState → PortState) (rest : List CueField) (k : Nat),
        takeCues (c :: rest) k (s.modPort p g) = (st, k, u.modPort p g) ∧ takeCues (c :: rest) k s = (st, k, u) := by
  cases examined : examineCue c s with
  | none =>
    cases read : readCue c with
    | none => rw [examineCue_unread read] at examined; cases examined
    | some rc => exact .inl ⟨rc, rfl, rfl⟩
  | some st =>
    have ne_ok : st ≠ .ok := fun e => examineCue_ne_ok c s (e ▸ examined)
    have moved (p : PortId) (g : PortState → PortState) : examineCue c (s.modPort p g) = some st := examined
    by_cases late : st = .late
    · subst late
      exact .inr ⟨.late, countStale s, ne_ok, rfl, rfl, fun p g rest k => ⟨takeCues_late (moved p g), takeCues_late examined⟩⟩
    · exact .inr ⟨st, s, ne_ok, rfl, rfl, fun p g rest k =>
        ⟨takeCues_refused (moved p g) late, takeCues_refused examined late⟩⟩

theorem takeCues_modPort (p : PortId) (g : PortState → PortState) (l : List CueField) (k : Nat) (s : State) :
    takeCues l k (s.modPort p g) =
      ((takeCues l k s).1, (takeCues l k s).2.1, (takeCues l k s).2.2.modPort p g) := by
  induction l generalizing k s with
  | nil => rfl
  | cons c rest ih =>
    rcases takeCues_head c s with ⟨rc, passed, read⟩ | ⟨st, u, -, -, -, ends⟩
    · have passed' : examineCue c (s.modPort p g) = none := passed
      rw [takeCues_taken passed read, takeCues_taken passed' read, queueCue_modPort, ih]
    · rw [(ends p g rest k).1, (ends p g rest k).2]

theorem takeCues_kept (l : List CueField) (k : Nat) (s : State) :
    (takeCues l k s).2.2.ports = s.ports ∧ (takeCues l k s).2.2.playback.passPort = s.playback.passPort := by
  induction l generalizing k s with
  | nil => exact ⟨rfl, rfl⟩
  | cons c rest ih =>
    rcases takeCues_head c s with ⟨rc, passed, read⟩ | ⟨st, u, -, ports, passPort, ends⟩
    · obtain ⟨ports, passPort⟩ := ih (k + 1) (queueCue rc.cue s)
      rw [takeCues_taken passed read]
      exact ⟨ports.trans (queueCue_ports ..), passPort.trans (by rw [queueCue_playback])⟩
    · rw [(ends 0 id rest k).2]
      exact ⟨ports, passPort⟩

/-- The count of cues taken goes on from where it starts. -/
theorem takeCues_count (l : List CueField) (k : Nat) (s : State) :
    takeCues l k s = ((takeCues l 0 s).1, k + (takeCues l 0 s).2.1, (takeCues l 0 s).2.2) := by
  induction l generalizing k s with
  | nil => rfl
  | cons c rest ih =>
    rcases takeCues_head c s with ⟨rc, passed, read⟩ | ⟨st, u, -, -, -, ends⟩
    · rw [takeCues_taken passed read, takeCues_taken passed read, ih (k + 1), ih (0 + 1)]
      exact Prod.ext rfl (Prod.ext (by dsimp only; omega) rfl)
    · rw [(ends 0 id rest k).2, (ends 0 id rest 0).2]
      rfl

/-- A CUE of several is its cues in turn: the first one refused or late ends it (R115). -/
theorem takeCues_append (l l' : List CueField) (k : Nat) (s : State) :
    takeCues (l ++ l') k s =
      if (takeCues l k s).1 = .ok then takeCues l' (takeCues l k s).2.1 (takeCues l k s).2.2 else takeCues l k s := by
  induction l generalizing k s with
  | nil => exact (if_pos rfl).symm
  | cons c rest ih =>
    rcases takeCues_head c s with ⟨rc, passed, read⟩ | ⟨st, u, ne_ok, -, -, ends⟩
    · rw [List.cons_append, takeCues_taken passed read, takeCues_taken passed read, ih]
    · rw [List.cons_append, (ends 0 id (rest ++ l') k).2, (ends 0 id rest k).2, if_neg ne_ok]

end Take

/-! ### The request -/

section Request
variable {p : PortId} {fields : List CueField} {s : State}

theorem exec_cue_arm (p : PortId) (fields : List CueField) (s : State) : exec (.cue p fields) s = execCue p fields s := rfl

theorem fitsFrame_cue (n : Nat) : fitsFrame (cuePayload n) = decide (n ≤ 53) := by
  have limit : Config.maxFrameBytes = 1024 := rfl
  rw [fitsFrame, cuePayload, limit]
  exact decide_eq_decide.mpr (by omega)

theorem exec_cue_long (h : (s.port p).takes = true) (long : 53 < fields.length) :
    exec (.cue p fields) s = .next (s.leaves p (reply 0x42 .length [])) := by
  rw [exec_cue_arm, execCue]
  refine request_leaves h rfl (if_neg ?_)
  rw [fitsFrame_cue, decide_eq_true_iff]
  omega

/-- What a CUE whose frame fits leaves, from what its cues do. -/
theorem exec_cue_done {st : Status} {taken : Nat} {t : State} (h : (s.port p).takes = true) (fits : fields.length ≤ 53)
    (ports : t.ports = s.ports)
    (done : cueDone p fields (s.modPort p PortState.transacted) = (st, taken, t.modPort p PortState.transacted)) :
    exec (.cue p fields) s =
      .next (t.leaves p (reply 0x42 st (BitVec.ofNat 8 taken :: bytes2 (BitVec.ofNat 16 t.playback.cues.length)))) := by
  have short : fitsFrame (cuePayload fields.length) = true := by rw [fitsFrame_cue]; exact decide_eq_true fits
  rw [exec_cue_arm, execCue]
  refine request_leaves h ports ((if_pos short).trans ?_)
  rw [done]
  rfl

theorem exec_cue_other (h : (s.port p).takes = true) (fits : fields.length ≤ 53) (other : s.playback.passPort ≠ some p) :
    exec (.cue p fields) s =
      .next (s.leaves p (reply 0x42 .notPass (0 :: bytes2 (BitVec.ofNat 16 s.playback.cues.length)))) :=
  exec_cue_done h fits rfl (if_neg other)

theorem exec_cue_count (h : (s.port p).takes = true) (fits : fields.length ≤ 53) (own : s.playback.passPort = some p)
    (bad : ¬(1 ≤ fields.length ∧ fields.length ≤ 16)) :
    exec (.cue p fields) s =
      .next (s.leaves p (reply 0x42 .range (0 :: bytes2 (BitVec.ofNat 16 s.playback.cues.length)))) :=
  exec_cue_done h fits rfl ((if_pos own).trans (if_neg bad))

/-- What a CUE of 1 to 16 cues from the pass port leaves. -/
theorem exec_cue_taken {st : Status} {taken : Nat} {t : State} (h : (s.port p).takes = true)
    (own : s.playback.passPort = some p) (some_cue : 1 ≤ fields.length) (few : fields.length ≤ 16)
    (done : takeCues fields 0 s = (st, taken, t)) :
    exec (.cue p fields) s =
      .next (t.leaves p (reply 0x42 st (BitVec.ofNat 8 taken :: bytes2 (BitVec.ofNat 16 t.playback.cues.length)))) := by
  have ports := (takeCues_kept fields 0 s).1
  have moved := takeCues_modPort p PortState.transacted fields 0 s
  rw [done] at ports moved
  exact exec_cue_done h (by omega) ports ((if_pos own).trans ((if_pos ⟨some_cue, few⟩).trans moved))

end Request

end Sys2Proof.Machine

/-!
PROOFS. CUE: the request as a whole (R115 to R118).
-/
namespace Sys2Proof.Machine

section Cue
variable {p : PortId} {s : State}

theorem arrivalScan_ahead {q : List Cue} (later : ∀ c ∈ q, c.frame ≠ s.timeline.counter) :
    arrivalScan q s = s.withCues q := by
  cases q with
  | nil => rfl
  | cons c rest =>
    unfold arrivalScan
    rw [if_neg (later c (by simp))]

/-- Cues of a queue and a request that lie ahead of the frame counter and in play order. -/
structure PlaysOn (reverse : Bool) (counter : Nat) (l : List Cue) : Prop where
  ahead : ∀ c ∈ l, if reverse then c.frame < counter else counter < c.frame
  order : l.Pairwise fun c d => if reverse then d.frame ≤ c.frame else c.frame ≤ d.frame

theorem PlaysOn.not_now {reverse : Bool} {counter : Nat} {l : List Cue} (h : PlaysOn reverse counter l) :
    ∀ c ∈ l, c.frame ≠ counter := by
  intro c mem
  have ahead := h.ahead c mem
  split at ahead <;> omega

theorem PlaysOn.fresh {reverse : Bool} {counter : Nat} {l : List Cue} (h : PlaysOn reverse counter l) {c : Cue}
    (mem : c ∈ l) : behind reverse c.frame counter = false := by
  have ahead := h.ahead c mem
  rw [not_behind_iff]
  split at ahead <;> rename_i forward <;> simp only [forward, if_true, if_false, Bool.false_eq_true] <;> omega

theorem PlaysOn.after {reverse : Bool} {counter : Nat} {q l : List Cue} {c last : Cue}
    (h : PlaysOn reverse counter (q ++ c :: l)) (tail : q.getLast? = some last) :
    behind reverse c.frame last.frame = false := by
  have order := (List.pairwise_append.mp h.order).2.2 last (List.mem_of_getLast? tail) c (by simp)
  rw [not_behind_iff]
  split at order <;> rename_i forward <;> simp only [forward, if_true, if_false, Bool.false_eq_true] <;> omega

/-- Cues ahead of the frame counter and in play order are appended (R116 step 6, R117). -/
theorem takeCues_appended {fields : List CueField} {cues : List Cue} {k : Nat}
    (read : fields.map readCue = cues.map fun c => some { cue := c, shaped := true })
    (room : s.playback.cues.length + cues.length ≤ 1024)
    (plays : PlaysOn s.timeline.reverse s.timeline.counter (s.playback.cues ++ cues)) :
    takeCues fields k s = (.ok, k + cues.length, s.withCues (s.playback.cues ++ cues)) := by
  induction fields generalizing cues k s with
  | nil =>
    have none : cues = [] := by simpa using read.symm
    rw [none, List.append_nil]
    rfl
  | cons field fields ih =>
    cases cues with
    | nil => cases read
    | cons c cues =>
      obtain ⟨first, others⟩ := List.cons.inj read
      rw [List.length_cons] at room ⊢
      have order (last : Cue) (tail : s.playback.cues.getLast? = some last) := plays.after tail
      have passed : examineCue field s = none := by
        rw [examineCue_fresh first order fun _ => plays.fresh (by simp), decide_eq_false (by omega)]
        rfl
      have appended : queueCue c s = s.withCues (s.playback.cues ++ [c]) :=
        arrivalScan_ahead fun d mem => plays.not_now d (by
          rw [List.mem_append, List.mem_singleton] at mem
          simp only [List.mem_append, List.mem_cons]
          tauto)
      have queue : s.playback.cues ++ [c] ++ cues = s.playback.cues ++ c :: cues := by simp
      have later := ih (s := s.withCues (s.playback.cues ++ [c])) (k := k + 1) others
        (by simp only [State.withCues, List.length_append, List.length_singleton]; omega)
        (by simp only [State.withCues, queue]; exact plays)
      rw [takeCues_taken passed first, appended, later]
      refine Prod.ext rfl (Prod.ext (by dsimp only; omega) ?_)
      simp only [State.withCues, queue]

theorem takes_left {q : PortState} (h : q.takes = true) (r : Option Reply) : (q.left r).takes = true := by
  have on : q.attached = true := by
    simp only [PortState.takes, Bool.and_eq_true] at h
    exact h.1
  simp [PortState.takes, PortState.left, on]

/-- Two CUEs one after the other, and the one CUE of both (R115). -/
theorem cue_in_turn {fields rest : List CueField} (h : (s.port p).takes = true) (own : s.playback.passPort = some p)
    (some_first : fields ≠ []) (some_rest : rest ≠ []) (few : fields.length + rest.length ≤ 16) :
    ∃ t u st₁ st₂ k₁ k₂, exec (.cue p fields) s = .next t ∧ exec (.cue p rest) t = .next u ∧
      (t.port p).replySlot = reply 0x42 st₁ (k₁ :: bytes2 (BitVec.ofNat 16 t.playback.cues.length)) ∧
      (u.port p).replySlot = reply 0x42 st₂ (k₂ :: bytes2 (BitVec.ofNat 16 u.playback.cues.length)) ∧
      exec (.cue p (fields ++ rest)) s =
        .next (if st₁ = .ok then
          u.leaves p (reply 0x42 st₂ ((k₁ + k₂) :: bytes2 (BitVec.ofNat 16 u.playback.cues.length)))
        else t) := by
  have one : 1 ≤ fields.length := List.length_pos_of_ne_nil some_first
  have one' : 1 ≤ rest.length := List.length_pos_of_ne_nil some_rest
  have both := takeCues_append fields rest 0 s
  have ports := (takeCues_kept fields 0 s).1
  have port := (takeCues_kept fields 0 s).2
  have first := exec_cue_taken h own one (by omega) (Prod.ext rfl rfl : takeCues fields 0 s =
    ((takeCues fields 0 s).1, (takeCues fields 0 s).2.1, (takeCues fields 0 s).2.2))
  generalize takeCues fields 0 s = done at *
  obtain ⟨st₁, k₁, t⟩ := done
  dsimp only at both ports port first
  rw [takeCues_count rest k₁ t] at both
  have moved (r : Option Reply) := takeCues_modPort p (PortState.left r) rest 0 t
  generalize takeCues rest 0 t = done at *
  obtain ⟨st₂, k₂, u⟩ := done
  dsimp only at both moved
  have takes (r : Option Reply) : ((t.leaves p r).port p).takes = true := by
    rw [leaves_port_self, port_of_ports ports p]
    exact takes_left h r
  have second (r : Option Reply) := exec_cue_taken (s := t.leaves p r) (takes r) (port.trans own) one' (by omega) (moved r)
  have both_few : 1 ≤ (fields ++ rest).length ∧ (fields ++ rest).length ≤ 16 := by
    rw [List.length_append]
    omega
  refine ⟨_, _, st₁, st₂, _, _, first, second _, replySlot_leaves .., replySlot_leaves .., ?_⟩
  by_cases ok : st₁ = .ok
  · rw [if_pos ok] at both ⊢
    rw [exec_cue_taken h own both_few.1 both_few.2 both, BitVec.ofNat_add]
    exact congrArg _ ((leaves_again ..).trans (leaves_again ..)).symm
  · rw [if_neg ok] at both ⊢
    exact exec_cue_taken h own both_few.1 both_few.2 both

section Single
variable {field : CueField} {cue : Cue}

theorem exec_cue_single {st : Status} {taken : Nat} {t : State} (h : (s.port p).takes = true)
    (own : s.playback.passPort = some p) (done : takeCues [field] 0 s = (st, taken, t)) :
    exec (.cue p [field]) s =
      .next (t.leaves p (reply 0x42 st (BitVec.ofNat 8 taken :: bytes2 (BitVec.ofNat 16 t.playback.cues.length)))) :=
  exec_cue_taken h own (Nat.le_refl 1) (by simp) done

/-- A cue refused at its examination takes nothing (R116). -/
theorem exec_cue_refused {st : Status} (h : (s.port p).takes = true) (own : s.playback.passPort = some p)
    (refused : examineCue field s = some st) (other : st ≠ .late) :
    exec (.cue p [field]) s =
      .next (s.leaves p (reply 0x42 st (0 :: bytes2 (BitVec.ofNat 16 s.playback.cues.length)))) :=
  exec_cue_single h own (takeCues_refused refused other)

theorem exec_cue_late (h : (s.port p).takes = true) (own : s.playback.passPort = some p) (empty : s.playback.cues = [])
    (late : examineCue field s = some .late) :
    exec (.cue p [field]) s =
      .next (({ s with playback := { s.playback with stale := min 65535 (s.playback.stale + 1) } }).leaves p
        (reply 0x42 .late [0, 0, 0])) := by
  rw [exec_cue_single h own (takeCues_late late)]
  have cues : (countStale s).playback.cues.length = 0 := by
    rw [show (countStale s).playback.cues = s.playback.cues from rfl, empty]
    rfl
  rw [cues]
  rfl

/-- A cue at the counter's frame on an empty queue is applied (R117, R118). -/
theorem cue_applied (h : (s.port p).takes = true) (own : s.playback.passPort = some p)
    (read : readCue field = some { cue, shaped := true }) (empty : s.playback.cues = [])
    (now : cue.frame = s.timeline.counter) :
    ∃ t, exec (.cue p [field]) s = .next t ∧
      t.strip cue.strip = (s.strip cue.strip).cued cue.strip [cue] ∧ Ramped cue.strip s t ∧
      OnlyStrip p cue.strip s t ∧ t.writing = s.writing ∧ otherPortsKept p s t ∧
      (t.port p).pendingSet = (s.port p).pendingSet ∧ (t.port p).replySlot = reply 0x42 .ok [1, 0, 0] := by
  have passed : examineCue field s = none := by
    rw [examineCue_fresh read (fun last tail => by rw [empty] at tail; cases tail) (fun _ => ?_), empty]
    · rfl
    · rw [not_behind_iff, now]
      split <;> omega
  have arrived : queueCue cue s = (applyCue cue s).withCues [] := by
    rw [queueCue, empty, List.nil_append, arrivalScan, if_pos now]
    rfl
  have outcome := exec_cue_single (field := field) h own (takeCues_taken passed read)
  rw [arrived] at outcome
  have applied := cuesApplied_one cue s
  have only := OnlyAt.applyCue cue s
  have ports := applyCue_ports cue s
  generalize applyCue cue s = v at *
  have items : (BitVec.ofNat 8 (0 + 1) :: bytes2 (BitVec.ofNat 16 (v.withCues []).playback.cues.length)) = [1, 0, 0] := by
    rw [show (v.withCues []).playback.cues.length = 0 from rfl]
    decide
  rw [items] at outcome
  have ramped := applied.once cue.strip (List.countP_le_length ..)
  have playback : ({ v.playback with cues := [] } : Playback) = s.playback := by
    rw [only.playback, ← empty]
  have others : otherPortsKept p s ((v.withCues []).leaves p (reply 0x42 .ok [1, 0, 0])) :=
    otherPortsKept_leaves (u := v.withCues []) ports p _
  have mine : ownPortKept p s ((v.withCues []).leaves p (reply 0x42 .ok [1, 0, 0])) :=
    ownPortKept_leaves (u := v.withCues []) ports p _
  have pending := pendingSet_leaves (u := v.withCues []) ports p (reply 0x42 .ok [1, 0, 0])
  refine ⟨_, outcome, applied.strip cue.strip, ramped, ?_, applied.writing, others, pending, replySlot_leaves ..⟩
  have gains := congrArg Engine.gainCells only.engine
  have sums := congrArg Engine.accumulators only.engine
  refine ⟨only.strips, only.cells, gains, only.rampLength, sums, only.busTable, only.timeline, playback,
    only.audio, only.pending, ?_, mine, pendingKept_refl pending, fun q other => ?_⟩
  · exact congrArg Writing.takePort applied.writing
  · have same := others q other
    exact ⟨pendingKept_refl (congrArg PortState.pendingSet same), by rw [same]⟩

end Single

end Cue

/-- Settles O55. -/
theorem cueIsAppendedAppliedDroppedOrRefused : Obligations.CueIsAppendedAppliedDroppedOrRefused := by
  intro p fields rest field cues cue s h
  refine ⟨exec_cue_other h, exec_cue_count h, exec_cue_long h, fun own one few read room ahead order => ?_,
    cue_in_turn h, fun own unread => ?_, fun shaped own read => ⟨fun last tail late => ?_, fun empty late => ?_,
      fun order fresh misshapen => ?_, fun empty now ok => ?_, fun full ok order => ?_⟩⟩
  · rw [← List.length_append]
    exact exec_cue_taken h own one few 
      ((takeCues_appended read room ⟨ahead, order⟩).trans (by rw [Nat.zero_add]; rfl))
  · exact exec_cue_refused h own (examineCue_unread unread) (by simp)
  · exact exec_cue_refused h own (examineCue_order read tail (behind_iff.mpr late)) (by simp)
  · exact exec_cue_late h own empty (examineCue_late read empty (behind_iff.mpr late))
  · refine exec_cue_refused h own ?_ (by simp)
    rw [examineCue_fresh read (fun last tail => not_behind_iff.mpr (order last tail))
      (fun empty => not_behind_iff.mpr (fresh empty)), misshapen]
    rfl
  · subst ok
    exact cue_applied h own read empty now
  · subst ok
    refine exec_cue_refused h own ?_ (by simp)
    rw [examineCue_fresh read (fun last tail => not_behind_iff.mpr (order last tail))
      (fun empty => by rw [empty] at full; cases full), decide_eq_true full]
    rfl

end Sys2Proof.Machine

/-!
PROOFS. ATTACH and DETACH (R71, R72, R113, R145): the touches, claims and roles of a port as its detach ends them.
-/
namespace Sys2Proof.Machine

/-! ### The touches end (R72, R81) -/

section Lift
variable {p : PortId} {s t : State} {n : StripNo}

/-- The take records of the end of port `p`'s touch of strip `n`. -/
def State.liftRecord (s : State) (p : PortId) (n : StripNo) : List TakeRecord :=
  if (s.strip n).toucher = some p then (s.setStrip n { s.strip n with toucher := none }).turnRecords s n else []

theorem liftRecords_eq (s : State) (p : PortId) : s.liftRecords p = (List.finRange 160).flatMap (s.liftRecord p) := rfl

theorem lifted_congr (strip : t.strip n = s.strip n) (timeline : t.timeline = s.timeline)
    (playback : t.playback = s.playback) (busTable : t.busTable = s.busTable) :
    t.lifted p n = s.lifted p n ∧ t.liftRecord p n = s.liftRecord p n := by
  have before : t.pressing n ↔ s.pressing n := pressing_congr strip timeline
  have same : (t.setStrip n { s.strip n with toucher := none }).strip n =
      (s.setStrip n { s.strip n with toucher := none }).strip n := by rw [strip_setStrip_self, strip_setStrip_self]
  unfold State.lifted State.liftRecord
  rw [strip]
  exact ⟨if_congr Iff.rfl (turned_congr same timeline playback busTable before) rfl,
    if_congr Iff.rfl (turnRecords_congr same timeline playback busTable before) rfl⟩

theorem turnsTo_liftTouch (q p : PortId) (n : StripNo) (t : State) :
    TurnsTo q n (t.lifted p n) (t.liftRecord p n) t (liftTouch p n t) := by
  unfold liftTouch State.lifted State.liftRecord
  by_cases touches : (t.strip n).toucher = some p
  · rw [if_pos touches, if_pos touches, if_pos touches]
    exact turnsTo_changeToucher q n none t
  · rw [if_neg touches, if_neg touches, if_neg touches]
    exact turnsTo_refl q n t

/-- Every touch of port `p` ends, in strip number order. -/
theorem stripsTurn_releaseTouches (p : PortId) (s : State) :
    StripsTurn (s.lifted p) (s.liftRecords p) s (releaseTouches p s) := by
  rw [releaseTouches_eq, liftRecords_eq]
  refine stripsTurn_eachStrip (fun n t => .liftTouch p n t) fun n t only strip q => ?_
  obtain ⟨record, records⟩ := lifted_congr (p := p) strip only.timeline only.playback only.busTable
  have turn := turnsTo_liftTouch q p n t
  rw [record, records] at turn
  exact turn

/-- The end of a touch leaves all of a record but its toucher, its trim and its write state, and of those the last two
on an armed strip alone. -/
theorem lifted_setting : (s.lifted p n).holder = (s.strip n).holder ∧ (s.lifted p n).mode = (s.strip n).mode := by
  unfold State.lifted
  split
  · have setting := turned_setting (s.setStrip n { s.strip n with toucher := none }) s n
    rw [strip_setStrip_self] at setting
    rw [setting]
    exact ⟨rfl, rfl⟩
  · exact ⟨rfl, rfl⟩

theorem lifted_unarmed (unarmed : s.armed n = false) :
    (s.lifted p n).writeState = (s.strip n).writeState ∧ s.liftRecord p n = [] := by
  have still : (s.setStrip n { s.strip n with toucher := none }).armed n = false := by
    rw [State.armed, strip_setStrip_self]
    exact unarmed
  have rises : ¬(s.setStrip n { s.strip n with toucher := none }).triggerRises s n := fun ⟨armed, _⟩ => by
    rw [still] at armed
    cases armed
  have falls : ¬(s.setStrip n { s.strip n with toucher := none }).triggerFalls s n := fun ⟨armed, _⟩ => by
    rw [still] at armed
    cases armed
  unfold State.lifted State.liftRecord
  rw [turned_still rises falls, turnRecords_still rises falls, strip_setStrip_self]
  constructor
  · split <;> rfl
  · exact ite_self _

end Lift

/-! ### The touches and the claims gone -/

section Claims
variable (p : PortId) (s : State)

theorem releaseClaims_engine (u : State) : (releaseClaims p u).engine = u.engine := rfl

theorem releaseClaims_ports (u : State) : (releaseClaims p u).ports = u.ports := rfl

theorem releaseClaims_busTable (u : State) :
    (releaseClaims p u).busTable = { u.busTable with buses := (releaseClaims p u).busTable.buses } := rfl

theorem stripsTurn_unplugged :
    StripsTurn (s.lifted p) (s.liftRecords p) (unplugged p s) (releaseTouches p (unplugged p s)) := by
  have turn := stripsTurn_releaseTouches p (unplugged p s)
  have same (n : StripNo) := lifted_congr (p := p) (s := s) (t := unplugged p s) (n := n) rfl rfl rfl rfl
  have records : (unplugged p s).liftRecords p = s.liftRecords p := by
    rw [liftRecords_eq, liftRecords_eq]
    exact List.flatMap_congr fun n _ => (same n).2
  have strips : (unplugged p s).lifted p = s.lifted p := funext fun n => (same n).1
  rwa [records, strips] at turn

/-- What a detach of port `p` has done once its touches and its claims are gone: the records, the cells and the take
queue, and the ports other than `p`. -/
structure Unclaimed (t : State) : Prop where
  strip : ∀ n, t.strip n = { s.lifted p n with holder := unheldBy p (s.strip n).holder }
  cells : ∀ n (c : Channel), (t.cells n)[c] = rampedCell s (s.setStrip n (s.lifted p n)) n c (s.cells n)[c]
  queued : Queued (s.liftRecords p) (unplugged p s) t
  ports : ∀ q, q ≠ p → t.port q = { s.port q with pendingSet := (t.port q).pendingSet } ∧ pendingKept 0x300#12 q s t
  busTable : t.busTable = { s.busTable with buses := t.busTable.buses }
  playback : t.playback = s.playback
  timeline : t.timeline = s.timeline
  audio : t.audio = s.audio
  pending : t.pending = s.pending
  engine : t.engine = { s.engine with stripCells := t.engine.stripCells }

/-- The state in which a detach has ended the touches and the claims of port `p`. -/
def unclaimed : State := releaseClaims p (releaseTouches p (unplugged p s))

theorem unhanded_unclaimed : unhanded p s = endRoles p (unclaimed p s) := rfl

theorem unclaimed_unclaimed : Unclaimed p s (unclaimed p s) := by
  have turn := stripsTurn_unplugged p s
  unfold unclaimed
  generalize releaseTouches p (unplugged p s) = t at *
  have only := turn.only
  have cells (n : StripNo) : (releaseClaims p t).cells n = t.cells n := by
    rw [State.cells, releaseClaims_engine]
    rfl
  have port (q : PortId) : (releaseClaims p t).port q = t.port q := by
    rw [State.port, releaseClaims_ports]
    rfl
  refine ⟨fun n => ?_, fun n c => ?_, ?_, fun q other => ?_, ?_, ?_, ?_, ?_, ?_, ?_⟩
  · rw [strip_releaseClaims, turn.strip n, lifted_setting.1]
  · have used : t.used n = (s.setStrip n (s.lifted p n)).used n := by
      rw [State.used, State.used, turn.strip, strip_setStrip_self, only.playback]
      rfl
    have target : t.target n c = (s.setStrip n (s.lifted p n)).target n c := by
      refine target_congr ?_ (by rw [only.playback]; rfl) (by rw [only.busTable]; rfl) (by rw [only.busTable]; rfl) c
      rw [turn.strip, strip_setStrip_self]
    rw [cells, turn.ramped n c]
    exact (rampedCell_congr (s := unplugged p s) (s' := s) rfl rfl used.symm target.symm _).symm
  · refine ⟨(releaseClaims_writing p t).trans turn.queued.1, ?_⟩
    exact takeReasons_signals (s := unplugged p s) rfl rfl (fun _ => rfl) (fun _ => rfl) (fun q => by rw [port]) turn.queued.2
  · have before : (unplugged p s).port q = s.port q := by rw [port_unplugged, if_neg (Ne.symm other)]
    have own := turn.port q
    have kept := turn.kept q
    rw [pendingKept, before] at kept
    rw [before] at own
    rw [pendingKept, port]
    exact ⟨own, kept⟩
  · rw [releaseClaims_busTable, only.busTable]
    rfl
  · rw [releaseClaims_playback, only.playback]
    rfl
  · rw [releaseClaims_timeline, only.timeline]
    rfl
  · rw [releaseClaims_audio, only.audio]
    rfl
  · rw [releaseClaims_pending, only.pending]
    rfl
  · rw [releaseClaims_engine, only.engine]
    rfl

end Claims

section Unclaimed
variable {p : PortId} {s t : State} (h : Unclaimed p s t) (n : StripNo)
include h

theorem Unclaimed.used : t.used n = (s.setStrip n (s.lifted p n)).used n := by
  rw [State.used, State.used, h.strip, strip_setStrip_self, h.playback]
  rfl

theorem Unclaimed.armed : t.armed n = s.armed n := by
  rw [State.armed, State.armed, h.strip, h.playback]
  dsimp only
  rw [lifted_setting.2]

theorem Unclaimed.writing : t.writing = s.writing.afterRecords (s.liftRecords p) := h.queued.1

end Unclaimed

/-! ### The roles end (R113, R145) -/

section Roles
variable {p : PortId} {v : State}

theorem endRoles_own (own : v.playback.passPort = some p) : endRoles p v = discardTakes (closePassNow v) := if_pos own

/-- A detach of a port that holds no pass ends at most its take role. -/
theorem endRoles_other (other : v.playback.passPort ≠ some p) :
    endRoles p v = { v with writing := (endRoles p v).writing } := by
  rw [endRoles, if_neg other]
  split <;> rfl

theorem endRoles_writing_none (other : v.playback.passPort ≠ some p) (none : v.writing.takePort ≠ some p) :
    (endRoles p v).writing = v.writing := by rw [endRoles, if_neg other, if_neg none]

theorem endRoles_writing_own (other : v.playback.passPort ≠ some p) (own : v.writing.takePort = some p) :
    (endRoles p v).writing =
      { takes := [], takePort := none, lost := min 65535 (v.writing.lost + v.writing.takes.length) } := by
  rw [endRoles, if_neg other, if_pos own]
  exact discardTakes_writing v

/-- What take records cost that a loss of the take role then discards (R113). -/
theorem lost_discarded (w : Writing) (rs : List TakeRecord) :
    min 65535 ((w.afterRecords rs).lost + (w.afterRecords rs).takes.length) =
      min 65535 (w.lost + w.takes.length + rs.length) := by
  simp only [Writing.afterRecords, List.length_append, List.length_take]
  split <;> omega

theorem settled_lost (w : Writing) : w.settled.lost = w.lost ∧ w.settled.takes = w.takes := by
  rw [settled_eq]
  exact ⟨rfl, rfl⟩

/-- The records of a pass that its port loses, counted lost (R113). -/
theorem lost_closed (v : State) : (discardTakes (closePassNow v)).writing.lost =
    min 65535 (v.writing.lost + v.writing.takes.length + (v.punchOuts v.timeline.counter .passClose).length) := by
  rw [discardTakes_writing]
  dsimp only
  rw [writing_closePassNow, (settled_lost _).1, (settled_lost _).2, lost_discarded]

theorem closePassNow_port_own (v : State) (q : PortId) :
    (closePassNow v).port q = { v.port q with pendingSet := ((closePassNow v).port q).pendingSet } ∧
      pendingKept 0x300#12 q v (closePassNow v) := by
  have handed := handedOn_disarmed q v
  rw [pendingKept, port_closePassNow]
  exact ⟨handed.own, handed.kept_own⟩

end Roles

end Sys2Proof.Machine

/-!
PROOFS. ATTACH and DETACH: the commands as a whole (R71, R72).
-/
namespace Sys2Proof.Machine

/-! ### The roles and the port end -/

section Roles
variable (p : PortId) (v : State)

theorem ports_endRoles (q : PortId) :
    (endRoles p v).port q = { v.port q with pendingSet := ((endRoles p v).port q).pendingSet } ∧
      pendingKept 0x300#12 q v (endRoles p v) := by
  by_cases own : v.playback.passPort = some p
  · rw [endRoles_own own, pendingKept, discardTakes_port]
    exact closePassNow_port_own v q
  · rw [endRoles_other own]
    exact ⟨rfl, rfl⟩

theorem ramped_endRoles (n : StripNo) : Ramped n v (endRoles p v) := by
  by_cases own : v.playback.passPort = some p
  · have ramped := ramped_closePassNow (s := v) n
    rw [endRoles_own own]
    generalize closePassNow v = u at *
    exact ramped
  · rw [endRoles_other own]
    exact ramped_of_same rfl rfl

variable {p v}

theorem endRoles_strip_own (own : v.playback.passPort = some p) (n : StripNo) : (endRoles p v).strip n = v.shut n := by
  rw [endRoles_own own, discardTakes_strip, strip_closePassNow]

theorem endRoles_strip_other (other : v.playback.passPort ≠ some p) (n : StripNo) :
    (endRoles p v).strip n = v.strip n := by
  rw [endRoles_other other]
  rfl

theorem endRoles_playback_own (own : v.playback.passPort = some p) :
    (endRoles p v).playback = { v.playback with passOpen := false, passPort := none, cues := [] } := by
  rw [endRoles_own own, discardTakes_playback, closePassNow_playback]

theorem endRoles_takes_own (own : v.playback.passPort = some p) :
    (endRoles p v).writing.takes = [] ∧ (endRoles p v).writing.takePort = none ∧
      (endRoles p v).writing.lost =
        min 65535 (v.writing.lost + v.writing.takes.length + (v.punchOuts v.timeline.counter .passClose).length) := by
  rw [endRoles_own own]
  obtain ⟨takes, takePort⟩ := discardTakes_takes (closePassNow v)
  exact ⟨takes, takePort, lost_closed v⟩

end Roles

section Emptied
variable (p : PortId) (u : State)

theorem port_emptied_own : (emptied p u).port p = PortState.fresh false (u.port p).transaction := by
  rw [emptied, raiseElsewhere, port_mapPorts, if_pos rfl, port_modPort_self]

theorem port_emptied_other {q : PortId} (other : q ≠ p) : (emptied p u).port q = (u.port q).raised .detach := by
  rw [emptied, raiseElsewhere, port_mapPorts, if_neg other, port_modPort_ne _ _ other]

theorem ramped_emptied {s : State} {n : StripNo} (ramped : Ramped n s u) : Ramped n s (emptied p u) := ramped

/-- What DETACH raised at another port leaves as it was. -/
theorem ports_emptied {q : PortId} (other : q ≠ p) :
    (emptied p u).port q = { u.port q with pendingSet := ((emptied p u).port q).pendingSet } ∧
      pendingKept 0x008#12 q u (emptied p u) ∧ raisedWhen 3 q True u (emptied p u) := by
  have port := port_emptied_other p u other
  have pending : ((emptied p u).port q).pendingSet =
      (if True then (u.port q).raised .detach else u.port q).pendingSet := by rw [port, if_pos trivial]
  refine ⟨by rw [port, raised_eq], pendingKept_raised pending rfl, ?_⟩
  exact raisedWhen_congr (raisedWhen_raised (b := 3) pending) (by simp [Reason.bit])

end Emptied

/-! ### DETACH -/

section Detach
variable {p : PortId} {s C : State} (h : Unclaimed p s C)
include h

theorem detached_cells (n : StripNo) (c : Channel) :
    ((emptied p (endRoles p C)).cells n)[c] =
      rampedCell (s.setStrip n (s.lifted p n)) (emptied p (endRoles p C)) n c
        (rampedCell s (s.setStrip n (s.lifted p n)) n c (s.cells n)[c]) := by
  have ramped := ramped_emptied p _ (ramped_endRoles p C n) c
  rw [h.cells] at ramped
  refine ramped.trans (rampedCell_congr ?_ ?_ rfl rfl _)
  · exact h.used n
  · rw [h.engine]
    rfl

theorem detached_ports {q : PortId} (other : q ≠ p) :
    (emptied p (endRoles p C)).port q =
        { s.port q with pendingSet := ((emptied p (endRoles p C)).port q).pendingSet } ∧
      pendingKept 0x308#12 q s (emptied p (endRoles p C)) ∧ raisedWhen 3 q True s (emptied p (endRoles p C)) := by
  obtain ⟨claims, kept_claims⟩ := h.ports q other
  obtain ⟨roles, kept_roles⟩ := ports_endRoles p C q
  obtain ⟨rest, kept, raised⟩ := ports_emptied p (endRoles p C) other
  have before : pendingKept 0x300#12 q s (endRoles p C) := pendingKept_trans kept_claims kept_roles
  have attached : ((endRoles p C).port q).attached = (s.port q).attached := by rw [roles, claims]
  refine ⟨by rw [rest, roles, claims], ?_, ?_⟩
  · exact pendingKept_trans (pendingKept_mono before (by decide)) (pendingKept_mono kept (by decide))
  · rw [raisedWhen, attached, pendingKept_iff.mp before 3 (by decide) (by decide)] at raised
    exact raised

theorem detached_strip_other (other : s.playback.passPort ≠ some p) (n : StripNo) :
    (emptied p (endRoles p C)).strip n =
      { s.lifted p n with holder := ((emptied p (endRoles p C)).strip n).holder } := by
  have strip : (emptied p (endRoles p C)).strip n = C.strip n := endRoles_strip_other (by rw [h.playback]; exact other) n
  rw [strip, h.strip]

theorem detached_strip_own (own : s.playback.passPort = some p) (n : StripNo) :
    (emptied p (endRoles p C)).strip n =
      { s.lifted p n with
        holder := ((emptied p (endRoles p C)).strip n).holder,
        writeState := if s.armed n then .off else (s.strip n).writeState,
        trim := if s.armed n = true ∧ (s.strip n).mode = .trim ∧ (s.lifted p n).writeState.punched = true then 16384
          else (s.lifted p n).trim } := by
  have strip : (emptied p (endRoles p C)).strip n = C.shut n := endRoles_strip_own (by rw [h.playback]; exact own) n
  rw [strip, State.shut, h.armed, h.strip]
  cases armed : s.armed n with
  | true => simp only [if_true, lifted_setting.2, true_and]
  | false =>
    simp only [Bool.false_eq_true, if_false, false_and]
    rw [← (lifted_unarmed (p := p) armed).1]

theorem detached_rest :
    (emptied p (endRoles p C)).busTable = { s.busTable with buses := (emptied p (endRoles p C)).busTable.buses } ∧
      (emptied p (endRoles p C)).timeline = s.timeline ∧ (emptied p (endRoles p C)).audio = s.audio ∧
      (emptied p (endRoles p C)).engine =
        { s.engine with stripCells := (emptied p (endRoles p C)).engine.stripCells } ∧
      (emptied p (endRoles p C)).pending = s.pending := by
  have only := endRoles_onlyPass p C
  generalize endRoles p C = u at *
  refine ⟨?_, only.timeline.trans h.timeline, only.audio.trans h.audio, ?_, only.pending.trans h.pending⟩
  · have table : (emptied p u).busTable = C.busTable := only.busTable
    rw [table]
    exact h.busTable
  · have engine : (emptied p u).engine = { C.engine with stripCells := (emptied p u).engine.stripCells } := only.engine
    rw [engine, h.engine]

/-- A port without a role loses no record: those of its touches are queued. -/
theorem detached_queued (pass : s.playback.passPort ≠ some p) (take : s.writing.takePort ≠ some p) :
    Queued (s.liftRecords p) (s.modPort p fun q => PortState.fresh false q.transaction) (emptied p (endRoles p C)) := by
  have pass' : C.playback.passPort ≠ some p := by rw [h.playback]; exact pass
  have take' : C.writing.takePort ≠ some p := by rw [h.writing]; exact take
  have roles : endRoles p C = C := by
    have other := endRoles_other pass'
    rw [endRoles_writing_none pass' take'] at other
    exact other
  obtain ⟨writing, reasons⟩ := h.queued
  rw [roles]
  refine ⟨writing, fun q => ?_⟩
  by_cases own : q = p
  · subst own
    have port := port_emptied_own q C
    have fresh : (s.modPort q fun r => PortState.fresh false r.transaction).port q =
        PortState.fresh false (s.port q).transaction := port_modPort_self ..
    rw [raisedWhen, raisedWhen, port, fresh]
    exact ⟨⟨.inl, fun at_q => at_q.resolve_right fun ⟨on, _⟩ => by cases on⟩,
      ⟨.inl, fun at_q => at_q.resolve_right fun ⟨on, _⟩ => by cases on⟩⟩
  · have kept := (ports_emptied p C own).2.1
    have before : (unplugged p s).port q = (s.modPort p fun q => PortState.fresh false q.transaction).port q := by
      rw [port_unplugged, if_neg (Ne.symm own), port_modPort_ne _ _ own]
    have at_q := reasons q
    rw [raisedWhen, raisedWhen, before] at at_q
    rw [raisedWhen, raisedWhen, pendingKept_iff.mp kept 8 (by decide) (by decide),
      pendingKept_iff.mp kept 9 (by decide) (by decide)]
    exact at_q

/-- The take port of a closed pass loses the records it was to take (R113, R145). -/
theorem detached_discarded (pass : s.playback.passPort ≠ some p) (take : s.writing.takePort = some p)
    (shut : s.playback.passOpen = false) :
    (emptied p (endRoles p C)).writing =
      { takes := [], takePort := none, lost := min 65535 (s.writing.lost + s.writing.takes.length) } := by
  have pass' : C.playback.passPort ≠ some p := by rw [h.playback]; exact pass
  have take' : C.writing.takePort = some p := by rw [h.writing]; exact take
  have none : s.liftRecords p = [] := by
    rw [liftRecords_eq, List.flatMap_eq_nil_iff]
    intro n _
    exact (lifted_unarmed (by rw [State.armed, shut]; rfl)).2
  have writing := h.writing
  rw [none, afterRecords_nil] at writing
  have ended := endRoles_writing_own pass' take'
  rw [writing] at ended
  exact ended

theorem detached_lost (own : s.playback.passPort = some p) :
    (emptied p (endRoles p C)).playback = { s.playback with passOpen := false, passPort := none, cues := [] } ∧
      (emptied p (endRoles p C)).writing.takes = [] ∧ (emptied p (endRoles p C)).writing.takePort = none ∧
      (emptied p (endRoles p C)).writing.lost = min 65535
        (s.writing.lost + s.writing.takes.length + (s.liftRecords p).length +
          ((List.finRange 160).filter fun n => s.armed n && (s.lifted p n).writeState.punched).length) := by
  have own' : C.playback.passPort = some p := by rw [h.playback]; exact own
  obtain ⟨takes, takePort, lost⟩ := endRoles_takes_own own'
  have playback := endRoles_playback_own own'
  rw [h.playback] at playback
  refine ⟨playback, takes, takePort, lost.trans ?_⟩
  have punched (n : StripNo) : (C.armed n && (C.strip n).writeState.punched) =
      (s.armed n && (s.lifted p n).writeState.punched) := by rw [h.armed, h.strip]
  have sum := lost_discarded s.writing (s.liftRecords p)
  rw [← h.writing] at sum
  simp only [State.punchOuts, List.length_map, punched]
  omega

omit h in
theorem raisedWhen_unraised {b : Nat} {q : PortId} {why : Prop} {s t : State} (raised : raisedWhen b q why s t)
    (never : ¬why) : (t.port q).pendingSet.getLsbD b = (s.port q).pendingSet.getLsbD b := by
  rw [raisedWhen] at raised
  rw [Bool.eq_iff_iff, raised]
  exact ⟨fun at_q => at_q.resolve_right fun ⟨_, because⟩ => never because, .inl⟩

omit h in
/-- HIGH and LOST are raised at the take port alone (R141, R142). -/
theorem takeReasons_other {rs : List TakeRecord} {s t : State} {q : PortId} (reasons : TakeReasons rs s t)
    (other : s.writing.takePort ≠ some q) {b : Nat} (bit : b = 8 ∨ b = 9) :
    (t.port q).pendingSet.getLsbD b = (s.port q).pendingSet.getLsbD b := by
  obtain ⟨high, lost⟩ := reasons q
  rcases bit with rfl | rfl
  · exact raisedWhen_unraised high fun because => other because.1
  · exact raisedWhen_unraised lost fun because => other because.1

/-- Where the pass port is the take port too, no other port takes HIGH or LOST. -/
theorem detached_unraised (own : s.playback.passPort = some p) (take : s.writing.takePort = some p) {q : PortId}
    (other : q ≠ p) : pendingKept 0x008#12 q s (emptied p (endRoles p C)) := by
  have own' : C.playback.passPort = some p := by rw [h.playback]; exact own
  have apart : s.writing.takePort ≠ some q := by
    rw [take]
    exact fun same => other (Option.some.inj same).symm
  have apart' : (C.withCues []).writing.takePort ≠ some q := by
    rw [State.withCues, h.writing]
    exact apart
  have before : (unplugged p s).port q = s.port q := by rw [port_unplugged, if_neg (Ne.symm other)]
  have roles : ((endRoles p C).port q).pendingSet = ((disarmed C).port q).pendingSet := by
    rw [endRoles_own own', discardTakes_port, port_closePassNow]
  refine pendingKept_iff.mpr fun b range out => ?_
  by_cases bit : b = 8 ∨ b = 9
  · have last := pendingKept_iff.mp (ports_emptied p (endRoles p C) other).2.1 b range out
    have close := takeReasons_other (handedOn_disarmed q C).queued.2 apart' bit
    have touches := takeReasons_other h.queued.2 (q := q) apart bit
    rw [before] at touches
    rw [last, roles, close]
    exact touches
  · refine pendingKept_iff.mp (detached_ports h other).2.1 b range ?_
    have few : ∀ i < 12, (0x008#12).getLsbD i = false → i ≠ 8 → i ≠ 9 → (0x308#12).getLsbD i = false := by decide
    exact few b range out (fun e => bit (.inl e)) fun e => bit (.inr e)

end Detach

section Commands
variable (p : PortId) (s : State)

theorem exec_attach_arm : exec (.attach p) s = execAttach p s := rfl

theorem exec_detach_arm : exec (.detach p) s = execDetach p s := rfl

theorem exec_attach (detached : (s.port p).attached = false) :
    exec (.attach p) s = .next (s.modPort p fun q =>
      PortState.fresh true (if q.transaction = .idle then .idle else .ignored)) := by
  rw [exec_attach_arm, execAttach, detached, if_neg Bool.false_ne_true]
  simp only [overtaken_eq]

theorem exec_detach (attached : (s.port p).attached = true) : exec (.detach p) s = .next (detachPort p s) := by
  rw [exec_detach_arm, execDetach]
  exact congrArg _ (if_pos attached)

end Commands

/-- Settles O48. -/
theorem attachAndDetachSettleThePort : Obligations.AttachAndDetachSettleThePort := by
  intro p s
  refine ⟨exec_attach p s, fun attached => ⟨_, exec_detach p s attached, ?_⟩⟩
  have hands (n : StripNo) := hands_detachPort p s n
  have buses (b : BusNo) := bus_detachPort p s b
  have transaction := (sameLines_unhanded p s).transaction p
  rw [port_unplugged, if_pos rfl] at transaction
  have released := unclaimed_unclaimed p s
  have own_port := port_emptied_own p (unhanded p s)
  rw [transaction, overtaken_eq] at own_port
  rw [detachPort_emptied, unhanded_unclaimed] at *
  generalize unclaimed p s = C at *
  obtain ⟨table, timeline, audio, engine, pending⟩ := detached_rest released
  refine ⟨own_port, fun q other => detached_ports released other, fun n => ⟨(hands n).1, (hands n).2,
    fun other => detached_strip_other released other n, fun own => detached_strip_own released own n,
    detached_cells released n⟩, buses, table, timeline, audio, engine, pending, fun pass => ⟨?_,
    detached_queued released pass, detached_discarded released pass⟩, fun own => ?_⟩
  · have other := endRoles_other (p := p) (v := C) (by rw [released.playback]; exact pass)
    have kept : (endRoles p C).playback = C.playback := by rw [other]
    exact kept.trans released.playback
  · obtain ⟨playback, takes, takePort, lost⟩ := detached_lost released own
    exact ⟨playback, takes, takePort, fun take => ⟨lost, fun q other => detached_unraised released own take other⟩⟩

end Sys2Proof.Machine

/-!
PROOFS. Surface numbers (R168, R169): which window translates one, what a request on an untranslated one answers, and
which requests a view-only window permits.
-/
namespace Sys2Proof.Machine

/-! ### The window that translates (R169) -/

section Translation
variable {q : PortState} {k : Nat}

theorem covers_iff (w : Window) (k : Nat) : w.covers k = true ↔ w.enabled = true ∧ w.first ≤ k ∧ k ≤ w.last := by
  simp only [Window.covers, Bool.and_eq_true, decide_eq_true_eq, and_assoc]

/-- A translation that fails fails for reads and changes alike. -/
theorem reach_failed {st : Status} (failed : translate q k = .error st) :
    reach q k = .error st ∧ reachForChange q k = .error st := by
  rw [reach, reachForChange, failed]
  exact ⟨rfl, rfl⟩

theorem translate_beyond (far : 255 < k) : translate q k = .error .range := by rw [translate, if_pos far]

theorem translate_unmapped (near : k ≤ 255) (outside : ∀ i : Fin 4, ¬(q.windows[i].covers k = true)) :
    translate q k = .error .unmapped := by
  have search : q.windows.toList.find? (·.covers k) = none := by
    refine List.find?_eq_none.mpr fun w hw => ?_
    obtain ⟨i, hi, rfl⟩ := List.mem_iff_getElem.mp hw
    rw [Vector.length_toList] at hi
    exact outside ⟨i, hi⟩
  rw [translate, if_neg (Nat.not_lt.mpr near), search]

/-- The lowest-numbered window that contains the number decides. -/
theorem translate_lowest {i : Fin 4} (near : k ≤ 255) (inside : q.windows[i].covers k = true)
    (lowest : ∀ j : Fin 4, j < i → ¬(q.windows[j].covers k = true)) :
    translate q k =
      if h : q.windows[i].base.val + (k - q.windows[i].first) < 160 then
        .ok { strip := ⟨q.windows[i].base.val + (k - q.windows[i].first), h⟩, viewOnly := q.windows[i].viewOnly }
      else .error .range := by
  have search : q.windows.toList.find? (·.covers k) = some q.windows[i] := by
    refine List.find?_eq_some_iff_getElem.mpr ⟨inside, i.val, by rw [Vector.length_toList]; exact i.isLt, rfl, ?_⟩
    intro j hj
    exact (Bool.not_eq_true' _).mpr (Bool.eq_false_iff.mpr (lowest ⟨j, by omega⟩ hj))
  rw [translate, if_neg (Nat.not_lt.mpr near), search]

/-- The strip that the lowest-numbered window gives, or RANGE where that window runs beyond the last strip. -/
theorem reach_lowest {i : Fin 4} (near : k ≤ 255) (inside : q.windows[i].covers k = true)
    (lowest : ∀ j : Fin 4, j < i → ¬(q.windows[j].covers k = true)) :
    (160 ≤ q.windows[i].base.val + (k - q.windows[i].first) →
      reach q k = .error .range ∧ reachForChange q k = .error .range) ∧
    (∀ m : StripNo, m.val = q.windows[i].base.val + (k - q.windows[i].first) →
      reach q k = .ok m ∧ reachForChange q k = if q.windows[i].viewOnly then .error .view else .ok m) := by
  have found := translate_lowest near inside lowest
  refine ⟨fun beyond => reach_failed ?_, fun m number => ?_⟩
  · rw [found, dif_neg (by omega)]
  · have within : q.windows[i].base.val + (k - q.windows[i].first) < 160 := by omega
    have same : (⟨_, within⟩ : StripNo) = m := Fin.ext number.symm
    rw [dif_pos within, same] at found
    rw [reach, reachForChange, found]
    exact ⟨rfl, rfl⟩

end Translation

section Requests
variable {p : PortId} {b : Byte} {st : Status} {n : StripNo} {s : State}

theorem runNumbers_one (b : Byte) : runNumbers b 1 = [b.toNat] := rfl

/-! ### Changes that a window does not translate or permit -/

theorem reachObject_strip_unreached {k : Nat} (failed : reachForChange (s.port p) k = .error st) :
    reachObject (s.port p) .strip true k = .error st := by
  rw [reachObject]
  simp only [if_true]
  rw [failed]

theorem exec_claim_unreached (h : (s.port p).takes = true) (failed : reachForChange (s.port p) b.toNat = .error st) :
    exec (.claim p 0 b 1) s = .next (s.leaves p (reply 0x20 st [0])) := by
  refine exec_claim_refused h (claimChecked_unreached (i := 0) rfl (runFailure_strip (by decide)) ?_)
  rw [runNumbers_one, reachRun, reachObject_strip_unreached failed]

theorem exec_yield_unreached (h : (s.port p).takes = true) {x : Byte}
    (failed : reachForChange (s.port p) b.toNat = .error st) :
    exec (.yield p 0 b x) s = .next (s.leaves p (reply 0x22 st [])) := by
  refine exec_yield_refused h ?_
  rw [yieldChecked, readObjectKind_strip]
  dsimp only
  rw [reachObject_transacted h, reachObject_strip_unreached failed]

theorem exec_save_unreached (h : (s.port p).takes = true) (failed : reachForChange (s.port p) b.toNat = .error st) :
    exec (.save p b) s = .next (s.leaves p (reply 0x2A st [])) := by
  rw [exec_save_arm, execSave]
  refine request_leaves h rfl ?_
  dsimp only
  rw [reachForChange_transacted h, failed]

/-! ### Reads of one position, through a view-only window too (R170, R171) -/

/-- A read of one surface number answers what it reads and leaves the pointer after it. -/
theorem readSurfaces_one (h : (s.port p).takes = true) (code : Byte) (b : Byte) :
    readSurfaces p code b.toNat 1 (s.modPort p PortState.transacted) =
      (s.modPort p fun q => { q with pointer := b.toNat + 1 }).leaves p
        (reply code .ok (1 :: wSurface s (s.port p) b.toNat)) := by
  have pointed : s.modPort p (PortState.pointedAt (b.toNat + (1 : Byte).toNat)) =
      s.modPort p fun q => { q with pointer := b.toNat + 1 } := by
    refine modPort_congr ?_
    have stop : min 256 (b.toNat + (1 : Byte).toNat) = b.toNat + 1 := Nat.min_eq_right b.isLt
    rw [PortState.pointedAt, stop]
  have read : (List.range' b.toNat (1 : Byte).toNat).flatMap (wSurface s (s.port p)) = wSurface s (s.port p) b.toNat :=
    List.append_nil _
  rw [readSurfaces_ok h (by decide), pointed, read]

theorem exec_readRun_one (h : (s.port p).takes = true) :
    exec (.readRun p b 1) s =
      .next ((s.modPort p fun q => { q with pointer := b.toNat + 1 }).leaves p
        (reply 0x06 .ok (1 :: wSurface s (s.port p) b.toNat))) := by
  rw [exec_readRun h, readSurfaces_one h]

theorem exec_readNext_one (h : (s.port p).takes = true) (pointer : (s.port p).pointer = b.toNat) :
    exec (.readNext p 1) s =
      .next ((s.modPort p fun q => { q with pointer := b.toNat + 1 }).leaves p
        (reply 0x07 .ok (1 :: wSurface s (s.port p) b.toNat))) := by
  rw [exec_readNext h, pointer, readSurfaces_one h]

theorem wSurface_reached {k : Nat} (reached : reach (s.port p) k = .ok n) :
    wSurface s (s.port p) k = wStrip n (s.strip n) := by rw [wSurface, reached]

theorem wSurface_unreached {k : Nat} (failed : reach (s.port p) k = .error st) :
    wSurface s (s.port p) k = List.replicate 43 0 := by rw [wSurface, failed, wNoStrip]

/-! ### RELEASE of one position (R77) -/

theorem reachable_one (reached : reach (s.port p) b.toNat = .ok n) :
    reachable (s.port p) .strip (runNumbers b 1) = [.strip n] := by
  rw [runNumbers_one, reachable, reachObject_strip_read.mpr ⟨n, rfl, reached⟩]
  rfl

theorem reachable_none (failed : reach (s.port p) b.toNat = .error st) :
    reachable (s.port p) .strip (runNumbers b 1) = [] := by
  have unreached : reachObject (s.port p) .strip false b.toNat = .error st := by
    rw [reachObject]
    simp only [Bool.false_eq_true, if_false]
    rw [failed]
  rw [runNumbers_one, reachable, unreached]
  rfl

theorem exec_release_skipped (h : (s.port p).takes = true) (failed : reach (s.port p) b.toNat = .error st) :
    exec (.release p 0 b 1) s = .next (s.leaves p (reply 0x21 .ok [0])) := by
  rw [exec_release h readObjectKind_strip (runFailure_strip (by decide)), reachable_none failed]
  rfl

theorem exec_release_one (h : (s.port p).takes = true) (reached : reach (s.port p) b.toNat = .ok n) :
    exec (.release p 0 b 1) s =
      .next ((if (s.strip n).holder = some p then s.setStrip n { s.strip n with holder := none } else s).leaves p
        (reply 0x21 .ok [if (s.strip n).holder = some p then 1 else 0])) := by
  rw [exec_release h readObjectKind_strip (runFailure_strip (by decide)), reachable_one reached, releaseRun_cons,
    holderOf_modPort]
  by_cases held : (s.strip n).holder = some p
  · have holds : s.holderOf (.strip n) = some p := held
    rw [if_pos holds, if_pos held, if_pos held, ← setStrip_eq_modStrip s n fun r => { r with holder := none }]
    rfl
  · have lacks : ¬s.holderOf (.strip n) = some p := held
    rw [if_neg lacks, if_neg held, if_neg held]
    rfl

/-! ### UNTOUCH and the watch requests (R80, R83, R84) -/

theorem exec_untouch_unreached (h : (s.port p).takes = true) (failed : reach (s.port p) b.toNat = .error st) :
    exec (.untouch p b) s = .next (s.leaves p (reply 0x24 st [])) := by
  rw [exec_untouch_arm, execUntouch]
  refine request_leaves h rfl ?_
  dsimp only
  rw [reach_transacted h, failed]

/-- UNTOUCH ends the requester's touch and no other, and answers the write state. -/
theorem untouch_reached (h : (s.port p).takes = true) (reached : reach (s.port p) b.toNat = .ok n) :
    ∃ t, exec (.untouch p b) s = .next t ∧
      (t.strip n).toucher = (if (s.strip n).toucher = some p then none else (s.strip n).toucher) ∧
      (t.port p).replySlot = reply 0x24 .ok [BitVec.ofNat 8 (t.strip n).writeState.code] := by
  obtain ⟨other, own⟩ := (touchAndUntouchDriveTheWriteState p b n s h).2 reached
  by_cases touched : (s.strip n).toucher = some p
  · obtain ⟨t, done, _, _, _, replied, still, fall⟩ := own touched
    refine ⟨t, done, ?_, replied⟩
    rw [if_pos touched]
    by_cases falls : s.armed n = true ∧ (s.strip n).mode.triggered ∧ ¬s.linePunched n
    · rw [(fall falls).1]
    · rw [(still falls).1]
  · refine ⟨_, other touched, ?_, replySlot_leaves ..⟩
    rw [if_neg touched]
    rfl

theorem watchAdd_reached (h : (s.port p).takes = true) (reached : reach (s.port p) b.toNat = .ok n) :
    ∃ t, exec (.watchAdd p b) s = .next t ∧
      (t.port p).replySlot =
        reply 0x25
          (if ∃ w ∈ (s.port p).watches, w.strip = n then .duplicate
            else if 4 ≤ (s.port p).watches.length then .full else .ok)
          [BitVec.ofNat 8 (t.port p).watches.length] := by
  by_cases named : ∃ w ∈ (s.port p).watches, w.strip = n
  · refine ⟨_, exec_watchAdd_failed h (.inr ⟨n, reached, addWatch_duplicate named⟩), ?_⟩
    rw [if_pos named, leaves_port_self]
    rfl
  · have fresh : ∀ w ∈ (s.port p).watches, w.strip ≠ n := fun w hw e => named ⟨w, hw, e⟩
    rw [if_neg named]
    by_cases full : 4 ≤ (s.port p).watches.length
    · refine ⟨_, exec_watchAdd_failed h (.inr ⟨n, reached, addWatch_full fresh full⟩), ?_⟩
      rw [if_pos full, leaves_port_self]
      rfl
    · refine ⟨_, exec_watchAdd h reached fresh (Nat.lt_of_not_le full), ?_⟩
      have longer : (((s.port p).watches ++ [{ strip := n, hit := false, mover := none }] : List Watch)).length =
          (s.port p).watches.length + 1 := List.length_append
      rw [if_neg full, leaves_port_self, port_modPort_self, ← longer]
      rfl

theorem watchRemove_reached (h : (s.port p).takes = true) (reached : reach (s.port p) b.toNat = .ok n) :
    ∃ t, exec (.watchRemove p b) s = .next t ∧ (∀ w ∈ (t.port p).watches, w.strip ≠ n) ∧
      (t.port p).replySlot = reply 0x26 .ok [BitVec.ofNat 8 (t.port p).watches.length] := by
  refine ⟨_, exec_watchRemove h reached, ?_, ?_⟩
  · rw [leaves_port_self, port_modPort_self]
    intro w hw
    exact of_decide_eq_true (List.mem_filter.mp hw).2
  · rw [leaves_port_self, port_modPort_self, List.countP_eq_length_filter]
    rfl

end Requests

/-- Settles O18. -/
theorem lowestEnabledWindowTranslates : Obligations.LowestEnabledWindowTranslates := by
  intro p b st x y z w v so de fader n s h
  have near : b.toNat ≤ 255 := Nat.le_of_lt_succ b.isLt
  obtain ⟨cells, -, -, uncelled, -⟩ := readCellsAndSetRampAnswerTheRampLength p 0 b 0 s h
  simp only [← covers_iff]
  refine ⟨fun k far => reach_failed (translate_beyond far), fun outside => reach_failed (translate_unmapped near outside),
    fun i enabled first last lowest => reach_lowest near ((covers_iff _ _).mpr ⟨enabled, first, last⟩) lowest,
    fun failed => ?changes, fun reached => ?reads, fun failed => ?unreached⟩
  case changes =>
    have refused := changeRefusal_unreached failed
    have refused' := (changeRefusal_transacted h b.toNat).trans refused
    exact ⟨exec_move_refused h (moveDone_refused refused'), exec_flags_one_refused h refused,
      exec_setRoute_refused h (setRouteDone_refused refused'), exec_setStrip_refused h (setStripDone_refused refused'),
      exec_setMode_refused h (setModeDone_refused refused'), exec_claim_unreached h failed, exec_yield_unreached h failed,
      exec_touch_refused h refused, exec_save_unreached h failed⟩
  case reads =>
    have record := wSurface_reached reached
    refine ⟨?_, fun pointer => ?_, cells n reached, exec_release_one h reached, untouch_reached h reached, watchAdd_reached h reached,
      watchRemove_reached h reached⟩
    · rw [exec_readRun_one h, record]
    · rw [exec_readNext_one h pointer, record]
  case unreached =>
    have record := wSurface_unreached failed
    refine ⟨?_, fun pointer => ?_, uncelled st failed, exec_release_skipped h failed, exec_untouch_unreached h failed,
      exec_watchAdd_failed h (.inl failed), exec_watchRemove_failed h failed⟩
    · rw [exec_readRun_one h, record]
    · rw [exec_readNext_one h pointer, record]

end Sys2Proof.Machine
